-- ==== Sys2Proof/Word.lean ====
section
/-!
DEFINITION. The word types of the ZN-9280: registers are 64 bits, memories are bytes, all little-endian (00, R5).
-/
namespace Sys2Proof

/-- A byte of a memory of the device. -/
abbrev Byte := BitVec 8

/-- A 64-bit register or scalar. -/
abbrev Word := BitVec 64

/-- An unsigned 8-bit count or code carried by a command. -/
abbrev Code := Nat

end Sys2Proof
end

