-- ==== Sys2Proof/Machine/Bits.lean ====
section
/-!
DEFINITION. Bit fields, sign extension, byte order and saturation: the helpers every later file uses.
-/
namespace Sys2Proof.Machine

/-- Field of `len` bits of `w` from bit `lo`. -/
def field (w lo len : Nat) : Nat := (w >>> lo) % 2 ^ len

/-- Bit `i` of `w`. -/
def bit (w i : Nat) : Bool := (w >>> i) % 2 == 1

/-- `w` with its `len`-bit field at `lo` replaced by the low bits of `v`. -/
def putField (w lo len v : Nat) : Nat :=
  w % 2 ^ lo + (v % 2 ^ len) * 2 ^ lo + (w >>> (lo + len)) * 2 ^ (lo + len)

/-- A 1-bit value from a Bool. -/
def b2n (b : Bool) : Nat := if b then 1 else 0

/-- Two's-complement reading of the low `n` bits of `w`. -/
def signedOf (n w : Nat) : Int :=
  let v := w % 2 ^ n
  if v < 2 ^ (n - 1) then (v : Int) else (v : Int) - (2 ^ n : Nat)

/-- Two's-complement encoding of `i` in `n` bits. -/
def ofSigned (n : Nat) (i : Int) : Nat := (i % ((2 ^ n : Nat) : Int)).toNat

/-- Unsigned saturation at `2^n - 1`. -/
def satN (n v : Nat) : Nat := if v < 2 ^ n then v else 2 ^ n - 1

/-- Ceiling division. -/
def cdiv (a b : Nat) : Nat := (a + b - 1) / b

/-- Little-endian number spelled by a list of bytes (R5). -/
def leNat : List Byte → Nat
  | [] => 0
  | b :: bs => b.toNat + 256 * leNat bs

/-- The `n` little-endian bytes of `v` (R5). -/
def leBytes : Nat → Nat → List Byte
  | 0, _ => []
  | n + 1, v => BitVec.ofNat 8 v :: leBytes n (v / 256)

/-- Field of `n` bytes at byte offset `o` of a message body, as a number; bytes past its end read 0. -/
def leAt (bs : List Byte) (o n : Nat) : Nat := leNat ((bs.drop o).take n)

/-- Clamp an integer to a closed interval. -/
def clampI (lo hi v : Int) : Int := if v < lo then lo else if hi < v then hi else v

/-- Signed difference of two values truncated to `k` bits (09, R222). -/
def diffMod (k a b : Nat) : Int := signedOf k (a + 2 ^ k - b % 2 ^ k)

/-- The numbers below `n` that satisfy `p`. -/
def below (n : Nat) (p : Nat → Bool) : List Nat := (List.range n).filter p

end Sys2Proof.Machine
end

