-- ==== Sys2Proof/Syntax.lean ====
section
/-!
DEFINITION. The commands of the block: one constructor of `Instr` for each row of the table of operations and events,
with the operands the row carries. A tile-operation row names the physical tile and the operation's fields of 05; an
event row carries what the outside world supplies (a packet, a stamp, a measured value).
-/
namespace Sys2Proof

/-! ## Tile operations (04, 05) -/

/-- Two-operand scalar operations (R113, R128). -/
inductive AluOp where
  | add | sub | mul | mulhs | mulhu | and | or | xor | shl | shr | sra | min | max | minu | maxu | seq | slt | sltu
  deriving DecidableEq, Repr

/-- Second operand of a scalar operation: register form CR or immediate form CI (R127). -/
inductive Src2 where
  | reg (sb : BitVec 5)
  | imm (imm16 : BitVec 16)
  deriving DecidableEq, Repr

/-- Loop count: CL immediate or register (R115, R127). -/
inductive LoopCount where
  | imm (count12 : BitVec 12)
  | reg (ss : BitVec 5)
  deriving DecidableEq, Repr

/-- ACSET anchor: immediate or register (R99, R133). -/
inductive AnchorSrc where
  | imm (anchor10 : BitVec 10)
  | reg (ss : BitVec 5)
  deriving DecidableEq, Repr

/-- QWAIT operand: a mask register or one tag (R111, R132). -/
inductive WaitSet where
  | mask (ss : BitVec 5)
  | tag (tag : BitVec 6)
  deriving DecidableEq, Repr

/-- Vector lane types (R90, R136). -/
inductive LaneTy where
  | f32 | bf16 | f16 | i32 | i16 | i8
  deriving DecidableEq, Repr

/-- VCVT types (R138). -/
inductive CvtTy where
  | f32 | bf16 | f16 | i32 | i8 | i4 | e4m3 | e5m2
  deriving DecidableEq, Repr

/-- Element formats of weights and activations (R129). -/
inductive ElemFmt where
  | e4m3 | e5m2 | int8 | mx8e4m3 | mx8e5m2 | mx6e3m2 | mx6e2m3 | mx4 | int4 | bf16 | fp16
  deriving DecidableEq, Repr

/-- Weight sparsity (R129). -/
inductive Sparsity where
  | dense | s24 | s48
  deriving DecidableEq, Repr

/-- Readout formats of ACRD (R135). -/
inductive ReadFmt where
  | fp32 | bf16 | fp16 | e4m3 | e5m2
  deriving DecidableEq, Repr

/-- Element formats of VQMX (R140). -/
inductive MxFmt where
  | e4m3 | e5m2 | e3m2 | e2m3 | e2m1
  deriving DecidableEq, Repr

/-- VCMP conditions (R137). -/
inductive Cond where
  | eq | ne | lt | le | gt | ge
  deriving DecidableEq, Repr

/-- VRED operators (R104). -/
inductive RedOp where
  | sum | max | min
  deriving DecidableEq, Repr

/-- Access sizes of scalar loads and stores: 1, 2, 4 or 8 bytes (R131). -/
inductive MemSize where
  | b1 | b2 | b4 | b8
  deriving DecidableEq, Repr

/-- The slots of a bundle (R120); `bundle` is slot 6, bundle level. -/
inductive Slot where
  | c | l | x | m | v0 | v1 | bundle
  deriving DecidableEq, Repr

/-- The two vector slots. -/
inductive VSlot where
  | v0 | v1
  deriving DecidableEq, Repr

/-- Fields of the base V-slot layout (R136). -/
structure VArgs where
  slot : VSlot
  ty : LaneTy
  z : Bool
  pm : BitVec 4
  vd : BitVec 6
  va : BitVec 6
  vb : BitVec 6
  vc : BitVec 6
  u : Bool
  deriving DecidableEq, Repr

/-- Fields of MMA and MMAS (R133). -/
structure MmaArgs where
  set : BitVec 3
  va : BitVec 6
  row : BitVec 4
  sx : BitVec 5
  w : BitVec 1
  af : ElemFmt
  wf : ElemFmt
  sp : Sparsity
  kq : Fin 5
  pm : BitVec 4
  deriving DecidableEq, Repr

/-- Fields of ACRD (R133, R135). -/
structure AcrdArgs where
  set : BitVec 3
  vd : BitVec 6
  rf : ReadFmt
  h : BitVec 3
  stochastic : Bool
  ss : BitVec 5
  satf : Bool
  clr : Bool
  pf : BitVec 4
  deriving DecidableEq, Repr

/-- Fields of VCVT (R138). -/
structure CvtArgs where
  slot : VSlot
  sty : CvtTy
  dty : CvtTy
  pm : BitVec 4
  vd : BitVec 6
  va : BitVec 6
  h : BitVec 3
  stochastic : Bool
  satf : Bool
  ss : BitVec 5
  deriving DecidableEq, Repr

/-- Fields of VQMX and VQMXC (R140). -/
structure QmxArgs where
  slot : VSlot
  ef : MxFmt
  rlLong : Bool
  pm : BitVec 4
  vd : BitVec 6
  va : BitVec 6
  sd : BitVec 5
  row : BitVec 4
  deriving DecidableEq, Repr

/-- Lane-wise two-source operations of R101. -/
inductive VBinOp where
  | vadd | vsub | vmul | vadds | vsubs | vmin | vmax | vand | vor | vxor | vshl | vshr | vsra
  deriving DecidableEq, Repr

/-- Lane-wise one-source operations of R101 and R106. -/
inductive VUnOp where
  | vabs | vneg | vnot | vmov | vexp | vexp2 | vlog2 | vrcp | vrsqrt | vtanh | vsigm
  deriving DecidableEq, Repr

/-- Predicate operations of R101. -/
inductive PredOp where
  | pand | por | pxor
  deriving DecidableEq, Repr

/-- One operation of one slot, decoded (05). -/
inductive SlotOp where
  | alu (op : AluOp) (sd sa : BitVec 5) (b : Src2)
  | movi (sd : BitVec 5) (imm20 : BitVec 20)
  | movk (sd : BitVec 5) (h : BitVec 2) (imm16 : BitVec 16)
  | rdt (sd : BitVec 5)
  | rdl (sd : BitVec 5)
  | br (target : BitVec 13)
  | bz (ss : BitVec 5) (target : BitVec 13)
  | bnz (ss : BitVec 5) (target : BitVec 13)
  | bri (ss : BitVec 5)
  | loop (count : LoopCount) (endAddr : BitVec 13)
  | pred (ss : BitVec 5)
  | tend
  | ldv (vd : BitVec 6) (ss : BitVec 5) (imm24 : BitVec 24)
  | lds (sd ss : BitVec 5) (size : MemSize) (signed : Bool) (imm22 : BitVec 22)
  | stv (vs : BitVec 6) (ss : BitVec 5) (imm24 : BitVec 24)
  | sts (sa ss : BitVec 5) (size : MemSize) (imm22 : BitVec 22)
  | ldw (w : BitVec 1) (sp : Sparsity) (wf : ElemFmt) (ss : BitVec 5) (imm23 : BitVec 23)
  | send (vs : BitVec 6) (ob fo : BitVec 5) (nm1 : BitVec 4)
  | recv (vd : BitVec 6) (ib : BitVec 6) (fo : BitVec 5) (nm1 : BitVec 4)
  | ldqv (tag : BitVec 6) (ss n : BitVec 5) (imm19 : BitVec 19)
  | ldqt (tag : BitVec 6) (st sm sl : BitVec 5)
  | ldqi (tag : BitVec 6) (first : BitVec 4) (cnt so : BitVec 5)
  | stqv (tag vs : BitVec 6) (ss n : BitVec 5) (imm13 : BitVec 13)
  | stqt (tag : BitVec 6) (st sm sl : BitVec 5)
  | qwait (w : WaitSet)
  | qpop (vd tag : BitVec 6)
  | mma (a : MmaArgs)
  | mmas (a : MmaArgs)
  | acrd (a : AcrdArgs)
  | acset (set : BitVec 3) (anchor : AnchorSrc)
  | vbin (op : VBinOp) (a : VArgs)
  | vun (op : VUnOp) (a : VArgs)
  | vfma (a : VArgs)
  | vcmp (slot : VSlot) (ty : LaneTy) (pm pd : BitVec 4) (va vb : BitVec 6) (cond : Cond)
  | vsel (a : VArgs)
  | vbcast (a : VArgs) (ss : BitVec 5)
  | vext (slot : VSlot) (ty : LaneTy) (sd : BitVec 5) (va : BitVec 6) (ss : BitVec 5)
  | vperm (a : VArgs)
  | vred (a : VArgs) (op : RedOp) (g : BitVec 3)
  | pbin (op : PredOp) (slot : VSlot) (pd pa pb : BitVec 4)
  | pnot (slot : VSlot) (pd pa : BitVec 4)
  | ppop (slot : VSlot) (sd : BitVec 5) (pa : BitVec 4)
  | vcvt (a : CvtArgs)
  | vqmx (a : QmxArgs)
  | vqmxc (a : QmxArgs)
  | gate (pm : BitVec 4) (vd va : BitVec 6) (k : Fin 9)
  | gpack (vd va : BitVec 6) (ss : BitVec 5)
  deriving DecidableEq, Repr

/-! ## Agents of the device (01, R10 to R17) -/

/-- A physical tile (R11). -/
abbrev PTile := Fin 544
/-- A district (R10). -/
abbrev District := Fin 32
/-- A Laistic port (R17). -/
abbrev Port := Fin 8
/-- An HBM stack (R17). -/
abbrev Stack := Fin 8

/-! ## Operands of the events -/

/-- An identity that reaches the steward's units (R454). -/
inductive Ident where
  | host | stw0 | stw1 | bmc | dbg
  | remote (flat : Nat)
  deriving DecidableEq, Repr

/-- Which bytes of a 64-bit register an access covers: all eight, bytes 0-3, or bytes 4-7. -/
inductive Half where
  | full | low | high
  deriving DecidableEq, Repr

/-- A window access (R454, R456): a read of `n` bytes or a write. -/
inductive WinAcc where
  | rd (n : Nat)
  | wr (bs : List Byte)
  deriving DecidableEq, Repr

/-- What the meters and the period counters measured of an interval: cycles begun by district (R251), energy in uJ and
largest 1 us average in mW of meters 0-10 (R488). -/
structure Meas where
  cycles : List Nat := []
  uj : List Nat := []
  mw : List Nat := []
  deriving DecidableEq, Repr

/-- Errors of a transfer of a 64-byte unit of the local slot (R205): bad symbols in each 32-byte half of the burst beneath the
stack's own ECC, and how many times in succession the memory plane found its transfer in error. -/
structure HbmErr where
  unit : Nat
  half0 : Nat := 0
  half1 : Nat := 0
  plane : Nat := 0
  deriving DecidableEq, Repr

/-- The memory plane's reissue failed too (R205). -/
def HbmErr.lost (e : HbmErr) : Bool := 2 ≤ e.plane
/-- An uncorrectable error (R205): two bad symbols or more in a half (log 96), or a reissue that failed. -/
def HbmErr.bad (e : HbmErr) : Bool := 2 ≤ e.half0 || 2 ≤ e.half1 || e.lost
/-- A corrected read (R205): one bad symbol in a half. -/
def HbmErr.corrected (e : HbmErr) : Bool := !e.bad && (e.half0 == 1 || e.half1 == 1)

/-- What the outside supplies at the completion of a transfer: ns since its issue, whether the device kept a bounded queue's
operation longer than R200 allows, errors of its units, bytes that came from host memory, and whether PCI Express failed it
(R452). -/
structure QExt where
  ns : Nat := 0
  broken : Bool := false
  errs : List HbmErr := []
  data : List Byte := []
  failed : Bool := false
  deriving DecidableEq, Repr

/-- An error in an SRAM word (R524): array 0-6, unit (tile, port, district), bank, row, word, uncorrectable. -/
structure SramErr where
  array : Nat
  unit : Nat
  bank : Nat
  row : Nat
  word : Nat
  bad : Bool
  deriving DecidableEq, Repr

/-- A step of the SRAM scrub beside the error it finds (R525): whether it ends a pass, and the words errors have struck that nothing
has read yet (log 19). -/
structure ScrubStep where
  last : Bool := false
  struck : List SramErr := []
  deriving DecidableEq, Repr

/-- A frame as the lanes bring it, still scrambled: the 64 bytes of each of the 30 physical lanes, the arrival instant of its first
symbol in 2^-16 ns, and whether it is a training frame (R386). -/
structure Frame where
  lanes : List (List Byte)
  at_ : Nat
  training : Bool := false
  deriving DecidableEq, Repr

/-- A scrambler (R366): the next 58 bits of its sequence, the first in bit 0, as they stand at the first bit of an absolute fret. -/
structure Scrambler where
  word : BitVec 58 := 0
  fret : Nat := 0
  deriving DecidableEq, Repr

/-- Outcome of the LCRC check of a packet (R371). -/
inductive Crc where
  | good | stomped | failed
  deriving DecidableEq, Repr

/-- A packet of a received frame (R375): flits, link sequence number, CRC outcome, whether its frame was readable, CRC
slot, arrival instant of its frame in 2^-16 ns. -/
structure LinkPkt where
  flits : List (BitVec 512)
  seq : BitVec 20
  crc : Crc
  readable : Bool
  slot : Nat
  at_ : Nat
  deriving DecidableEq, Repr

/-- What training gave (R366, R389, R402): usable lanes of each direction, the partner's discovery record, whether the partner is
FRESH, and the partner's scrambler, by its own absolute frets. -/
structure TrainData where
  rxUsable : List Nat
  txUsable : List Nat
  record : List Byte
  fresh : Bool
  scr : Scrambler := {}
  deriving DecidableEq, Repr

/-- What a port that regained lock brings back beside its partner's discovery record (R366, R387): usable lanes of each direction,
whether the partner is FRESH, and its scrambler. -/
structure Relock where
  rxUsable : List Nat
  txUsable : List Nat
  fresh : Bool
  scr : Scrambler := {}
  deriving DecidableEq, Repr

/-- What a period monitor saw (R250): the district's period in ps, and whether the oscillator lost lock. -/
structure ClockEvent where
  ps : BitVec 32
  lockLost : Bool := false
  deriving DecidableEq, Repr

/-- A packet offered to a stream (R335, R345): OP, address or offset, TAG, completion counter, LAST, TOTAL, payload bytes,
the 40-byte control payload as a number, and the DMA channel that sends it, if not the steward. -/
structure SendReq where
  op : Nat
  addr : Nat := 0
  tag : Nat := 0
  xfer : Nat := 0
  last : Bool := false
  total : Nat := 0
  body : List Byte := []
  ctl : Nat := 0
  dma : Option (Fin 8) := none
  land : Nat := 0
  deriving DecidableEq, Repr

/-- Temperatures of a sample (R497), in degrees C: districts 0-31, ports 0-7, steward, HBM stacks 0-7. -/
structure Temps where
  districts : List Int
  ports : List Int
  steward : Int
  hbmStacks : List Int
  deriving DecidableEq, Repr

/-- What a reset finds: strap levels (R547), the worst crossing latencies of each district in 2^-16 ns, inbound then outbound
(R259), and for a cold reset the rails in range (R501). -/
structure BootData where
  straps : BitVec 4 := 0
  cal : List (Nat × Nat) := []
  railsGood : BitVec 11 := 0
  deriving DecidableEq, Repr

/-- The commands of the block: the rows of the table, in its order. -/
inductive Instr where
  /-- MERIDIAN (R20). -/
  | meridian (m : Meas)
  /-- FREE_INTERVAL_CLOSE (R487). -/
  | freeIntervalClose (m : Meas)
  /-- BUNDLE_ISSUE (R124). -/
  | bundleIssue (p : PTile)
  /-- ADD (R113). -/
  | add_ (p : PTile) (sd sa : BitVec 5) (b : Src2)
  /-- SUB (R113). -/
  | sub_ (p : PTile) (sd sa : BitVec 5) (b : Src2)
  /-- MUL (R113). -/
  | mul_ (p : PTile) (sd sa : BitVec 5) (b : Src2)
  /-- MULHS (R113). -/
  | mulhs (p : PTile) (sd sa : BitVec 5) (b : Src2)
  /-- MULHU (R113). -/
  | mulhu (p : PTile) (sd sa : BitVec 5) (b : Src2)
  /-- AND (R113). -/
  | and_ (p : PTile) (sd sa : BitVec 5) (b : Src2)
  /-- OR (R113). -/
  | or_ (p : PTile) (sd sa : BitVec 5) (b : Src2)
  /-- XOR (R113). -/
  | xor_ (p : PTile) (sd sa : BitVec 5) (b : Src2)
  /-- SHL (R113). -/
  | shl (p : PTile) (sd sa : BitVec 5) (b : Src2)
  /-- SHR (R113). -/
  | shr (p : PTile) (sd sa : BitVec 5) (b : Src2)
  /-- SRA (R113). -/
  | sra (p : PTile) (sd sa : BitVec 5) (b : Src2)
  /-- MIN (R113). -/
  | min_ (p : PTile) (sd sa : BitVec 5) (b : Src2)
  /-- MAX (R113). -/
  | max_ (p : PTile) (sd sa : BitVec 5) (b : Src2)
  /-- MINU (R113). -/
  | minu (p : PTile) (sd sa : BitVec 5) (b : Src2)
  /-- MAXU (R113). -/
  | maxu (p : PTile) (sd sa : BitVec 5) (b : Src2)
  /-- SEQ (R113). -/
  | seq_ (p : PTile) (sd sa : BitVec 5) (b : Src2)
  /-- SLT (R113). -/
  | slt (p : PTile) (sd sa : BitVec 5) (b : Src2)
  /-- SLTU (R113). -/
  | sltu (p : PTile) (sd sa : BitVec 5) (b : Src2)
  /-- MOVI (R113). -/
  | movi (p : PTile) (sd : BitVec 5) (imm : BitVec 20)
  /-- MOVK (R113). -/
  | movk (p : PTile) (sd : BitVec 5) (h : BitVec 2) (imm : BitVec 16)
  /-- RDT (R113). -/
  | rdt (p : PTile) (sd : BitVec 5)
  /-- RDL (R113). -/
  | rdl (p : PTile) (sd : BitVec 5)
  /-- BR (R114). -/
  | br (p : PTile) (target : BitVec 13)
  /-- BZ (R114). -/
  | bz (p : PTile) (ss : BitVec 5) (target : BitVec 13)
  /-- BNZ (R114). -/
  | bnz (p : PTile) (ss : BitVec 5) (target : BitVec 13)
  /-- BRI (R114). -/
  | bri (p : PTile) (ss : BitVec 5)
  /-- LOOP (R115). -/
  | loop_ (p : PTile) (count : LoopCount) (endAddr : BitVec 13)
  /-- PRED (R116). -/
  | pred (p : PTile) (ss : BitVec 5)
  /-- TEND (R117). -/
  | tend (p : PTile)
  /-- TEND_REACHED (R63). -/
  | tendReached (p : PTile)
  /-- LD_V (R109). -/
  | ldV (p : PTile) (vd : BitVec 6) (ss : BitVec 5) (imm : BitVec 24)
  /-- LD_S (R109). -/
  | ldS (p : PTile) (sd ss : BitVec 5) (size : MemSize) (signed : Bool) (imm : BitVec 22)
  /-- ST_V (R109). -/
  | stV (p : PTile) (vs : BitVec 6) (ss : BitVec 5) (imm : BitVec 24)
  /-- ST_S (R109). -/
  | stS (p : PTile) (sa ss : BitVec 5) (size : MemSize) (imm : BitVec 22)
  /-- LDW (R41). -/
  | ldw (p : PTile) (w : BitVec 1) (sp : Sparsity) (wf : ElemFmt) (ss : BitVec 5) (imm : BitVec 23)
  /-- LDW_COMPLETE (R146). -/
  | ldwComplete (p : PTile)
  /-- SEND (R110). -/
  | send (p : PTile) (vs : BitVec 6) (ob fo : BitVec 5) (nm1 : BitVec 4)
  /-- RECV (R273). -/
  | recv (p : PTile) (vd ib : BitVec 6) (fo : BitVec 5) (nm1 : BitVec 4)
  /-- LDQ_V (R111). -/
  | ldqV (p : PTile) (tag : BitVec 6) (ss n : BitVec 5) (imm : BitVec 19)
  /-- LDQ_T (R111). -/
  | ldqT (p : PTile) (tag : BitVec 6) (st sm sl : BitVec 5)
  /-- LDQ_I (R111). -/
  | ldqI (p : PTile) (tag : BitVec 6) (first : BitVec 4) (cnt so : BitVec 5)
  /-- STQ_V (R111). -/
  | stqV (p : PTile) (tag vs : BitVec 6) (ss n : BitVec 5) (imm : BitVec 13)
  /-- STQ_T (R111). -/
  | stqT (p : PTile) (tag : BitVec 6) (st sm sl : BitVec 5)
  /-- QWAIT (R56). -/
  | qwait (p : PTile) (w : WaitSet)
  /-- QWAIT_RESUME (R56). -/
  | qwaitResume (p : PTile)
  /-- QPOP (R57). -/
  | qpop (p : PTile) (vd tag : BitVec 6)
  /-- MMA (R98). -/
  | mma (p : PTile) (a : MmaArgs)
  /-- MMAS (R149). -/
  | mmas (p : PTile) (a : MmaArgs)
  /-- MMA_CONTRIBUTION_LAND (R44). -/
  | mmaContributionLand (p : PTile)
  /-- FIXED_LATENCY_COMPLETE (R34). -/
  | fixedLatencyComplete (p : PTile)
  /-- ACRD (R100). -/
  | acrd (p : PTile) (a : AcrdArgs)
  /-- ACSET (R99). -/
  | acset (p : PTile) (set : BitVec 3) (anchor : AnchorSrc)
  /-- VADD (R101). -/
  | vadd (p : PTile) (a : VArgs)
  /-- VSUB (R101). -/
  | vsub (p : PTile) (a : VArgs)
  /-- VMUL (R101). -/
  | vmul (p : PTile) (a : VArgs)
  /-- VADDS (R101). -/
  | vadds (p : PTile) (a : VArgs)
  /-- VSUBS (R101). -/
  | vsubs (p : PTile) (a : VArgs)
  /-- VFMA (R101). -/
  | vfma (p : PTile) (a : VArgs)
  /-- VMIN (R101). -/
  | vmin (p : PTile) (a : VArgs)
  /-- VMAX (R101). -/
  | vmax (p : PTile) (a : VArgs)
  /-- VABS (R101). -/
  | vabs (p : PTile) (a : VArgs)
  /-- VNEG (R101). -/
  | vneg (p : PTile) (a : VArgs)
  /-- VAND (R101). -/
  | vand (p : PTile) (a : VArgs)
  /-- VOR (R101). -/
  | vor (p : PTile) (a : VArgs)
  /-- VXOR (R101). -/
  | vxor (p : PTile) (a : VArgs)
  /-- VNOT (R101). -/
  | vnot (p : PTile) (a : VArgs)
  /-- VSHL (R101). -/
  | vshl (p : PTile) (a : VArgs)
  /-- VSHR (R101). -/
  | vshr (p : PTile) (a : VArgs)
  /-- VSRA (R101). -/
  | vsra (p : PTile) (a : VArgs)
  /-- VCMP (R101). -/
  | vcmp (p : PTile) (slot : VSlot) (ty : LaneTy) (pm pd : BitVec 4) (va vb : BitVec 6) (cond : Cond)
  /-- VSEL (R101). -/
  | vsel (p : PTile) (a : VArgs)
  /-- VMOV (R101). -/
  | vmov (p : PTile) (a : VArgs)
  /-- VBCAST (R101). -/
  | vbcast (p : PTile) (a : VArgs) (ss : BitVec 5)
  /-- VEXT (R101). -/
  | vext (p : PTile) (slot : VSlot) (ty : LaneTy) (sd : BitVec 5) (va : BitVec 6) (ss : BitVec 5)
  /-- VPERM (R105). -/
  | vperm (p : PTile) (a : VArgs)
  /-- VRED (R104). -/
  | vred (p : PTile) (a : VArgs) (op : RedOp) (g : BitVec 3)
  /-- PAND (R101). -/
  | pand (p : PTile) (slot : VSlot) (pd pa pb : BitVec 4)
  /-- POR (R101). -/
  | por (p : PTile) (slot : VSlot) (pd pa pb : BitVec 4)
  /-- PXOR (R101). -/
  | pxor (p : PTile) (slot : VSlot) (pd pa pb : BitVec 4)
  /-- PNOT (R101). -/
  | pnot (p : PTile) (slot : VSlot) (pd pa : BitVec 4)
  /-- PPOP (R101). -/
  | ppop (p : PTile) (slot : VSlot) (sd : BitVec 5) (pa : BitVec 4)
  /-- VCVT (R102). -/
  | vcvt (p : PTile) (a : CvtArgs)
  /-- VQMX (R103). -/
  | vqmx (p : PTile) (a : QmxArgs)
  /-- VQMXC (R103). -/
  | vqmxc (p : PTile) (a : QmxArgs)
  /-- VEXP (R106). -/
  | vexp (p : PTile) (a : VArgs)
  /-- VEXP2 (R106). -/
  | vexp2 (p : PTile) (a : VArgs)
  /-- VLOG2 (R106). -/
  | vlog2 (p : PTile) (a : VArgs)
  /-- VRCP (R106). -/
  | vrcp (p : PTile) (a : VArgs)
  /-- VRSQRT (R106). -/
  | vrsqrt (p : PTile) (a : VArgs)
  /-- VTANH (R106). -/
  | vtanh (p : PTile) (a : VArgs)
  /-- VSIGM (R106). -/
  | vsigm (p : PTile) (a : VArgs)
  /-- GATE (R107). -/
  | gate (p : PTile) (pm : BitVec 4) (vd va : BitVec 6) (k : Fin 9)
  /-- GPACK (R108). -/
  | gpack (p : PTile) (vd va : BitVec 6) (ss : BitVec 5)
  /-- OUTBOX_RELEASE (R270). -/
  | outboxRelease (p : PTile) (slot : BitVec 5)
  /-- OUTBOUND_CROSSING_RELEASE (R260). -/
  | outboundCrossingRelease (d : District) (late : Nat)
  /-- MESH_HOP (R15). -/
  | meshHop (i : Nat) (badFlits : BitVec 25)
  /-- CROSSING_ENTRY (R261). -/
  | crossingEntry (d : District)
  /-- INBOUND_CROSSING_RELEASE (R260). -/
  | inboundCrossingRelease (d : District) (late : Nat)
  /-- VECTOR_ARRIVAL_PORT (R310). -/
  | vectorArrivalPort (port : Port) (badFlits : BitVec 25)
  /-- VECTOR_REPLAY_SEND (R319). -/
  | vectorReplaySend (port : Port)
  /-- REPLAY_COPY_DEPARTURE (R320). -/
  | replayCopyDeparture (port : Port)
  /-- FRAME_RECEIVE (R370). -/
  | frameReceive (port : Port) (frame : Frame)
  /-- LINK_PACKET_RECEIVE (R375). -/
  | linkPacketReceive (port : Port) (pkt : LinkPkt)
  /-- ACK_RECEIVED (R377). -/
  | ackReceived (port : Port) (ack : BitVec 20)
  /-- NAK_RECEIVED (R377). -/
  | nakReceived (port : Port) (fret : BitVec 16) (mask : BitVec 6)
  /-- ACK_TIMEOUT (R379). -/
  | ackTimeout (port : Port)
  /-- PARTNER_LEAVING (R382). -/
  | partnerLeaving (port : Port)
  /-- LANE_LOCK_LOSS (R384). -/
  | laneLockLoss (port : Port) (lane : Fin 30)
  /-- LANE_SUB_REQ_RECEIVED (R385). -/
  | laneSubReqReceived (port : Port) (lane : Fin 30)
  /-- LANE_SUB_ACK_RECEIVED (R385). -/
  | laneSubAckReceived (port : Port) (lane : Fin 30) (fret256 : BitVec 8)
  /-- LANE_SWITCH_FRET (R385). -/
  | laneSwitchFret (port : Port)
  /-- PORT_RECOVERED (R387). -/
  | portRecovered (port : Port) (record : List Byte) (t : Relock)
  /-- LINK_DOWN_TIMEOUT (R387). -/
  | linkDownTimeout (port : Port)
  /-- DETOUR_PROPOSAL_TIMEOUT (R329). -/
  | detourProposalTimeout
  /-- PORT_TRAINING_COMPLETE (R389). -/
  | portTrainingComplete (port : Port) (t : TrainData)
  /-- TRAINING_ATTEMPT_FAIL (R389). -/
  | trainingAttemptFail (port : Port) (fewLanes : Bool)
  /-- DISCOVERY_DEADLINE (R405). -/
  | discoveryDeadline
  /-- TIME_EXCHANGE_START (R225). -/
  | timeExchangeStart (port : Port) (t1 : Nat)
  /-- TIME_EXCHANGE_REQ_RECEIVED (R225). -/
  | timeExchangeReqReceived (port : Port) (record : List Byte) (t2 t3 : Nat)
  /-- TIME_EXCHANGE_RSP_RECEIVED (R227). -/
  | timeExchangeRspReceived (port : Port) (record : List Byte) (t4 : Nat)
  /-- TIME_EXCHANGE_MISSED (R225). -/
  | timeExchangeMissed (port : Port)
  /-- DOMAIN_MISSING (R230). -/
  | domainMissing (b : Bool)
  /-- HOLDOVER_BUDGET_EXPIRY (R236). -/
  | holdoverBudgetExpiry
  /-- PPS_EDGE (R224). -/
  | ppsEdge (b rising : Bool) (stamp : Nat)
  /-- PPS_LOST (R224). -/
  | ppsLost (b : Bool)
  /-- TRIGGER_FIRE (R237). -/
  | triggerFire (n : Fin 4)
  /-- TRIGGER_PULSE_END (R237). -/
  | triggerPulseEnd (n : Fin 4)
  /-- CAPTURE_EDGE (R239). -/
  | captureEdge (n : Fin 4) (rising : Bool) (stamp : Nat)
  /-- PTM_REQUEST_TIMER (R240). -/
  | ptmRequestTimer
  /-- PTM_RESPONSE (R240). -/
  | ptmResponse (t4 : Nat) (fields : Option (BitVec 64 × BitVec 32))
  /-- DROOP_TRIP (R248). -/
  | droopTrip (d : District)
  /-- DROOP_CLEAR (R248). -/
  | droopClear (d : District)
  /-- CLOCK_FAULT (R250). -/
  | clockFault (d : District) (e : ClockEvent)
  /-- HALT_RESTART (R257). -/
  | haltRestart (ns : Nat) (notLocked : BitVec 32)
  /-- RETUNE_IDLE_APPLY (R254). -/
  | retuneIdleApply
  /-- QUEUE_OP_COMPLETE (R196). -/
  | queueOpComplete (d : District) (i : Nat) (x : QExt)
  /-- HBM_SCRUB_STEP (R208). -/
  | hbmScrubStep (h : Stack) (errs : List HbmErr)
  /-- ROW_REMAP (R209). -/
  | rowRemap (h : Stack) (pc : BitVec 5) (row : BitVec 32)
  /-- PSEUDO_CHANNEL_LOST (R212). -/
  | pseudoChannelLost (h : Stack) (pc : BitVec 5)
  /-- BAR2_WRITE (R192). -/
  | bar2Write (off : BitVec 40) (data : List Byte) (ep : Bool)
  /-- BAR2_READ (R192). -/
  | bar2Read (off : BitVec 40) (len : BitVec 13) (errs : List HbmErr)
  /-- DMA_TRANSFER_COMPLETE (R191). -/
  | dmaTransferComplete (ch : Fin 8) (x : QExt)
  /-- STREAM_SEND (R345). -/
  | streamSend (n : Fin 16384) (req : SendReq)
  /-- SERVICE_PACKET_DEPART (R342). -/
  | servicePacketDepart (port : Port)
  /-- SERVICE_PACKET_FORWARD (R351). -/
  | servicePacketForward (port : Port)
  /-- RESIDENCE_TIMEOUT (R351). -/
  | residenceTimeout (port : Port)
  /-- LOAD (R354). -/
  | svcLoad (port : Port) (errs : List HbmErr)
  /-- STORE (R354). -/
  | svcStore (port : Port)
  /-- ATOMIC (R356). -/
  | svcAtomic (port : Port) (errs : List HbmErr)
  /-- PUT (R352). -/
  | svcPut (port : Port)
  /-- MSG (R340). -/
  | svcMsg (port : Port)
  /-- LOAD_DATA (R353). -/
  | svcLoadData (port : Port)
  /-- STORE_ACK (R353). -/
  | svcStoreAck (port : Port)
  /-- ATOMIC_RSP (R353). -/
  | svcAtomicRsp (port : Port)
  /-- CREDIT (R347). -/
  | svcCredit (port : Port)
  /-- CREDIT_TIMER (R347). -/
  | creditTimer (n : Fin 16384)
  /-- GRANT (R346). -/
  | svcGrant (port : Port)
  /-- STREAM_TIMEOUT (R349). -/
  | streamTimeout (n : Fin 16384)
  /-- PROBE (R349). -/
  | svcProbe (port : Port)
  /-- PROBE_RSP (R349). -/
  | svcProbeRsp (port : Port)
  /-- MBX_ACTION_MSG (R473). -/
  | mbxActionMsg
  /-- PEER_RESET_MSG (R459). -/
  | peerResetMsg
  /-- NOT_ARMED (R410). -/
  | notArmed
  /-- DETOUR_PROPOSE (R329). -/
  | detourPropose
  /-- DETOUR_ACCEPT (R329). -/
  | detourAccept
  /-- DETOUR_REFUSE (R329). -/
  | detourRefuse
  /-- DETOUR_CANCEL (R329). -/
  | detourCancel
  /-- PORT_STATE (R413). -/
  | portState
  /-- CHUNK_REQUEST (R437). -/
  | chunkRequest (errs : List HbmErr)
  /-- CHUNK_DECLINE (R436). -/
  | chunkDecline
  /-- TRANSIT_FAILED (R522). -/
  | transitFailed
  /-- CHUNK_HASH_COMPLETE (R435). -/
  | chunkHashComplete (f : Nat) (chunk : Nat) (host : List Byte)
  /-- COMPLETION_RING_READ (R554). -/
  | completionRingRead
  /-- REQ_COMPLETE_POST (R482). -/
  | reqCompletePost (ch : Fin 64)
  /-- NOTICE_SEND (R470). -/
  | noticeSend (ch : Fin 64)
  /-- ASYNC_COMMAND_COMPLETE (R469). -/
  | asyncCommandComplete (ch : Fin 64) (tag : BitVec 64) (x : QExt)
  /-- FAULT_RECORD_DRAIN (R521). -/
  | faultRecordDrain
  /-- SRAM_SCRUB_STEP (R525). -/
  | sramScrubStep (e : Option SramErr) (x : ScrubStep)
  /-- SRAM_ROW_SUBSTITUTE (R525). -/
  | sramRowSubstitute (e : SramErr)
  /-- THERMAL_SAMPLE (R497). -/
  | thermalSample (t : Temps)
  /-- THERMAL_RELEASE_STEP (R498). -/
  | thermalReleaseStep
  /-- RAIL_FAULT (R503). -/
  | railFault (rail : Fin 11) (m : Meas)
  /-- POWER_FAIL (R505). -/
  | powerFail (m : Meas) (vkeep : BitVec 16)
  /-- SAVE_COMPLETE (R508). -/
  | saveComplete (us : BitVec 16) (vkeepEnd : BitVec 16)
  /-- COLD_RESET (R545). -/
  | coldReset (b : BootData)
  /-- WARM_RESET (R545). -/
  | warmReset (b : BootData)
  /-- BOOT_ROM_RUN (R423). -/
  | bootRomRun (pass0 pass1 : Bool) (recovery : List Byte)
  /-- FIRMWARE_START (R518). -/
  | firmwareStart (stacksOk : BitVec 8)
  /-- PCIE_CONVENTIONAL_RESET (R450). -/
  | pcieConventionalReset (straps : BitVec 2)
  /-- FUNCTION_LEVEL_RESET (R459). -/
  | functionLevelReset
  /-- TRST_ASSERT (R548). -/
  | trstAssert
  /-- DISTRICT_RESET (R264). -/
  | districtReset (d : District) (xin xout : Nat)
  /-- PORT_RESET (R392). -/
  | portReset (port : Port)
  /-- WATCHDOG_EXPIRY (R444). -/
  | watchdogExpiry
  /-- MACHINE_CHECK (R444). -/
  | machineCheck
  /-- TILE_RESET (R66). -/
  | tileReset (p : PTile)
  /-- TILE_POWER_GATE (R66). -/
  | tilePowerGate (p : PTile)
  /-- TILE_POWER_UNGATE (R66). -/
  | tilePowerUngate (p : PTile)
  /-- STOP_AT_MERIDIAN_WRITE (R66). -/
  | stopAtMeridianWrite (p : PTile) (v : Bool)
  /-- CLK_RETUNE_WRITE (R254). -/
  | clkRetuneWrite (d : District) (v : Word)
  /-- CLK_REFUSED_CLEAR (R254). -/
  | clkRefusedClear (d : District)
  /-- CLK_MIN_SETTING_WRITE (R255). -/
  | clkMinSettingWrite (d : District) (v : BitVec 6)
  /-- FAB_EPOCH_REQUEST (R326). -/
  | fabEpochRequest (port : Port) (at_ : BitVec 48)
  /-- FAB_EPOCH_CANCEL (R326). -/
  | fabEpochCancel (port : Port) (refused : Bool)
  /-- FAB_EPOCH_REFUSED_CLEAR (R326). -/
  | fabEpochRefusedClear (port : Port)
  /-- CANCEL_ALL (R204). -/
  | cancelAll (d : District)
  /-- MQE_QCFG_WRITE (R214). -/
  | mqeQcfgWrite (d : District) (q : Fin 64) (v : Word)
  /-- STREAM_GRANT_WRITE (R346). -/
  | streamGrantWrite (n : Fin 16384) (v : Word)
  /-- STREAM_RESET_WRITE (R361). -/
  | streamResetWrite (n : Fin 16384)
  /-- COUNTER_ARM (R352). -/
  | counterArm (n : Fin 4096) (v : Word)
  /-- COUNTER_CLEAR (R352). -/
  | counterClear (n : Fin 4096)
  /-- LNK_TRAIN (R389). -/
  | lnkTrain (port : Port)
  /-- LNK_FORCE_DOWN (R389). -/
  | lnkForceDown (port : Port) (v : Bool)
  /-- LNK_QUARANTINE_WRITE (R381). -/
  | lnkQuarantineWrite (port : Port) (v : Bool)
  /-- LNK_GATE_WRITE (R381). -/
  | lnkGateWrite (port : Port) (v : Bool)
  /-- LANE_RETIRE_WRITE (R385). -/
  | laneRetireWrite (port : Port) (lane : BitVec 5)
  /-- NGT_SWITCH_REQ (R235). -/
  | ngtSwitchReq
  /-- NGT_CAPT_POP (R239). -/
  | ngtCaptPop (n : Fin 4)
  /-- NGT_TRIG_WRITE (R237). -/
  | ngtTrigWrite (n : Fin 4) (ctl : Bool) (v : Word)
  /-- NGT_NOW_READ (R221). -/
  | ngtNowRead (who : Ident) (half : Half)
  /-- SEC_ADVANCE_WRITE (R427). -/
  | secAdvanceWrite
  /-- RAS_LOG_POP (R521). -/
  | rasLogPop
  /-- RAS_CAPO_PEND_WRITE (R527). -/
  | rasCapoPendWrite (d : District) (v : Word)
  /-- DEV_RESET_WARM (R545). -/
  | devResetWarm (who : Ident) (key : BitVec 16) (b : BootData)
  /-- DEV_EVENT_MASK_WRITE (R451). -/
  | devEventMaskWrite (mask : BitVec 4)
  /-- MBX_SEND (R456). -/
  | mbxSend (who : Ident) (ch : Fin 64)
  /-- MBX_TAKE (R456). -/
  | mbxTake (who : Ident) (ch : Fin 64)
  /-- MBX_REPLY (R456). -/
  | mbxReply (who : Ident) (ch : Fin 64)
  /-- MBX_CONSUME (R456). -/
  | mbxConsume (who : Ident) (ch : Fin 64)
  /-- MBX_WIN_ACCESS (R456). -/
  | mbxWinAccess (who : Ident) (off : BitVec 12) (acc : WinAcc)
  /-- DBL_RING (R457). -/
  | dblRing (who : Ident) (ch : Fin 64) (v : BitVec 32)
  /-- DBL_STATUS_CLEAR (R457). -/
  | dblStatusClear (who : Ident) (ch : Fin 64) (v : BitVec 32)
  /-- DBL_MASK_WRITE (R457). -/
  | dblMaskWrite (who : Ident) (ch : Fin 64) (v : BitVec 32)
  /-- MBX_BIND_WRITE (R458). -/
  | mbxBindWrite (who : Ident) (ch : Fin 64) (v : Word)
  /-- MBX_SEAL_SET (R458). -/
  | mbxSealSet (who : Ident)
  /-- RC_REGISTER_READ (R8). -/
  | rcRegisterRead (who : Ident) (off : BitVec 28) (half : Half)
  /-- REGISTER_WRITE (R6). -/
  | registerWrite (who : Ident) (off : BitVec 28) (half : Half) (v : Word)
  /-- I2C_DEV_ID (R462). -/
  | i2cDevId
  /-- I2C_STATUS (R462). -/
  | i2cStatus
  /-- I2C_THERMAL (R462). -/
  | i2cThermal
  /-- I2C_POWER (R462). -/
  | i2cPower
  /-- I2C_MBX_SELECT (R462). -/
  | i2cMbxSelect (v : BitVec 8) (pecOk : Bool)
  /-- I2C_MBX_OFFSET (R462). -/
  | i2cMbxOffset (v : BitVec 16) (pecOk : Bool)
  /-- I2C_MBX_DATA (R462). -/
  | i2cMbxData (acc : WinAcc) (pecOk : Bool)
  /-- I2C_MBX_ACTION (R462). -/
  | i2cMbxAction (v : BitVec 8) (pecOk : Bool)
  /-- I2C_DOORBELL_READ (R462). -/
  | i2cDoorbellRead
  /-- I2C_DOORBELL_RING (R462). -/
  | i2cDoorbellRing (v : BitVec 32) (pecOk : Bool)
  /-- I2C_DOORBELL_CLEAR (R462). -/
  | i2cDoorbellClear (v : BitVec 32) (pecOk : Bool)
  /-- I2C_SIDE_RESET (R459). -/
  | i2cSideReset (v : BitVec 8) (pecOk : Bool)
  /-- SMBUS_ALERT_RESPONSE (R461). -/
  | smbusAlertResponse
  /-- DEV_INFO (R475). -/
  | devInfo (ch : Fin 64)
  /-- DEV_STATUS (R475). -/
  | devStatus (ch : Fin 64)
  /-- FAULT_LOG_READ (R475). -/
  | faultLogRead (ch : Fin 64)
  /-- FAULT_ACK (R475). -/
  | faultAck (ch : Fin 64)
  /-- TIME_ROLE_SET (R223). -/
  | timeRoleSet (ch : Fin 64)
  /-- TIME_STATUS (R475). -/
  | timeStatus (ch : Fin 64)
  /-- TRIG_SCHEDULE (R237). -/
  | trigSchedule (ch : Fin 64)
  /-- CAPT_READ (R239). -/
  | captRead (ch : Fin 64)
  /-- ALMANAC_LOAD (R400). -/
  | almanacLoad (ch : Fin 64) (host : List Byte)
  /-- ALMANAC_ACTIVATE (R401). -/
  | almanacActivate (ch : Fin 64)
  /-- DISCOVER_REPORT (R475). -/
  | discoverReport (ch : Fin 64)
  /-- PORT_OPEN (R406). -/
  | portOpen (ch : Fin 64)
  /-- PORT_CLOSE (R475). -/
  | portClose (ch : Fin 64)
  /-- PORT_DRAIN (R408). -/
  | portDrain (ch : Fin 64)
  /-- PROG_LOAD (R297). -/
  | progLoad (ch : Fin 64) (host : List Byte)
  /-- PROG_ARM (R476). -/
  | progArm (ch : Fin 64)
  /-- PROG_START (R409). -/
  | progStart (ch : Fin 64)
  /-- PROG_STOP (R475). -/
  | progStop (ch : Fin 64)
  /-- PROG_STATUS (R477). -/
  | progStatus (ch : Fin 64)
  /-- DETOUR_SELECT (R475). -/
  | detourSelect (ch : Fin 64)
  /-- EPOCH_FLIP (R475). -/
  | epochFlip (ch : Fin 64)
  /-- TRUST_ENROLL (R421). -/
  | trustEnroll (ch : Fin 64) (host : List Byte)
  /-- WEIGHT_MANIFEST_LOAD (R433). -/
  | weightManifestLoad (ch : Fin 64) (host : List Byte)
  /-- SHARD_FETCH (R434). -/
  | shardFetch (ch : Fin 64) (leaves : List (List Byte))
  /-- SHARD_SERVE (R437). -/
  | shardServe (ch : Fin 64)
  /-- SHARD_STATUS (R475). -/
  | shardStatus (ch : Fin 64)
  /-- REQ_SUBMIT (R480). -/
  | reqSubmit (ch : Fin 64)
  /-- REQ_STATUS (R478). -/
  | reqStatus (ch : Fin 64)
  /-- REQ_CANCEL (R483). -/
  | reqCancel (ch : Fin 64)
  /-- DMA_COPY (R475). -/
  | dmaCopy (ch : Fin 64)
  /-- MEM_SCRUB (R475). -/
  | memScrub (ch : Fin 64)
  /-- ENERGY_BUDGET_SET (R491). -/
  | energyBudgetSet (ch : Fin 64)
  /-- ENERGY_REPORT (R488). -/
  | energyReport (ch : Fin 64)
  /-- RETUNE_REQUEST (R475). -/
  | retuneRequest (ch : Fin 64)
  /-- REPAIR_STATUS (R475). -/
  | repairStatus (ch : Fin 64)
  /-- TILE_RETIRE (R526). -/
  | tileRetire (ch : Fin 64)
  /-- LANE_RETIRE (R385). -/
  | laneRetire (ch : Fin 64)
  /-- HBM_ROW_REPAIR (R210). -/
  | hbmRowRepair (ch : Fin 64)
  /-- STEWARD_SWITCHOVER (R444). -/
  | stewardSwitchover (ch : Fin 64)
  /-- LEDGER_AUDIT (R516). -/
  | ledgerAudit (ch : Fin 64)
  /-- TELEMETRY_READ (R484). -/
  | telemetryRead (ch : Fin 64)
  /-- TELEMETRY_STREAM (R484). -/
  | telemetryStream (ch : Fin 64)
  /-- TELEMETRY_RECORD (R484). -/
  | telemetryRecord (i : Nat) (g : Nat)
  /-- ATTEST (R429). -/
  | attest (ch : Fin 64)
  /-- FW_UPDATE_STAGE (R425). -/
  | fwUpdateStage (ch : Fin 64) (host : List Byte)
  /-- FW_UPDATE_COMMIT (R426). -/
  | fwUpdateCommit (ch : Fin 64)
  /-- DIAG_READ (R475). -/
  | diagRead (ch : Fin 64) (x : QExt)
  /-- DIAG_WRITE (R475). -/
  | diagWrite (ch : Fin 64) (x : QExt)
  /-- STRETCH_HISTORY_READ (R252). -/
  | stretchHistoryRead
  /-- PORT_DRAIN_TIMEOUT (R408). -/
  | portDrainTimeout (port : Port)
  /-- BULK_RESULT_EXPIRY (R472). -/
  | bulkResultExpiry (ch : Fin 64)
  /-- PCIE_LINK_UP (R446). -/
  | pcieLinkUp (speed : BitVec 4) (width : BitVec 6)
  /-- PCIE_CONFIG_WRITE (R450). -/
  | pcieConfigWrite (off : BitVec 12) (v : BitVec 32)
  /-- MSIX_VECTOR_UNMASK (R451). -/
  | msixVectorUnmask (vec : BitVec 6)
  /-- PORT_POWER_GATE (R389). -/
  | portPowerGate (port : Port) (on : Bool)
  /-- DISTRICT_POWER_GATE (R259). -/
  | districtPowerGate (d : District) (on : Bool) (xin xout : Nat)
  deriving DecidableEq, Repr

end Sys2Proof
end

