-- ==== Sys2Proof/Machine/Bundle.lean ====
section
/-!
DEFINITION. The bundle and slot encoding (05): decode of each slot to one operation, or the reason code of R125.
Reasons are found in the order 0x01, 0x02, 0x03, 0x04, 0x08, 0x05, 0x06, 0x07.
-/
namespace Sys2Proof.Machine

/-- A slot's decode: the operation, or the reason code it fails with (R125). -/
abbrev SlotDecode := Except Nat SlotOp

/-- The `len` bits at `lo` as a bit vector. -/
def fbv (w lo len : Nat) : BitVec len := BitVec.ofNat len (field w lo len)

/-- Fail with reason 0x05 if a bit of the `n`-bit operand part outside `allowed` is set, else go on. -/
def must0 (w allowed n : Nat) (k : SlotDecode) : SlotDecode :=
  if field w 0 n &&& (2 ^ n - 1 - allowed % 2 ^ n) ≠ 0 then .error 5 else k

/-- Ones from bit `lo` to bit `hi`. -/
def ones (hi lo : Nat) : Nat := 2 ^ (hi + 1) - 2 ^ lo

/-- The two-operand scalar operation of an opcode 0x01 to 0x12 (R128). -/
def aluOf : Nat → Option AluOp
  | 0x01 => some .add | 0x02 => some .sub | 0x03 => some .mul | 0x04 => some .mulhs | 0x05 => some .mulhu
  | 0x06 => some .and | 0x07 => some .or | 0x08 => some .xor | 0x09 => some .shl | 0x0A => some .shr
  | 0x0B => some .sra | 0x0C => some .min | 0x0D => some .max | 0x0E => some .minu | 0x0F => some .maxu
  | 0x10 => some .seq | 0x11 => some .slt | 0x12 => some .sltu
  | _ => none

/-- The C slot (R127, R128). -/
def decodeC (w : Nat) : SlotDecode :=
  let opc := field w 26 6
  let sd : BitVec 5 := fbv w 21 5
  let sa : BitVec 5 := fbv w 16 5
  let tgt : BitVec 13 := fbv w 0 13
  match aluOf opc with
  | some op => must0 w (ones 25 11) 26 (.ok (.alu op sd sa (.reg (fbv w 11 5))))
  | none =>
  match (if opc ≥ 0x20 then aluOf (opc - 0x20) else none) with
  | some op => .ok (.alu op sd sa (.imm (fbv w 0 16)))
  | none =>
  match opc with
  | 0x13 => must0 w (ones 25 21 + ones 19 0) 26 (.ok (.movi sd (fbv w 0 20)))
  | 0x14 => must0 w (ones 25 21 + ones 17 0) 26 (.ok (.movk sd (fbv w 16 2) (fbv w 0 16)))
  | 0x15 => must0 w (ones 25 21) 26 (.ok (.rdt sd))
  | 0x16 => must0 w (ones 25 21) 26 (.ok (.rdl sd))
  | 0x18 => must0 w (ones 12 0) 26 (.ok (.br tgt))
  | 0x19 => must0 w (ones 25 21 + ones 12 0) 26 (.ok (.bz sd tgt))
  | 0x1A => must0 w (ones 25 21 + ones 12 0) 26 (.ok (.bnz sd tgt))
  | 0x1B => must0 w (ones 25 21) 26 (.ok (.bri sd))
  | 0x1C => must0 w (ones 24 0) 26 (.ok (.loop (.imm (fbv w 13 12)) tgt))
  | 0x1D => must0 w (ones 25 21 + ones 12 0) 26 (.ok (.loop (.reg sd) tgt))
  | 0x1E => must0 w (ones 25 21) 26 (.ok (.pred sd))
  | 0x1F => must0 w 0 26 (.ok .tend)
  | _ => .error 4

/-- Element format codes (R129); 0xB to 0xF are reserved. -/
def elemOf : Nat → Option ElemFmt
  | 0 => some .e4m3 | 1 => some .e5m2 | 2 => some .int8 | 3 => some .mx8e4m3 | 4 => some .mx8e5m2
  | 5 => some .mx6e3m2 | 6 => some .mx6e2m3 | 7 => some .mx4 | 8 => some .int4 | 9 => some .bf16 | 10 => some .fp16
  | _ => none

/-- Sparsity codes (R129); 3 is reserved. -/
def sparsityOf : Nat → Option Sparsity
  | 0 => some .dense | 1 => some .s24 | 2 => some .s48
  | _ => none

/-- Legal (WF, SP) pairs: the rows of the latch image table (R130, R41). -/
def legalLatch : ElemFmt → Sparsity → Bool
  | _, .dense => true
  | .bf16, .s24 => false
  | .fp16, .s24 => false
  | _, .s24 => true
  | .e4m3, .s48 => true
  | .e5m2, .s48 => true
  | .int8, .s48 => true
  | _, .s48 => false

/-- Class of a format within R73: formats of one class may meet in one pass. -/
def pairClass : ElemFmt → Nat
  | .e4m3 => 0 | .e5m2 => 0
  | .mx8e4m3 => 1 | .mx8e5m2 => 1 | .mx6e3m2 => 1 | .mx6e2m3 => 1
  | .mx4 => 2 | .int8 => 3 | .int4 => 4 | .bf16 => 5 | .fp16 => 6

/-- Accepted (AF, WF) pairs (R73, R134). -/
def legalPair (af wf : ElemFmt) : Bool := pairClass af == pairClass wf

/-- Access sizes (R131). -/
def sizeOf : Nat → MemSize
  | 0 => .b1 | 1 => .b2 | 2 => .b4 | _ => .b8

/-- The L slot (R131). -/
def decodeL (w : Nat) : SlotDecode :=
  match field w 35 5 with
  | 1 => .ok (.ldv (fbv w 29 6) (fbv w 24 5) (fbv w 0 24))
  | 2 => .ok (.lds (fbv w 30 5) (fbv w 25 5) (sizeOf (field w 23 2)) (bit w 22) (fbv w 0 22))
  | 3 => .ok (.stv (fbv w 29 6) (fbv w 24 5) (fbv w 0 24))
  | 4 => must0 w (ones 34 23 + ones 21 0) 35 (.ok (.sts (fbv w 30 5) (fbv w 25 5) (sizeOf (field w 23 2)) (fbv w 0 22)))
  | 5 =>
    match elemOf (field w 28 4), sparsityOf (field w 32 2) with
    | some wf, some sp =>
      if legalLatch wf sp then .ok (.ldw (fbv w 34 1) sp wf (fbv w 23 5) (fbv w 0 23)) else .error 7
    | _, _ => .error 6
  | _ => .error 4

/-- The X slot (R132). -/
def decodeX (w : Nat) : SlotDecode :=
  match field w 35 5 with
  | 1 => must0 w (ones 34 15) 35 (.ok (.send (fbv w 29 6) (fbv w 24 5) (fbv w 19 5) (fbv w 15 4)))
  | 2 => must0 w (ones 34 14) 35 (.ok (.recv (fbv w 29 6) (fbv w 23 6) (fbv w 18 5) (fbv w 14 4)))
  | 3 => .ok (.ldqv (fbv w 29 6) (fbv w 24 5) (fbv w 19 5) (fbv w 0 19))
  | 4 => must0 w (ones 34 14) 35 (.ok (.ldqt (fbv w 29 6) (fbv w 24 5) (fbv w 19 5) (fbv w 14 5)))
  | 5 => must0 w (ones 34 15) 35 (.ok (.ldqi (fbv w 29 6) (fbv w 25 4) (fbv w 20 5) (fbv w 15 5)))
  | 6 => .ok (.stqv (fbv w 29 6) (fbv w 23 6) (fbv w 18 5) (fbv w 13 5) (fbv w 0 13))
  | 7 => must0 w (ones 34 14) 35 (.ok (.stqt (fbv w 29 6) (fbv w 24 5) (fbv w 19 5) (fbv w 14 5)))
  | 8 => must0 w (ones 34 30) 35 (.ok (.qwait (.mask (fbv w 30 5))))
  | 9 => must0 w (ones 34 29) 35 (.ok (.qwait (.tag (fbv w 29 6))))
  | 10 => must0 w (ones 34 23) 35 (.ok (.qpop (fbv w 29 6) (fbv w 23 6)))
  | _ => .error 4

/-- MMA and MMAS (R133, R134). -/
def decodeMma (sparse : Bool) (w : Nat) : SlotDecode :=
  must0 w (ones 43 8) 44 <|
  match elemOf (field w 21 4), elemOf (field w 17 4), sparsityOf (field w 15 2) with
  | some af, some wf, some sp =>
    if h : field w 12 3 < 5 then
      let a : MmaArgs := { set := fbv w 41 3, va := fbv w 35 6, row := fbv w 31 4, sx := fbv w 26 5, w := fbv w 25 1,
                           af := af, wf := wf, sp := sp, kq := ⟨field w 12 3, h⟩, pm := fbv w 8 4 }
      if (sp == .dense) == sparse || !legalLatch wf sp || !legalPair af wf then .error 7
      else .ok (if sparse then .mmas a else .mma a)
    else .error 6
  | _, _, _ => .error 6

/-- Readout format codes (R135). -/
def readFmtOf : Nat → Option ReadFmt
  | 0 => some .fp32 | 1 => some .bf16 | 2 => some .fp16 | 3 => some .e4m3 | 4 => some .e5m2
  | _ => none

/-- The M slot (R133 to R135). -/
def decodeM (w : Nat) : SlotDecode :=
  match field w 44 4 with
  | 1 => decodeMma false w
  | 2 => decodeMma true w
  | 3 =>
    must0 w (ones 43 28 + (if bit w 28 then ones 27 23 else 0) + ones 22 17) 44 <|
    match readFmtOf (field w 32 3) with
    | some rf => .ok (.acrd { set := fbv w 41 3, vd := fbv w 35 6, rf := rf, h := fbv w 29 3, stochastic := bit w 28,
                              ss := fbv w 23 5, satf := bit w 22, clr := bit w 21, pf := fbv w 17 4 })
    | none => .error 6
  | 4 => must0 w (ones 43 31) 44 (.ok (.acset (fbv w 41 3) (.imm (fbv w 31 10))))
  | 5 => must0 w (ones 43 36) 44 (.ok (.acset (fbv w 41 3) (.reg (fbv w 36 5))))
  | _ => .error 4

/-- Lane types (R136). -/
def laneTyOf : Nat → Option LaneTy
  | 0 => some .f32 | 1 => some .bf16 | 2 => some .f16 | 3 => some .i32 | 4 => some .i16 | 5 => some .i8
  | _ => none

/-- Whether a lane type is a float. -/
def LaneTyIsFloat : LaneTy → Bool
  | .f32 => true | .bf16 => true | .f16 => true | _ => false

/-- Lanes per register of a type (R90). -/
def laneCount : LaneTy → Nat
  | .f32 => 256 | .i32 => 256 | .bf16 => 512 | .f16 => 512 | .i16 => 512 | .i8 => 1024

/-- The types a base-layout operation allows (R137). -/
inductive TyRule where
  | all | float | int | f32only
  deriving DecidableEq, Repr

/-- Whether a rule allows a type. -/
def TyRule.ok : TyRule → LaneTy → Bool
  | .all, _ => true
  | .float, t => LaneTyIsFloat t
  | .int, t => !LaneTyIsFloat t
  | .f32only, t => t == .f32

/-- When U may be 1 (R137). -/
inductive URule where
  | no | yes | intOnly
  deriving DecidableEq, Repr

/-- The checks every base-layout operation shares: bits that must be 0, the type code, the type rule, the U rule. -/
def vBase (slot : VSlot) (w fields : Nat) (rule : TyRule) (z : Bool) (u : URule) (uOk : Bool)
    (k : VArgs → SlotDecode) : SlotDecode :=
  let allowed := ones 33 31 + fields + (if z then ones 30 30 else 0) + (if u = .no then 0 else ones 1 1)
  must0 w allowed 34 <|
  match laneTyOf (field w 31 3) with
  | none => .error 6
  | some ty =>
    let a : VArgs := { slot := slot, ty := ty, z := bit w 30, pm := fbv w 26 4, vd := fbv w 20 6, va := fbv w 14 6,
                       vb := fbv w 8 6, vc := fbv w 2 6, u := bit w 1 }
    match k a with
    | .error 6 => .error 6
    | r =>
      if !rule.ok ty then .error 7
      else if a.u && u == .intOnly && !(uOk && !LaneTyIsFloat ty) then .error 7
      else r

/-- Register-field masks of the base layout (R136). -/
def fVD : Nat := ones 25 20
/-- First source field. -/
def fVA : Nat := ones 19 14
/-- Second source field. -/
def fVB : Nat := ones 13 8
/-- Third source field. -/
def fVC : Nat := ones 7 2
/-- Predicate field. -/
def fPM : Nat := ones 29 26

/-- A base-layout lane-wise operation of two sources. -/
def vBin (slot : VSlot) (w : Nat) (op : VBinOp) (rule : TyRule) (u : URule) : SlotDecode :=
  vBase slot w (fVD + fVA + fVB + fPM) rule true u true fun a => .ok (.vbin op a)

/-- A base-layout lane-wise operation of one source. -/
def vUn (slot : VSlot) (w : Nat) (op : VUnOp) (rule : TyRule) : SlotDecode :=
  vBase slot w (fVD + fVA + fPM) rule true .no true fun a => .ok (.vun op a)

/-- Condition codes of VCMP (R137). -/
def condOf : Nat → Option Cond
  | 0 => some .eq | 1 => some .ne | 2 => some .lt | 3 => some .le | 4 => some .gt | 5 => some .ge
  | _ => none

/-- Operators of VRED (R137). -/
def redOf : Nat → Option RedOp
  | 0 => some .sum | 1 => some .max | 2 => some .min
  | _ => none

/-- VCVT types (R138). -/
def cvtTyOf : Nat → Option CvtTy
  | 0 => some .f32 | 1 => some .bf16 | 2 => some .f16 | 3 => some .i32 | 4 => some .i8 | 5 => some .i4
  | 6 => some .e4m3 | 7 => some .e5m2
  | _ => none

/-- Kinds of VCVT pair (R139). -/
inductive CvtKind where
  | widen | narrow | toInt | fromInt
  deriving DecidableEq, Repr

/-- The kind of a (STY, DTY) pair, none where the pair is not one of R139. -/
def cvtKind : CvtTy → CvtTy → Option CvtKind
  | .bf16, .f32 => some .widen | .f16, .f32 => some .widen
  | .e4m3, .f32 => some .widen | .e4m3, .bf16 => some .widen | .e4m3, .f16 => some .widen
  | .e5m2, .f32 => some .widen | .e5m2, .bf16 => some .widen | .e5m2, .f16 => some .widen
  | .f32, .bf16 => some .narrow | .f32, .f16 => some .narrow | .f32, .e4m3 => some .narrow | .f32, .e5m2 => some .narrow
  | .bf16, .f16 => some .narrow | .bf16, .e4m3 => some .narrow | .bf16, .e5m2 => some .narrow
  | .f16, .bf16 => some .narrow | .f16, .e4m3 => some .narrow | .f16, .e5m2 => some .narrow
  | .i32, .f32 => some .fromInt | .i32, .bf16 => some .fromInt | .i32, .f16 => some .fromInt
  | .i8, .f32 => some .fromInt | .i8, .bf16 => some .fromInt | .i8, .f16 => some .fromInt
  | .i4, .f32 => some .fromInt | .i4, .bf16 => some .fromInt | .i4, .f16 => some .fromInt
  | s, d => if (s = .f32 ∨ s = .bf16 ∨ s = .f16 ∨ s = .e4m3 ∨ s = .e5m2) ∧ (d = .i32 ∨ d = .i8 ∨ d = .i4)
            then some .toInt else none

/-- VCVT (R138, R139): RM or SATF outside a narrowing pair fails with 0x05, whatever the pair. -/
def decodeCvt (slot : VSlot) (w : Nat) : SlotDecode :=
  let s? := cvtTyOf (field w 30 4)
  let d? := cvtTyOf (field w 26 4)
  let kind := match s?, d? with
    | some s, some d => cvtKind s d
    | _, _ => none
  let rm := bit w 6
  if (!rm && field w 0 5 ≠ 0) || (kind != some .narrow && (rm || bit w 5)) then .error 5
  else match s?, d?, kind with
    | some s, some d, some _ =>
      .ok (.vcvt { slot := slot, sty := s, dty := d, pm := fbv w 22 4, vd := fbv w 16 6, va := fbv w 10 6,
                   h := fbv w 7 3, stochastic := rm, satf := bit w 5, ss := fbv w 0 5 })
    | some _, some _, none => .error 7
    | _, _, _ => .error 6

/-- Element formats of VQMX (R140). -/
def mxOf : Nat → Option MxFmt
  | 0 => some .e4m3 | 1 => some .e5m2 | 2 => some .e3m2 | 3 => some .e2m3 | 4 => some .e2m1
  | _ => none

/-- VQMX and VQMXC (R140). -/
def decodeQmx (slot : VSlot) (w : Nat) (k : QmxArgs → SlotOp) : SlotDecode :=
  must0 w (ones 33 5) 34 <|
  match mxOf (field w 31 3) with
  | some ef => .ok (k { slot := slot, ef := ef, rlLong := bit w 30, pm := fbv w 26 4, vd := fbv w 20 6,
                        va := fbv w 14 6, sd := fbv w 9 5, row := fbv w 5 4 })
  | none => .error 6

/-- A V slot (R136 to R140). -/
def decodeV (slot : VSlot) (w : Nat) : SlotDecode :=
  match field w 34 6 with
  | 0x01 => vBin slot w .vadd .all .no
  | 0x02 => vBin slot w .vsub .all .no
  | 0x03 => vBin slot w .vmul .all .no
  | 0x04 => vBin slot w .vadds .int .yes
  | 0x05 => vBin slot w .vsubs .int .yes
  | 0x06 => vBase slot w (fVD + fVA + fVB + fVC + fPM) .float true .no true fun a => .ok (.vfma a)
  | 0x07 => vBin slot w .vmin .all .intOnly
  | 0x08 => vBin slot w .vmax .all .intOnly
  | 0x09 => vUn slot w .vabs .all
  | 0x0A => vUn slot w .vneg .all
  | 0x0B => vBin slot w .vand .all .no
  | 0x0C => vBin slot w .vor .all .no
  | 0x0D => vBin slot w .vxor .all .no
  | 0x0E => vUn slot w .vnot .all
  | 0x0F => vBin slot w .vshl .int .no
  | 0x10 => vBin slot w .vshr .int .no
  | 0x11 => vBin slot w .vsra .int .no
  | 0x12 => vBase slot w (ones 23 20 + fVA + fVB + fPM + ones 4 2) .all false .no true fun a =>
      match condOf (field w 2 3) with
      | some c => .ok (.vcmp slot a.ty a.pm (fbv w 20 4) a.va a.vb c)
      | none => .error 6
  | 0x13 => vBase slot w (fVD + fVA + fVB + fPM) .all false .no true fun a => .ok (.vsel a)
  | 0x14 => vUn slot w .vmov .all
  | 0x15 => vBase slot w (fVD + fPM + ones 18 14) .all true .no true fun a => .ok (.vbcast { a with va := 0 } (fbv w 14 5))
  | 0x16 => vBase slot w (ones 24 20 + fVA + ones 12 8) .all false .no true fun a =>
      .ok (.vext slot a.ty (fbv w 20 5) a.va (fbv w 8 5))
  | 0x17 => vBase slot w (fVD + fVA + fVB + fPM) .all true .no true fun a => .ok (.vperm a)
  | 0x18 => vBase slot w (fVD + fVA + fPM + ones 13 12 + ones 11 9) .all false .intOnly (field w 12 2 != 0) fun a =>
      match redOf (field w 12 2) with
      | none => .error 6
      | some op => if 8 * 2 ^ field w 9 3 > laneCount a.ty then .error 7 else .ok (.vred { a with vb := 0 } op (fbv w 9 3))
  | 0x20 => vBase slot w (ones 23 20 + ones 17 14 + ones 11 8) .f32only false .no true fun _ =>
      .ok (.pbin .pand slot (fbv w 20 4) (fbv w 14 4) (fbv w 8 4))
  | 0x21 => vBase slot w (ones 23 20 + ones 17 14 + ones 11 8) .f32only false .no true fun _ =>
      .ok (.pbin .por slot (fbv w 20 4) (fbv w 14 4) (fbv w 8 4))
  | 0x22 => vBase slot w (ones 23 20 + ones 17 14 + ones 11 8) .f32only false .no true fun _ =>
      .ok (.pbin .pxor slot (fbv w 20 4) (fbv w 14 4) (fbv w 8 4))
  | 0x23 => vBase slot w (ones 23 20 + ones 17 14) .f32only false .no true fun _ =>
      .ok (.pnot slot (fbv w 20 4) (fbv w 14 4))
  | 0x24 => vBase slot w (ones 24 20 + ones 17 14) .f32only false .no true fun _ =>
      .ok (.ppop slot (fbv w 20 5) (fbv w 14 4))
  | 0x28 => decodeCvt slot w
  | 0x29 => decodeQmx slot w .vqmx
  | 0x2A => decodeQmx slot w .vqmxc
  | 0x30 => vUn slot w .vexp .float
  | 0x31 => vUn slot w .vexp2 .float
  | 0x32 => vUn slot w .vlog2 .float
  | 0x33 => vUn slot w .vrcp .float
  | 0x34 => vUn slot w .vrsqrt .float
  | 0x35 => vUn slot w .vtanh .float
  | 0x36 => vUn slot w .vsigm .float
  | 0x38 =>
    if slot = .v1 then .error 8
    else vBase slot w (fVD + fVA + fPM + ones 11 8) .f32only false .no true fun a =>
      if h : field w 8 4 < 9 then .ok (.gate a.pm a.vd a.va ⟨field w 8 4, h⟩) else .error 6
  | 0x39 =>
    if slot = .v1 then .error 8
    else vBase slot w (fVD + fVA + ones 12 8) .f32only false .no true fun a => .ok (.gpack a.vd a.va (fbv w 8 5))
  | _ => .error 4

/-- A part of a bundle that fails the decode check: slot number (6 header), reason, the bits of the part. -/
structure DecodeFail where
  slot : Slot
  reason : Nat
  bits : Nat
  deriving DecidableEq, Repr

/-- The decode of one slot of a bundle: nothing, an operation, or a failure (R122, R124). -/
inductive PartDecode where
  | empty
  | op (o : SlotOp)
  | fail (f : DecodeFail)
  deriving DecidableEq, Repr

/-- Decode one slot under its enable bit; an unchecked slot (TP = 0, R124) yields nothing. -/
def decodePart (s : Slot) (enabled check : Bool) (raw : Nat) (dec : Nat → SlotDecode) : PartDecode :=
  if !check then .empty
  else if enabled then
    match dec raw with
    | .ok o => .op o
    | .error r => .fail ⟨s, r, raw⟩
  else if raw ≠ 0 then .fail ⟨s, 3, raw⟩ else .empty

/-- The header's failure, if any (R122, R125). -/
def decodeHeader (h : Nat) : PartDecode :=
  if field h 14 2 ≠ 2 then .fail ⟨.bundle, 1, h⟩
  else if field h 6 8 ≠ 0 then .fail ⟨.bundle, 2, h⟩ else .empty

/-- The parts of a bundle in the order header, C, L, X, M, V0, V1 (R120, R124, R125); `tp` is the transit predicate. -/
def decodeBundle (tp : Bool) (b : Nat) : List (Slot × PartDecode) :=
  let h := field b 0 16
  [(.bundle, decodeHeader h),
   (.c, decodePart .c (bit h 0) true (field b 16 32) decodeC),
   (.l, decodePart .l (bit h 1) true (field b 48 40) decodeL),
   (.x, decodePart .x (bit h 2) true (field b 88 40) decodeX),
   (.m, decodePart .m (bit h 3) tp (field b 128 48) decodeM),
   (.v0, decodePart .v0 (bit h 4) tp (field b 176 40) (decodeV .v0)),
   (.v1, decodePart .v1 (bit h 5) tp (field b 216 40) (decodeV .v1))]

/-- The failing parts, in order. -/
def decodeFails (ps : List (Slot × PartDecode)) : List DecodeFail :=
  ps.filterMap fun p => match p.2 with
    | .fail f => some f
    | _ => none

/-- The operations of a bundle that passed, in slot order. -/
def decodeOps (ps : List (Slot × PartDecode)) : List (Slot × SlotOp) :=
  ps.filterMap fun p => match p.2 with
    | .op o => some (p.1, o)
    | _ => none

/-- M, V0 and V1 operations enabled in a bundle: while TP = 0 they issue as no-ops (R116, R185). -/
def enabledMV (b : Nat) : Nat := b2n (bit b 3) + b2n (bit b 4) + b2n (bit b 5)

end Sys2Proof.Machine
end

