-- ==== Sys2Proof/Machine/Encode.lean ====
section
/-!
DEFINITION. The bits that spell one operation in its slot (05, R127 to R141), and whether the decode check of R125 accepts
them: an operation whose operands no encoding admits fails that check as the same bits would in a bundle.
-/
namespace Sys2Proof.Machine

/-- A value placed at bit `lo`. -/
def at_ {n : Nat} (lo : Nat) (v : BitVec n) : Nat := v.toNat * 2 ^ lo

/-- Opcode of a two-operand scalar operation (R128). -/
def aluCode : AluOp → Nat
  | .add => 0x01 | .sub => 0x02 | .mul => 0x03 | .mulhs => 0x04 | .mulhu => 0x05 | .and => 0x06 | .or => 0x07
  | .xor => 0x08 | .shl => 0x09 | .shr => 0x0A | .sra => 0x0B | .min => 0x0C | .max => 0x0D | .minu => 0x0E
  | .maxu => 0x0F | .seq => 0x10 | .slt => 0x11 | .sltu => 0x12

/-- Element format codes (R129). -/
def elemCode : ElemFmt → Nat
  | .e4m3 => 0 | .e5m2 => 1 | .int8 => 2 | .mx8e4m3 => 3 | .mx8e5m2 => 4 | .mx6e3m2 => 5 | .mx6e2m3 => 6 | .mx4 => 7
  | .int4 => 8 | .bf16 => 9 | .fp16 => 10

/-- Sparsity codes (R129). -/
def sparsityCode : Sparsity → Nat
  | .dense => 0 | .s24 => 1 | .s48 => 2

/-- Access size codes (R131). -/
def sizeCode : MemSize → Nat
  | .b1 => 0 | .b2 => 1 | .b4 => 2 | .b8 => 3

/-- Readout format codes (R135). -/
def readFmtCode : ReadFmt → Nat
  | .fp32 => 0 | .bf16 => 1 | .fp16 => 2 | .e4m3 => 3 | .e5m2 => 4

/-- Lane type codes (R136). -/
def laneTyCode : LaneTy → Nat
  | .f32 => 0 | .bf16 => 1 | .f16 => 2 | .i32 => 3 | .i16 => 4 | .i8 => 5

/-- Condition codes (R137). -/
def condCode : Cond → Nat
  | .eq => 0 | .ne => 1 | .lt => 2 | .le => 3 | .gt => 4 | .ge => 5

/-- Reduction codes (R137). -/
def redCode : RedOp → Nat
  | .sum => 0 | .max => 1 | .min => 2

/-- VCVT type codes (R138). -/
def cvtTyCode : CvtTy → Nat
  | .f32 => 0 | .bf16 => 1 | .f16 => 2 | .i32 => 3 | .i8 => 4 | .i4 => 5 | .e4m3 => 6 | .e5m2 => 7

/-- VQMX format codes (R140). -/
def mxCode : MxFmt → Nat
  | .e4m3 => 0 | .e5m2 => 1 | .e3m2 => 2 | .e2m3 => 3 | .e2m1 => 4

/-- Opcodes of the lane-wise two-source operations (R137). -/
def vbinCode : VBinOp → Nat
  | .vadd => 0x01 | .vsub => 0x02 | .vmul => 0x03 | .vadds => 0x04 | .vsubs => 0x05 | .vmin => 0x07 | .vmax => 0x08
  | .vand => 0x0B | .vor => 0x0C | .vxor => 0x0D | .vshl => 0x0F | .vshr => 0x10 | .vsra => 0x11

/-- Opcodes of the lane-wise one-source operations (R137). -/
def vunCode : VUnOp → Nat
  | .vabs => 0x09 | .vneg => 0x0A | .vnot => 0x0E | .vmov => 0x14 | .vexp => 0x30 | .vexp2 => 0x31 | .vlog2 => 0x32
  | .vrcp => 0x33 | .vrsqrt => 0x34 | .vtanh => 0x35 | .vsigm => 0x36

/-- Opcodes of the predicate operations (R137). -/
def pbinCode : PredOp → Nat
  | .pand => 0x20 | .por => 0x21 | .pxor => 0x22

/-- The base V-slot layout (R136). -/
def vBits (opc : Nat) (a : VArgs) : Nat :=
  opc * 2 ^ 34 + laneTyCode a.ty * 2 ^ 31 + b2n a.z * 2 ^ 30 + at_ 26 a.pm + at_ 20 a.vd + at_ 14 a.va + at_ 8 a.vb +
  at_ 2 a.vc + b2n a.u * 2

/-- MMA and MMAS (R133). -/
def mmaBits (opc : Nat) (a : MmaArgs) : Nat :=
  opc * 2 ^ 44 + at_ 41 a.set + at_ 35 a.va + at_ 31 a.row + at_ 26 a.sx + at_ 25 a.w + elemCode a.af * 2 ^ 21 +
  elemCode a.wf * 2 ^ 17 + sparsityCode a.sp * 2 ^ 15 + a.kq.val * 2 ^ 12 + at_ 8 a.pm

/-- VQMX and VQMXC (R140). -/
def qmxBits (opc : Nat) (a : QmxArgs) : Nat :=
  opc * 2 ^ 34 + mxCode a.ef * 2 ^ 31 + b2n a.rlLong * 2 ^ 30 + at_ 26 a.pm + at_ 20 a.vd + at_ 14 a.va + at_ 9 a.sd +
  at_ 5 a.row

/-- The bits of an operation in its slot. -/
def opBits : SlotOp → Nat
  | .alu op sd sa (.reg sb) => aluCode op * 2 ^ 26 + at_ 21 sd + at_ 16 sa + at_ 11 sb
  | .alu op sd sa (.imm i) => (aluCode op + 0x20) * 2 ^ 26 + at_ 21 sd + at_ 16 sa + at_ 0 i
  | .movi sd i => 0x13 * 2 ^ 26 + at_ 21 sd + at_ 0 i
  | .movk sd h i => 0x14 * 2 ^ 26 + at_ 21 sd + at_ 16 h + at_ 0 i
  | .rdt sd => 0x15 * 2 ^ 26 + at_ 21 sd
  | .rdl sd => 0x16 * 2 ^ 26 + at_ 21 sd
  | .br t => 0x18 * 2 ^ 26 + at_ 0 t
  | .bz ss t => 0x19 * 2 ^ 26 + at_ 21 ss + at_ 0 t
  | .bnz ss t => 0x1A * 2 ^ 26 + at_ 21 ss + at_ 0 t
  | .bri ss => 0x1B * 2 ^ 26 + at_ 21 ss
  | .loop (.imm c) e => 0x1C * 2 ^ 26 + at_ 13 c + at_ 0 e
  | .loop (.reg ss) e => 0x1D * 2 ^ 26 + at_ 21 ss + at_ 0 e
  | .pred ss => 0x1E * 2 ^ 26 + at_ 21 ss
  | .tend => 0x1F * 2 ^ 26
  | .ldv vd ss i => 1 * 2 ^ 35 + at_ 29 vd + at_ 24 ss + at_ 0 i
  | .lds sd ss size sg i => 2 * 2 ^ 35 + at_ 30 sd + at_ 25 ss + sizeCode size * 2 ^ 23 + b2n sg * 2 ^ 22 + at_ 0 i
  | .stv vs ss i => 3 * 2 ^ 35 + at_ 29 vs + at_ 24 ss + at_ 0 i
  | .sts sa ss size i => 4 * 2 ^ 35 + at_ 30 sa + at_ 25 ss + sizeCode size * 2 ^ 23 + at_ 0 i
  | .ldw w sp wf ss i =>
    5 * 2 ^ 35 + at_ 34 w + sparsityCode sp * 2 ^ 32 + elemCode wf * 2 ^ 28 + at_ 23 ss + at_ 0 i
  | .send vs ob fo n => 1 * 2 ^ 35 + at_ 29 vs + at_ 24 ob + at_ 19 fo + at_ 15 n
  | .recv vd ib fo n => 2 * 2 ^ 35 + at_ 29 vd + at_ 23 ib + at_ 18 fo + at_ 14 n
  | .ldqv tag ss n i => 3 * 2 ^ 35 + at_ 29 tag + at_ 24 ss + at_ 19 n + at_ 0 i
  | .ldqt tag st sm sl => 4 * 2 ^ 35 + at_ 29 tag + at_ 24 st + at_ 19 sm + at_ 14 sl
  | .ldqi tag first cnt so => 5 * 2 ^ 35 + at_ 29 tag + at_ 25 first + at_ 20 cnt + at_ 15 so
  | .stqv tag vs ss n i => 6 * 2 ^ 35 + at_ 29 tag + at_ 23 vs + at_ 18 ss + at_ 13 n + at_ 0 i
  | .stqt tag st sm sl => 7 * 2 ^ 35 + at_ 29 tag + at_ 24 st + at_ 19 sm + at_ 14 sl
  | .qwait (.mask ss) => 8 * 2 ^ 35 + at_ 30 ss
  | .qwait (.tag t) => 9 * 2 ^ 35 + at_ 29 t
  | .qpop vd tag => 10 * 2 ^ 35 + at_ 29 vd + at_ 23 tag
  | .mma a => mmaBits 1 a
  | .mmas a => mmaBits 2 a
  | .acrd a => 3 * 2 ^ 44 + at_ 41 a.set + at_ 35 a.vd + readFmtCode a.rf * 2 ^ 32 + at_ 29 a.h + b2n a.stochastic * 2 ^ 28 +
      at_ 23 a.ss + b2n a.satf * 2 ^ 22 + b2n a.clr * 2 ^ 21 + at_ 17 a.pf
  | .acset set (.imm x) => 4 * 2 ^ 44 + at_ 41 set + at_ 31 x
  | .acset set (.reg ss) => 5 * 2 ^ 44 + at_ 41 set + at_ 36 ss
  | .vbin op a => vBits (vbinCode op) a
  | .vun op a => vBits (vunCode op) a
  | .vfma a => vBits 0x06 a
  | .vcmp _ ty pm pd va vb c =>
      0x12 * 2 ^ 34 + laneTyCode ty * 2 ^ 31 + at_ 26 pm + at_ 20 pd + at_ 14 va + at_ 8 vb + condCode c * 2 ^ 2
  | .vsel a => vBits 0x13 a
  | .vbcast a ss => vBits 0x15 { a with va := 0 } + at_ 14 ss
  | .vext _ ty sd va ss => 0x16 * 2 ^ 34 + laneTyCode ty * 2 ^ 31 + at_ 20 sd + at_ 14 va + at_ 8 ss
  | .vperm a => vBits 0x17 a
  | .vred a op g => vBits 0x18 { a with vb := 0 } + redCode op * 2 ^ 12 + at_ 9 g
  | .pbin op _ pd pa pb => pbinCode op * 2 ^ 34 + at_ 20 pd + at_ 14 pa + at_ 8 pb
  | .pnot _ pd pa => 0x23 * 2 ^ 34 + at_ 20 pd + at_ 14 pa
  | .ppop _ sd pa => 0x24 * 2 ^ 34 + at_ 20 sd + at_ 14 pa
  | .vcvt a => 0x28 * 2 ^ 34 + cvtTyCode a.sty * 2 ^ 30 + cvtTyCode a.dty * 2 ^ 26 + at_ 22 a.pm + at_ 16 a.vd +
      at_ 10 a.va + at_ 7 a.h + b2n a.stochastic * 2 ^ 6 + b2n a.satf * 2 ^ 5 + at_ 0 a.ss
  | .vqmx a => qmxBits 0x29 a
  | .vqmxc a => qmxBits 0x2A a
  | .gate pm vd va k => 0x38 * 2 ^ 34 + at_ 26 pm + at_ 20 vd + at_ 14 va + k.val * 2 ^ 8
  | .gpack vd va ss => 0x39 * 2 ^ 34 + at_ 20 vd + at_ 14 va + at_ 8 ss

/-- The slot of a vector operation. -/
def vslot : VSlot → Slot
  | .v0 => .v0
  | .v1 => .v1

/-- The slot an operation is encoded in (R120). -/
def slotOf : SlotOp → Slot
  | .alu .. | .movi .. | .movk .. | .rdt _ | .rdl _ | .br _ | .bz .. | .bnz .. | .bri _ | .loop .. | .pred _ | .tend => .c
  | .ldv .. | .lds .. | .stv .. | .sts .. | .ldw .. => .l
  | .send .. | .recv .. | .ldqv .. | .ldqt .. | .ldqi .. | .stqv .. | .stqt .. | .qwait _ | .qpop .. => .x
  | .mma _ | .mmas _ | .acrd _ | .acset .. => .m
  | .vbin _ a | .vun _ a | .vfma a | .vsel a | .vbcast a _ | .vperm a | .vred a _ _ => vslot a.slot
  | .vcmp s .. | .vext s .. | .pbin _ s .. | .pnot s .. | .ppop s .. => vslot s
  | .vcvt a => vslot a.slot
  | .vqmx a | .vqmxc a => vslot a.slot
  | .gate .. | .gpack .. => .v0

/-- Decode of the bits of one slot. -/
def decodeSlot (s : Slot) (w : Nat) : SlotDecode :=
  match s with
  | .c => decodeC w | .l => decodeL w | .x => decodeX w | .m => decodeM w
  | .v0 => decodeV .v0 w | .v1 => decodeV .v1 w | .bundle => .error 1

/-- The failure the decode check finds in an operation's bits, if any (R125). -/
def opFail (op : SlotOp) : Option DecodeFail :=
  match decodeSlot (slotOf op) (opBits op) with
  | .ok _ => none
  | .error r => some ⟨slotOf op, r, opBits op⟩

end Sys2Proof.Machine
end

