-- ==== Sys2Proof/WellFormed.lean ====
section
/-!
DEFINITION. Which commands are well formed: a single operation of a tile is one that some encoding of 05 spells and the decode
check of R125 accepts; the data an event carries has the shape the spec gives it.
-/
namespace Sys2Proof

/-- The tile and the operation of a command that issues one operation (02, 04). -/
def Instr.slotOp (i : Instr) : Option (PTile × SlotOp) :=
  match i with
  | .add_ p sd sa b => some (p, .alu .add sd sa b)
  | .sub_ p sd sa b => some (p, .alu .sub sd sa b)
  | .mul_ p sd sa b => some (p, .alu .mul sd sa b)
  | .mulhs p sd sa b => some (p, .alu .mulhs sd sa b)
  | .mulhu p sd sa b => some (p, .alu .mulhu sd sa b)
  | .and_ p sd sa b => some (p, .alu .and sd sa b)
  | .or_ p sd sa b => some (p, .alu .or sd sa b)
  | .xor_ p sd sa b => some (p, .alu .xor sd sa b)
  | .shl p sd sa b => some (p, .alu .shl sd sa b)
  | .shr p sd sa b => some (p, .alu .shr sd sa b)
  | .sra p sd sa b => some (p, .alu .sra sd sa b)
  | .min_ p sd sa b => some (p, .alu .min sd sa b)
  | .max_ p sd sa b => some (p, .alu .max sd sa b)
  | .minu p sd sa b => some (p, .alu .minu sd sa b)
  | .maxu p sd sa b => some (p, .alu .maxu sd sa b)
  | .seq_ p sd sa b => some (p, .alu .seq sd sa b)
  | .slt p sd sa b => some (p, .alu .slt sd sa b)
  | .sltu p sd sa b => some (p, .alu .sltu sd sa b)
  | .movi p sd imm => some (p, .movi sd imm)
  | .movk p sd h imm => some (p, .movk sd h imm)
  | .rdt p sd => some (p, .rdt sd)
  | .rdl p sd => some (p, .rdl sd)
  | .br p target => some (p, .br target)
  | .bz p ss target => some (p, .bz ss target)
  | .bnz p ss target => some (p, .bnz ss target)
  | .bri p ss => some (p, .bri ss)
  | .loop_ p count endAddr => some (p, .loop count endAddr)
  | .pred p ss => some (p, .pred ss)
  | .tend p => some (p, .tend)
  | .ldV p vd ss imm => some (p, .ldv vd ss imm)
  | .ldS p sd ss size signed imm => some (p, .lds sd ss size signed imm)
  | .stV p vs ss imm => some (p, .stv vs ss imm)
  | .stS p sa ss size imm => some (p, .sts sa ss size imm)
  | .ldw p w sp wf ss imm => some (p, .ldw w sp wf ss imm)
  | .send p vs ob fo nm1 => some (p, .send vs ob fo nm1)
  | .recv p vd ib fo nm1 => some (p, .recv vd ib fo nm1)
  | .ldqV p tag ss n imm => some (p, .ldqv tag ss n imm)
  | .ldqT p tag st sm sl => some (p, .ldqt tag st sm sl)
  | .ldqI p tag first cnt so => some (p, .ldqi tag first cnt so)
  | .stqV p tag vs ss n imm => some (p, .stqv tag vs ss n imm)
  | .stqT p tag st sm sl => some (p, .stqt tag st sm sl)
  | .qwait p w => some (p, .qwait w)
  | .qpop p vd tag => some (p, .qpop vd tag)
  | .mma p a => some (p, .mma a)
  | .mmas p a => some (p, .mmas a)
  | .acrd p a => some (p, .acrd a)
  | .acset p set anchor => some (p, .acset set anchor)
  | .vadd p a => some (p, .vbin .vadd a)
  | .vsub p a => some (p, .vbin .vsub a)
  | .vmul p a => some (p, .vbin .vmul a)
  | .vadds p a => some (p, .vbin .vadds a)
  | .vsubs p a => some (p, .vbin .vsubs a)
  | .vfma p a => some (p, .vfma a)
  | .vmin p a => some (p, .vbin .vmin a)
  | .vmax p a => some (p, .vbin .vmax a)
  | .vabs p a => some (p, .vun .vabs a)
  | .vneg p a => some (p, .vun .vneg a)
  | .vand p a => some (p, .vbin .vand a)
  | .vor p a => some (p, .vbin .vor a)
  | .vxor p a => some (p, .vbin .vxor a)
  | .vnot p a => some (p, .vun .vnot a)
  | .vshl p a => some (p, .vbin .vshl a)
  | .vshr p a => some (p, .vbin .vshr a)
  | .vsra p a => some (p, .vbin .vsra a)
  | .vcmp p slot ty pm pd va vb cond => some (p, .vcmp slot ty pm pd va vb cond)
  | .vsel p a => some (p, .vsel a)
  | .vmov p a => some (p, .vun .vmov a)
  | .vbcast p a ss => some (p, .vbcast a ss)
  | .vext p slot ty sd va ss => some (p, .vext slot ty sd va ss)
  | .vperm p a => some (p, .vperm a)
  | .vred p a op g => some (p, .vred a op g)
  | .pand p slot pd pa pb => some (p, .pbin .pand slot pd pa pb)
  | .por p slot pd pa pb => some (p, .pbin .por slot pd pa pb)
  | .pxor p slot pd pa pb => some (p, .pbin .pxor slot pd pa pb)
  | .pnot p slot pd pa => some (p, .pnot slot pd pa)
  | .ppop p slot sd pa => some (p, .ppop slot sd pa)
  | .vcvt p a => some (p, .vcvt a)
  | .vqmx p a => some (p, .vqmx a)
  | .vqmxc p a => some (p, .vqmxc a)
  | .vexp p a => some (p, .vun .vexp a)
  | .vexp2 p a => some (p, .vun .vexp2 a)
  | .vlog2 p a => some (p, .vun .vlog2 a)
  | .vrcp p a => some (p, .vun .vrcp a)
  | .vrsqrt p a => some (p, .vun .vrsqrt a)
  | .vtanh p a => some (p, .vun .vtanh a)
  | .vsigm p a => some (p, .vun .vsigm a)
  | .gate p pm vd va k => some (p, .gate pm vd va k)
  | .gpack p vd va ss => some (p, .gpack vd va ss)
  | _ => none

/-- Bytes a window access covers (R454). -/
def WinAcc.len : WinAcc → Nat
  | .rd n => n
  | .wr bs => bs.length

/-- Whether an SRAM error names a word of some array (R524): the arrays 0 to 6, the unit one of the array's, and the place one the
record's detail can hold. -/
def SramErr.shaped (e : SramErr) : Bool :=
  let units := if e.array ≤ 3 then 544 else if e.array = 4 then 8 else if e.array = 5 then 32 else if e.array = 6 then 1 else 0
  e.unit < units && e.bank < 256 && e.row < 65536 && e.word < 256

/-- Whether the data of an event have the shape the spec gives them. -/
def Instr.shaped (i : Instr) : Bool :=
  match i with
  | .frameReceive _ f => f.lanes.length == 30 && f.lanes.all (·.length == 64)
  | .linkPacketReceive _ k => 1 ≤ k.flits.length && k.flits.length ≤ 64
  | .timeExchangeReqReceived _ r _ _ => r.length == 48
  | .timeExchangeRspReceived _ r _ => r.length == 48
  | .thermalSample t => t.districts.length == 32 && t.ports.length == 8 && t.hbmStacks.length == 8
  | .mbxWinAccess _ off acc => off.toNat + acc.len ≤ 4096
  | .i2cMbxData acc _ => 1 ≤ acc.len && acc.len ≤ 240
  | .streamSend _ r => r.body.length ≤ 4032
  | .coldReset b => b.cal.length == 32
  | .warmReset b => b.cal.length == 32
  | .devResetWarm _ _ b => b.cal.length == 32
  | .sramScrubStep e x => e.all SramErr.shaped && x.struck.all SramErr.shaped
  | .sramRowSubstitute e => e.shaped
  | .rcRegisterRead _ off _ => off.toNat % 8 == 0
  | .registerWrite _ off _ _ => off.toNat % 8 == 0
  | _ => true

/-- Whether a command is well formed. -/
def Instr.wellFormed (i : Instr) : Bool :=
  match i.slotOp with
  | some (_, op) => (Machine.opFail op).isNone
  | none => i.shaped

end Sys2Proof
end

