-- ==== Sys2Proof/Decode.lean ====
section
/-!
DEFINITION. The command a word of the table's bits spells. No row of spec/opcode_table.json gives bits: every row is an event or
an access with operands of its own, so no word spells a command. (The bundles a tile runs are decoded in Machine/Bundle.lean, and
Machine/Encode.lean spells them.)
-/
namespace Sys2Proof

/-- The command spelled by a word of `nbits` bits numbered as the table numbers them: none. -/
def decodeTableWord (_nbits _w : Nat) : Option Instr := none

end Sys2Proof
end

