-- ==== Sys2Proof/Machine/Tab.lean ====
section
/-!
DEFINITION. Sparse plain-data tables and byte memories in one canonical form: keys strictly rising, and no entry equal
to what an unlisted key reads as.
-/
namespace Sys2Proof.Machine

variable {α : Type}

/-- Value of key `k`; an unlisted key reads `d`. -/
def tget (d : α) : List (Nat × α) → Nat → α
  | [], _ => d
  | (j, v) :: t, k => if j = k then v else tget d t k

/-- Insert or replace key `k` in a list with rising keys. -/
def tins : List (Nat × α) → Nat → α → List (Nat × α)
  | [], k, v => [(k, v)]
  | (j, w) :: t, k, v =>
    if k < j then (k, v) :: (j, w) :: t
    else if k = j then (k, v) :: t
    else (j, w) :: tins t k v

/-- Remove key `k`. -/
def tdel : List (Nat × α) → Nat → List (Nat × α)
  | [], _ => []
  | (j, w) :: t, k => if j = k then tdel t k else (j, w) :: tdel t k

/-- Write key `k`, keeping the canonical form. -/
def tset [DecidableEq α] (d : α) (t : List (Nat × α)) (k : Nat) (v : α) : List (Nat × α) :=
  if v = d then tdel t k else tins t k v

/-- Update the value of key `k`. -/
def tmod [DecidableEq α] (d : α) (t : List (Nat × α)) (k : Nat) (f : α → α) : List (Nat × α) :=
  tset d t k (f (tget d t k))

/-- The canonical form: keys above `lo` and strictly rising, no listed default. -/
def twfFrom [DecidableEq α] (d : α) : Nat → List (Nat × α) → Bool
  | _, [] => true
  | lo, (j, v) :: t => decide (lo ≤ j) && decide (v ≠ d) && twfFrom d (j + 1) t

/-- The canonical form of a table whose unlisted keys read `d`. -/
def twf [DecidableEq α] (d : α) (t : List (Nat × α)) : Bool := twfFrom d 0 t

/-- A byte memory; an unlisted byte reads 0 (R67, R215: cold reset zeroes every memory with valid check bits). -/
abbrev Mem := List Host.Cell

namespace Mem

/-- The canonical form of a byte memory. -/
def wf (m : List Host.Cell) : Bool := twf 0#8 m

/-- One byte. -/
def rd (m : List Host.Cell) (a : Nat) : Byte := tget 0#8 m a

/-- Write one byte. -/
def wr (m : List Host.Cell) (a : Nat) (b : Byte) : List Host.Cell := tset 0#8 m a b

/-- `n` bytes from address `a`. -/
def rdBytes (m : List Host.Cell) (a : Nat) : Nat → List Byte
  | 0 => []
  | n + 1 => rd m a :: rdBytes m (a + 1) n

/-- Write bytes from address `a` upward. -/
def wrBytes (m : List Host.Cell) (a : Nat) : List Byte → List Host.Cell
  | [] => m
  | b :: bs => wrBytes (wr m a b) (a + 1) bs

/-- Little-endian number of `n` bytes (R5). -/
def rdNat (m : List Host.Cell) (a n : Nat) : Nat := leNat (rdBytes m a n)

/-- Store the `n` little-endian bytes of `v` (R5). -/
def wrNat (m : List Host.Cell) (a n v : Nat) : List Host.Cell := wrBytes m a (leBytes n v)

/-- Write zero to `n` bytes: they become unlisted. -/
def zero (m : List Host.Cell) (a n : Nat) : List Host.Cell := m.filter fun c => decide (c.1 < a ∨ a + n ≤ c.1)

end Mem

/-- A set of numbers as a strictly rising list: membership. -/
def shas (s : List Nat) (k : Nat) : Bool := s.contains k

/-- Insert into a rising list. -/
def sins : List Nat → Nat → List Nat
  | [], k => [k]
  | j :: t, k => if k < j then k :: j :: t else if k = j then j :: t else j :: sins t k

/-- Remove from a rising list. -/
def sdel (s : List Nat) (k : Nat) : List Nat := s.filter (· ≠ k)

/-- Insert every number of a list. -/
def sinsAll (s : List Nat) (ks : List Nat) : List Nat := ks.foldl sins s

/-- Replace element `i` of a list; a list shorter than `i` is unchanged. -/
def lset (l : List α) (i : Nat) (v : α) : List α := l.set i v

/-- Update element `i` of a list. -/
def lmod (l : List α) (i : Nat) (f : α → α) : List α :=
  match l[i]? with
  | some v => l.set i (f v)
  | none => l

end Sys2Proof.Machine
end

