-- ==== Sys2Proof/Machine/RegMap.lean ====
section
/-!
DEFINITION. The register map (01 R29 and the register tables of 02 to 20): offset, extent, fields, access codes of R6,
reset values and the legal values of fields with reserved values.
-/
namespace Sys2Proof.Machine

/-- Access codes (00, R6). -/
inductive Acc where
  | ro | rw | wo | w1c | w1s | rc | rwl
  deriving DecidableEq, Repr

/-- One field: lowest bit, width, access, reset value, least and greatest legal value written. -/
structure RField where
  lo : Nat
  len : Nat
  acc : Acc
  reset : Nat := 0
  min : Nat := 0
  max : Nat := 2 ^ 64 - 1
  deriving DecidableEq, Repr

/-- One register or array: offset of instance 0, instances and stride of its block, entries and stride of the array. -/
structure RegDesc where
  base : Nat
  n1 : Nat
  s1 : Nat
  n2 : Nat
  s2 : Nat
  fields : List RField
  deriving DecidableEq, Repr

/-! Offsets of the registers. -/
namespace R

/-- TIL_CTL - tile control (TIL + 0x0000). -/
def tilCtl (i : Nat) : Nat := 0x2000000 + i * 0x8000
/-- TIL_STATUS - tile state and binding (TIL + 0x0008). -/
def tilStatus (i : Nat) : Nat := 0x2000008 + i * 0x8000
/-- TIL_PC - issue position (TIL + 0x0010). -/
def tilPc (i : Nat) : Nat := 0x2000010 + i * 0x8000
/-- TIL_FAULT_SUMMARY - last fault (TIL + 0x0018). -/
def tilFaultSummary (i : Nat) : Nat := 0x2000018 + i * 0x8000
/-- TIL_FAULT_EXTRA - faults not recorded (TIL + 0x0020). -/
def tilFaultExtra (i : Nat) : Nat := 0x2000020 + i * 0x8000
/-- TIL_CYCLES - cycle accounting (TIL + 0x0028). -/
def tilCycles (i : Nat) : Nat := 0x2000028 + i * 0x8000
/-- TIL_SLACK - slack to the meridian (TIL + 0x0030). -/
def tilSlack (i : Nat) : Nat := 0x2000030 + i * 0x8000
/-- TIL_MATRIX_PASSES - matrix passes of the last block (TIL + 0x0038). -/
def tilMatrixPasses (i : Nat) : Nat := 0x2000038 + i * 0x8000
/-- TIL_ZGATE - zero gating of the last block (TIL + 0x0040). -/
def tilZgate (i : Nat) : Nat := 0x2000040 + i * 0x8000
/-- TIL_GATE_STATS - gate placements of the last block (TIL + 0x0048). -/
def tilGateStats (i : Nat) : Nat := 0x2000048 + i * 0x8000
/-- TIL_VOIDS - departures and arrivals of the last block (TIL + 0x0050). -/
def tilVoids (i : Nat) : Nat := 0x2000050 + i * 0x8000
/-- TIL_TP_OFF - predicated-off work of the last block (TIL + 0x0058). -/
def tilTpOff (i : Nat) : Nat := 0x2000058 + i * 0x8000
/-- MQE_CTL - cancellation (MQE + 0x0000). -/
def mqeCtl (i : Nat) : Nat := 0x4000000 + i * 0x1000
/-- MQE_STATUS - pool and reservations (MQE + 0x0008). -/
def mqeStatus (i : Nat) : Nat := 0x4000008 + i * 0x1000
/-- MQE_QCFG_n - queue configuration (MQE + 0x0100 + n × 8). -/
def mqeQcfgN (i : Nat) (n : Nat) : Nat := 0x4000100 + i * 0x1000 + n * 0x8
/-- MQE_QBOUND_n - published fixed terms (MQE + 0x0300 + n × 8). -/
def mqeQboundN (i : Nat) (n : Nat) : Nat := 0x4000300 + i * 0x1000 + n * 0x8
/-- MQE_QSTAT_n - queue accounting (MQE + 0x0500 + n × 8). -/
def mqeQstatN (i : Nat) (n : Nat) : Nat := 0x4000500 + i * 0x1000 + n * 0x8
/-- HBM_STATUS - stack state (HBM + 0x0000). -/
def hbmStatus (i : Nat) : Nat := 0x5000000 + i * 0x100000
/-- HBM_ECC_COUNT - error counts (HBM + 0x0008). -/
def hbmEccCount (i : Nat) : Nat := 0x5000008 + i * 0x100000
/-- HBM_SCRUB_CTL - patrol scrub (HBM + 0x0010). -/
def hbmScrubCtl (i : Nat) : Nat := 0x5000010 + i * 0x100000
/-- HBM_SCRUB_STATUS - scrub position (HBM + 0x0018). -/
def hbmScrubStatus (i : Nat) : Nat := 0x5000018 + i * 0x100000
/-- HBM_REMAP_n - remap entries (HBM + 0x0100 + n × 8, n = 0–31). -/
def hbmRemapN (i : Nat) (n : Nat) : Nat := 0x5000100 + i * 0x100000 + n * 0x8
/-- NGT_NOW - current time (NGT + 0x0000). -/
def ngtNow : Nat := 0x30000
/-- NGT_NOW_LATCH - latched high word and fraction (NGT + 0x0008). -/
def ngtNowLatch : Nat := 0x30008
/-- NGT_EPOCH_ID - domain epoch (NGT + 0x0010). -/
def ngtEpochId : Nat := 0x30010
/-- NGT_TRANSIT - transit number (NGT + 0x0018). -/
def ngtTransit : Nat := 0x30018
/-- NGT_PERIOD - transit period (NGT + 0x0020). -/
def ngtPeriod : Nat := 0x30020
/-- NGT_STATUS - time state (NGT + 0x0028). -/
def ngtStatus : Nat := 0x30028
/-- NGT_ROLE - role, parents and switching (NGT + 0x0030). -/
def ngtRole : Nat := 0x30030
/-- NGT_SERVO_CTL - servo control (NGT + 0x0040). -/
def ngtServoCtl : Nat := 0x30040
/-- NGT_SERVO_THRESH - servo thresholds (NGT + 0x0048). -/
def ngtServoThresh : Nat := 0x30048
/-- NGT_RATE - frequency correction (NGT + 0x0050). -/
def ngtRate : Nat := 0x30050
/-- NGT_OFFSET_d - domain offsets (NGT + 0x0058 + d × 8, d = 0 for A, 1 for B). -/
def ngtOffsetD (n : Nat) : Nat := 0x30058 + n * 0x8
/-- NGT_HOLDOVER - holdover budget (NGT + 0x0068). -/
def ngtHoldover : Nat := 0x30068
/-- NGT_PPS_CTL - PPS alignment (NGT + 0x0070). -/
def ngtPpsCtl : Nat := 0x30070
/-- NGT_PORT_n_DELAY - path delay (NGT + 0x0100 + n × 0x10). -/
def ngtPortNDelay (n : Nat) : Nat := 0x30100 + n * 0x10
/-- NGT_PORT_n_ASYM - path asymmetry (NGT + 0x0108 + n × 0x10). -/
def ngtPortNAsym (n : Nat) : Nat := 0x30108 + n * 0x10
/-- NGT_PORT_n_OFFSET - partner offset (NGT + 0x0180 + n × 8). -/
def ngtPortNOffset (n : Nat) : Nat := 0x30180 + n * 0x8
/-- NGT_TRIG_n_TIME - trigger instant (NGT + 0x0200 + n × 0x20). -/
def ngtTrigNTime (n : Nat) : Nat := 0x30200 + n * 0x20
/-- NGT_TRIG_n_CTL - trigger control (NGT + 0x0208 + n × 0x20). -/
def ngtTrigNCtl (n : Nat) : Nat := 0x30208 + n * 0x20
/-- NGT_CAPT_n_CTL - capture control (NGT + 0x0300 + n × 0x20). -/
def ngtCaptNCtl (n : Nat) : Nat := 0x30300 + n * 0x20
/-- NGT_CAPT_n_DATA - head entry time (NGT + 0x0308 + n × 0x20). -/
def ngtCaptNData (n : Nat) : Nat := 0x30308 + n * 0x20
/-- NGT_CAPT_n_META - head entry detail (NGT + 0x0310 + n × 0x20). -/
def ngtCaptNMeta (n : Nat) : Nat := 0x30310 + n * 0x20
/-- NGT_PTM_CTL - PTM requester (NGT + 0x0400). -/
def ngtPtmCtl : Nat := 0x30400
/-- NGT_PTM_HOST - host time of the pair (NGT + 0x0408). -/
def ngtPtmHost : Nat := 0x30408
/-- NGT_PTM_NGT - NGT of the pair (NGT + 0x0410). -/
def ngtPtmNgt : Nat := 0x30410
/-- CLK_STATUS - district clock state (CLK + 0x0000). -/
def clkStatus (i : Nat) : Nat := 0x1000000 + i * 0x1000
/-- CLK_DROOP_CTL - droop response (CLK + 0x0008). -/
def clkDroopCtl (i : Nat) : Nat := 0x1000008 + i * 0x1000
/-- CLK_STRETCH_LAST - last transit's count (CLK + 0x0010). -/
def clkStretchLast (i : Nat) : Nat := 0x1000010 + i * 0x1000
/-- CLK_STRETCH_MAX - worst transit since read (CLK + 0x0018). -/
def clkStretchMax (i : Nat) : Nat := 0x1000018 + i * 0x1000
/-- CLK_DROOP_COUNT - droop events (CLK + 0x0020). -/
def clkDroopCount (i : Nat) : Nat := 0x1000020 + i * 0x1000
/-- CLK_XCAL - calibrated crossing latencies (CLK + 0x0028). -/
def clkXcal (i : Nat) : Nat := 0x1000028 + i * 0x1000
/-- CLK_XSTAT - crossing accounting (CLK + 0x0030). -/
def clkXstat (i : Nat) : Nat := 0x1000030 + i * 0x1000
/-- CLK_HALT - halts of compatibility retunes (CLK + 0x0038). -/
def clkHalt (i : Nat) : Nat := 0x1000038 + i * 0x1000
/-- CLK_RETUNE - device retune, shared by all instances (CLK + 0x0100). -/
def clkRetune : Nat := 0x1000100
/-- CLK_MIN_SETTING - program floor, shared by all instances (CLK + 0x0108). -/
def clkMinSetting : Nat := 0x1000108
/-- FAB_CTL - port scheduled-plane control (FAB + 0x0000). -/
def fabCtl (i : Nat) : Nat := 0x6000000 + i * 0x10000
/-- FAB_STATUS - port state (FAB + 0x0008). -/
def fabStatus (i : Nat) : Nat := 0x6000008 + i * 0x10000
/-- FAB_EPOCH - device epoch, shared by all instances (FAB + 0x0010). -/
def fabEpoch : Nat := 0x6000010
/-- FAB_MAP_COUNT - map entries (FAB + 0x0018). -/
def fabMapCount (i : Nat) : Nat := 0x6000018 + i * 0x10000
/-- FAB_ALIGN - re-timing margin (FAB + 0x0020). -/
def fabAlign (i : Nat) : Nat := 0x6000020 + i * 0x10000
/-- FAB_COUNT_VEC - traffic of the last transit (FAB + 0x0028). -/
def fabCountVec (i : Nat) : Nat := 0x6000028 + i * 0x10000
/-- FAB_COUNT_ERR - error events (FAB + 0x0030). -/
def fabCountErr (i : Nat) : Nat := 0x6000030 + i * 0x10000
/-- FAB_REACH_v_t - reach masks (FAB + 0x0100 + v × 0x80 + t × 8). -/
def fabReachVT (i : Nat) (n : Nat) : Nat := 0x6000100 + i * 0x10000 + n * 0x8
/-- FAB_MAP_v - fret maps (FAB + 0x4000 + v × 0x4000). -/
def fabMapV (i : Nat) (n : Nat) : Nat := 0x6004000 + i * 0x10000 + n * 0x8
/-- SVC_CTL - service-plane control (SVC + 0x0000). -/
def svcCtl : Nat := 0x8000000
/-- SVC_STATUS - stream waiting (SVC + 0x0008). -/
def svcStatus : Nat := 0x8000008
/-- SVC_VC_WEIGHT - arbitration weights (SVC + 0x0010). -/
def svcVcWeight : Nat := 0x8000010
/-- SVC_PORT_n_TRAFFIC - flits of the last transit (SVC + 0x0100 + n × 0x10). -/
def svcPortNTraffic (n : Nat) : Nat := 0x8000100 + n * 0x10
/-- SVC_PORT_n_EVENTS - queueing and discards (SVC + 0x0108 + n × 0x10). -/
def svcPortNEvents (n : Nat) : Nat := 0x8000108 + n * 0x10
/-- SVC_SCTX_n_CFG - stream sender configuration (SVC + 0x10_0000 + n × 0x20). -/
def svcSctxNCfg (n : Nat) : Nat := 0x8100000 + n * 0x20
/-- SVC_SCTX_n_TX - stream sender state (SVC + 0x10_0008 + n × 0x20). -/
def svcSctxNTx (n : Nat) : Nat := 0x8100008 + n * 0x20
/-- SVC_SCTX_n_RXBUF - PUT receive buffer (SVC + 0x10_0010 + n × 0x20). -/
def svcSctxNRxbuf (n : Nat) : Nat := 0x8100010 + n * 0x20
/-- SVC_SCTX_n_RX - stream receiver and state (SVC + 0x10_0018 + n × 0x20). -/
def svcSctxNRx (n : Nat) : Nat := 0x8100018 + n * 0x20
/-- SVC_ROUTE_n - route table (SVC + 0x20_0000 + n × 8, n = 0–4,095). -/
def svcRouteN (n : Nat) : Nat := 0x8200000 + n * 0x8
/-- SVC_FLAT_n - flat table (SVC + 0x28_0000 + n × 8, n = 0–1,023). -/
def svcFlatN (n : Nat) : Nat := 0x8280000 + n * 0x8
/-- SVC_CCNT_n - completion counters (SVC + 0x30_0000 + n × 8, n = 0–4,095). -/
def svcCcntN (n : Nat) : Nat := 0x8300000 + n * 0x8
/-- LNK_CTL - port control (LNK + 0x0000). -/
def lnkCtl (i : Nat) : Nat := 0x7000000 + i * 0x10000
/-- LNK_STATUS - port state (LNK + 0x0008). -/
def lnkStatus (i : Nat) : Nat := 0x7000008 + i * 0x10000
/-- LNK_DOWN_TIME - link-down delay (LNK + 0x0010). -/
def lnkDownTime (i : Nat) : Nat := 0x7000010 + i * 0x10000
/-- LNK_ACK_CTL - acknowledgement timing (LNK + 0x0018). -/
def lnkAckCtl (i : Nat) : Nat := 0x7000018 + i * 0x10000
/-- LNK_SEQ - sequence state (LNK + 0x0020). -/
def lnkSeq (i : Nat) : Nat := 0x7000020 + i * 0x10000
/-- LNK_REPLAY - replay buffer (LNK + 0x0028). -/
def lnkReplay (i : Nat) : Nat := 0x7000028 + i * 0x10000
/-- LNK_FEC_COUNT - FEC events (LNK + 0x0030). -/
def lnkFecCount (i : Nat) : Nat := 0x7000030 + i * 0x10000
/-- LNK_ERR_COUNT - link errors (LNK + 0x0038). -/
def lnkErrCount (i : Nat) : Nat := 0x7000038 + i * 0x10000
/-- LNK_DUP_COUNT - discards (LNK + 0x0040). -/
def lnkDupCount (i : Nat) : Nat := 0x7000040 + i * 0x10000
/-- LNK_LANE_CTL - lane sparing control (LNK + 0x0048). -/
def lnkLaneCtl (i : Nat) : Nat := 0x7000048 + i * 0x10000
/-- LNK_LANE_n - lane state (LNK + 0x0100 + n × 8, n = 0–29). -/
def lnkLaneN (i : Nat) (n : Nat) : Nat := 0x7000100 + i * 0x10000 + n * 0x8
/-- TOP_STATUS - placement and admission (TOP + 0x0000). -/
def topStatus : Nat := 0x9000000
/-- TOP_ALMANAC_ID - active domain (TOP + 0x0008). -/
def topAlmanacId : Nat := 0x9000008
/-- TOP_ALMANAC_SEQ - almanac issues (TOP + 0x0010). -/
def topAlmanacSeq : Nat := 0x9000010
/-- TOP_PORT_n_DISC - discovery outcome (TOP + 0x0100 + n × 0x10). -/
def topPortNDisc (n : Nat) : Nat := 0x9000100 + n * 0x10
/-- TOP_PORT_n_NBR_ID - neighbour identity (TOP + 0x0108 + n × 0x10). -/
def topPortNNbrId (n : Nat) : Nat := 0x9000108 + n * 0x10
/-- SEC_STATUS - boot and trust state (SEC + 0x0000). -/
def secStatus : Nat := 0xC000000
/-- SEC_BOOT_CTL - slot selection (SEC + 0x0008). -/
def secBootCtl : Nat := 0xC000008
/-- SEC_TRUST_SEQ - enrolment sequence (SEC + 0x0010). -/
def secTrustSeq : Nat := 0xC000010
/-- SEC_ID_DIGEST_i - identity digest (SEC + 0x0020 + i × 8, i = 0–3). -/
def secIdDigestI (n : Nat) : Nat := 0xC000020 + n * 0x8
/-- SEC_SHA_STAT - weight verification (SEC + 0x0040). -/
def secShaStat : Nat := 0xC000040
/-- DEV_ID - identity (DEV + 0x0000). -/
def devId : Nat := 0x0
/-- DEV_STATUS - device state (DEV + 0x0008). -/
def devStatus : Nat := 0x8
/-- DEV_EVENT - events for vector 0 (DEV + 0x0010). -/
def devEvent : Nat := 0x10
/-- DEV_RESET - reset request (DEV + 0x0018). -/
def devReset : Nat := 0x18
/-- PCI_BAR2 - HBM window (PCI + 0x0000). -/
def pciBar2 : Nat := 0x50000
/-- PCI_LINK - link state (PCI + 0x0008). -/
def pciLink : Nat := 0x50008
/-- MBX_WIN_SEL - window selection (MBX + 0x1000). -/
def mbxWinSel : Nat := 0x11000
/-- MBX_SEAL - binding seal (MBX + 0x1008). -/
def mbxSeal : Nat := 0x11008
/-- MBX_CHn_CTL - channel actions (MBX + 0x2000 + n × 0x10). -/
def mbxChnCtl (n : Nat) : Nat := 0x12000 + n * 0x10
/-- MBX_CHn_STATE - channel state (MBX + 0x2008 + n × 0x10). -/
def mbxChnState (n : Nat) : Nat := 0x12008 + n * 0x10
/-- MBX_BIND_n - binding table (MBX + 0x3000 + n × 8). -/
def mbxBindN (n : Nat) : Nat := 0x13000 + n * 0x8
/-- DBL_RING_n, DBL_MASK_n, DBL_STATUS_n - doorbells (DBL + n × 0x20, + 0x08, + 0x10). -/
def dblRingN (n : Nat) : Nat := 0x20000 + n * 0x20
/-- DBL_RING_n, DBL_MASK_n, DBL_STATUS_n - doorbells (DBL + n × 0x20, + 0x08, + 0x10). -/
def dblMaskN (n : Nat) : Nat := 0x20008 + n * 0x20
/-- DBL_RING_n, DBL_MASK_n, DBL_STATUS_n - doorbells (DBL + n × 0x20, + 0x08, + 0x10). -/
def dblStatusN (n : Nat) : Nat := 0x20010 + n * 0x20
/-- ENR_CTL - planner control (ENR + 0x0000). -/
def enrCtl : Nat := 0x40000
/-- ENR_INTERVAL - last closed interval (ENR + 0x0008). -/
def enrInterval : Nat := 0x40008
/-- ENR_BUDGET - budget in force and pending (ENR + 0x0010). -/
def enrBudget : Nat := 0x40010
/-- ENR_BUDGET_AT - pending budget meridian (ENR + 0x0018). -/
def enrBudgetAt : Nat := 0x40018
/-- ENR_TOKENS - energy tokens (ENR + 0x0020). -/
def enrTokens : Nat := 0x40020
/-- ENR_OVER - budget and declaration overruns (ENR + 0x0028). -/
def enrOver : Nat := 0x40028
/-- ENR_RAIL_m_TOTAL - cumulative energy (ENR + 0x0100 + m × 0x10, m = 0–11). -/
def enrRailMTotal (n : Nat) : Nat := 0x40100 + n * 0x10
/-- ENR_RAIL_m_LAST - last interval (ENR + 0x0108 + m × 0x10, m = 0–11). -/
def enrRailMLast (n : Nat) : Nat := 0x40108 + n * 0x10
/-- PWR_RAIL_STATUS - rails and pins (PWR + 0x0000). -/
def pwrRailStatus : Nat := 0xD000000
/-- PWR_THERM - temperatures (PWR + 0x0010). -/
def pwrTherm : Nat := 0xD000010
/-- PWR_THERM_CTL - thermal thresholds (PWR + 0x0018). -/
def pwrThermCtl : Nat := 0xD000018
/-- PWR_SAVE_STATUS - critical-state save (PWR + 0x0020). -/
def pwrSaveStatus : Nat := 0xD000020
/-- PWR_VKEEP - hold-up voltage (PWR + 0x0028). -/
def pwrVkeep : Nat := 0xD000028
/-- PWR_VF_S - voltage and frequency table (PWR + 0x0100 + (S − 20) × 8, S = 20–42). -/
def pwrVfS (n : Nat) : Nat := 0xD000100 + n * 0x8
/-- LDG_CTL - ledger control (LDG + 0x0000). -/
def ldgCtl : Nat := 0xA000000
/-- LDG_STATUS - ledger state (LDG + 0x0008). -/
def ldgStatus : Nat := 0xA000008
/-- LDG_EPOCH - ledger epoch (LDG + 0x0010). -/
def ldgEpoch : Nat := 0xA000010
/-- LDG_CHECK_n - ledger accounting (LDG + 0x0100 + n × 8, n = 0–7). -/
def ldgCheckN (n : Nat) : Nat := 0xA000100 + n * 0x8
/-- RAS_CTL - repair policy (RAS + 0x0000). -/
def rasCtl : Nat := 0xB000000
/-- RAS_LOG_STATUS - fault queue (RAS + 0x0008). -/
def rasLogStatus : Nat := 0xB000008
/-- RAS_SCRUB_CTL - SRAM patrol scrub (RAS + 0x0010). -/
def rasScrubCtl : Nat := 0xB000010
/-- RAS_LOG_HEAD - head record, eight words (RAS + 0x0040). -/
def rasLogHead (i : Nat) : Nat := 0xB000040 + i * 0x8
/-- RAS_CAPO_d_MAP0 - capo map, indices 0–11 (RAS + 0x1000 + d × 0x20). -/
def rasCapoDMap0 (n : Nat) : Nat := 0xB001000 + n * 0x20
/-- RAS_CAPO_d_MAP1 - capo map, indices 12–15 and spares (RAS + 0x1008 + d × 0x20). -/
def rasCapoDMap1 (n : Nat) : Nat := 0xB001008 + n * 0x20
/-- RAS_CAPO_d_PEND - pending change (RAS + 0x1010 + d × 0x20). -/
def rasCapoDPend (n : Nat) : Nat := 0xB001010 + n * 0x20
end R

/-! Fields of the registers. -/
namespace F
def tilCtl_POWER_GATE : RField := { lo := 2, len := 1, acc := .rw }
def tilCtl_STOP_AT_MERIDIAN : RField := { lo := 1, len := 1, acc := .rw }
def tilCtl_TILE_RESET : RField := { lo := 0, len := 1, acc := .wo }
def tilStatus_RETIRED : RField := { lo := 11, len := 1, acc := .ro }
def tilStatus_LOGICAL_VALID : RField := { lo := 10, len := 1, acc := .ro }
def tilStatus_LOGICAL_INDEX : RField := { lo := 6, len := 4, acc := .ro }
def tilStatus_STATE : RField := { lo := 0, len := 4, acc := .ro, reset := 1 }
def tilPc_TRANSIT : RField := { lo := 32, len := 16, acc := .ro }
def tilPc_BUNDLE_ADDR : RField := { lo := 0, len := 13, acc := .ro }
def tilFaultSummary_TRANSIT : RField := { lo := 48, len := 16, acc := .rc }
def tilFaultSummary_CLASS : RField := { lo := 45, len := 3, acc := .rc }
def tilFaultSummary_BUNDLE_ADDR : RField := { lo := 32, len := 13, acc := .rc }
def tilFaultSummary_SLOT : RField := { lo := 16, len := 3, acc := .rc }
def tilFaultSummary_CODE : RField := { lo := 0, len := 16, acc := .rc }
def tilFaultExtra_COUNT : RField := { lo := 0, len := 16, acc := .rc }
def tilCycles_STALL : RField := { lo := 32, len := 32, acc := .ro }
def tilCycles_ACTIVE : RField := { lo := 0, len := 32, acc := .ro }
def tilSlack_MIN_NS : RField := { lo := 32, len := 32, acc := .rc, reset := 4294967295 }
def tilSlack_LAST_NS : RField := { lo := 0, len := 32, acc := .ro }
def tilMatrixPasses_MMAS : RField := { lo := 32, len := 32, acc := .ro }
def tilMatrixPasses_MMA : RField := { lo := 0, len := 32, acc := .ro }
def tilZgate_GATED : RField := { lo := 32, len := 32, acc := .ro }
def tilZgate_ELEMENTS : RField := { lo := 0, len := 32, acc := .ro }
def tilGateStats_OVERFLOW : RField := { lo := 32, len := 32, acc := .ro }
def tilGateStats_PLACED : RField := { lo := 0, len := 32, acc := .ro }
def tilVoids_VOID_ARRIVALS : RField := { lo := 48, len := 16, acc := .ro }
def tilVoids_ARRIVALS : RField := { lo := 32, len := 16, acc := .ro }
def tilVoids_VOID_DEPARTURES : RField := { lo := 16, len := 16, acc := .ro }
def tilVoids_DEPARTURES : RField := { lo := 0, len := 16, acc := .ro }
def tilTpOff_NOOPS : RField := { lo := 32, len := 32, acc := .ro }
def tilTpOff_CYCLES : RField := { lo := 0, len := 32, acc := .ro }
def mqeCtl_CANCEL_ALL : RField := { lo := 0, len := 1, acc := .wo }
def mqeStatus_OUTSTANDING : RField := { lo := 32, len := 12, acc := .ro }
def mqeStatus_RATE_SUM : RField := { lo := 24, len := 8, acc := .ro }
def mqeStatus_POOL_FREE : RField := { lo := 0, len := 12, acc := .ro, reset := 2048 }
def mqeQcfgN_MODE : RField := { lo := 30, len := 2, acc := .rw, min := 0, max := 2 }
def mqeQcfgN_RATE : RField := { lo := 16, len := 8, acc := .rw, min := 0, max := 128 }
def mqeQcfgN_DEPTH : RField := { lo := 0, len := 9, acc := .rw, min := 0, max := 256 }
def mqeQboundN_L_FIX_WR : RField := { lo := 16, len := 16, acc := .rw }
def mqeQboundN_L_FIX_RD : RField := { lo := 0, len := 16, acc := .rw }
def mqeQstatN_OPS : RField := { lo := 32, len := 32, acc := .ro }
def mqeQstatN_MAX_LAT_NS : RField := { lo := 16, len := 16, acc := .ro }
def mqeQstatN_OVER_BOUND : RField := { lo := 0, len := 16, acc := .rc }
def hbmStatus_PC_LOST : RField := { lo := 32, len := 32, acc := .ro }
def hbmStatus_TEMP_C : RField := { lo := 24, len := 8, acc := .ro }
def hbmStatus_REFRESH_2X : RField := { lo := 16, len := 1, acc := .ro }
def hbmStatus_STATE : RField := { lo := 0, len := 4, acc := .ro }
def hbmEccCount_UNCORRECTABLE : RField := { lo := 32, len := 32, acc := .rc }
def hbmEccCount_CORRECTED : RField := { lo := 0, len := 32, acc := .rc }
def hbmScrubCtl_PERIOD_H : RField := { lo := 0, len := 16, acc := .rw, reset := 24 }
def hbmScrubStatus_PASSES : RField := { lo := 48, len := 16, acc := .ro }
def hbmScrubStatus_POSITION : RField := { lo := 0, len := 27, acc := .ro }
def hbmRemapN_VALID : RField := { lo := 63, len := 1, acc := .ro }
def hbmRemapN_PC : RField := { lo := 32, len := 5, acc := .ro }
def hbmRemapN_ROW : RField := { lo := 0, len := 32, acc := .ro }
def ngtNow_NS : RField := { lo := 0, len := 64, acc := .ro }
def ngtNowLatch_NS_HI : RField := { lo := 32, len := 32, acc := .ro }
def ngtNowLatch_FRAC : RField := { lo := 0, len := 16, acc := .ro }
def ngtEpochId_ID : RField := { lo := 0, len := 64, acc := .ro }
def ngtTransit_T : RField := { lo := 0, len := 64, acc := .ro }
def ngtPeriod_VALID : RField := { lo := 15, len := 1, acc := .rw }
def ngtPeriod_N : RField := { lo := 0, len := 15, acc := .rw, min := 4, max := 16384 }
def ngtStatus_DEPTH : RField := { lo := 20, len := 4, acc := .ro }
def ngtStatus_PPS_B_OK : RField := { lo := 19, len := 1, acc := .ro }
def ngtStatus_PPS_A_OK : RField := { lo := 18, len := 1, acc := .ro }
def ngtStatus_DOMAIN_B : RField := { lo := 12, len := 4, acc := .ro }
def ngtStatus_DOMAIN_A : RField := { lo := 8, len := 4, acc := .ro }
def ngtStatus_ACTIVE : RField := { lo := 4, len := 1, acc := .ro }
def ngtStatus_STATE : RField := { lo := 0, len := 4, acc := .ro }
def ngtRole_SWITCH_LIMIT_PS : RField := { lo := 16, len := 16, acc := .rw, reset := 1000 }
def ngtRole_PARENT_B : RField := { lo := 12, len := 4, acc := .rw, reset := 15 }
def ngtRole_PARENT_A : RField := { lo := 8, len := 4, acc := .rw, reset := 15 }
def ngtRole_SWITCH_REQ : RField := { lo := 7, len := 1, acc := .wo }
def ngtRole_AUTO_SWITCH : RField := { lo := 6, len := 1, acc := .rw, reset := 1 }
def ngtRole_PPS_B_USE : RField := { lo := 3, len := 1, acc := .rw }
def ngtRole_PPS_A_USE : RField := { lo := 2, len := 1, acc := .rw }
def ngtRole_MASTER_B : RField := { lo := 1, len := 1, acc := .rw }
def ngtRole_MASTER_A : RField := { lo := 0, len := 1, acc := .rw }
def ngtServoCtl_SLEW_LIMIT_PPB : RField := { lo := 32, len := 32, acc := .rw, reset := 10000, min := 1, max := 100000 }
def ngtServoCtl_KI_SHIFT : RField := { lo := 20, len := 4, acc := .rw, reset := 7 }
def ngtServoCtl_KP_SHIFT : RField := { lo := 16, len := 4, acc := .rw, reset := 2 }
def ngtServoCtl_FREEZE : RField := { lo := 2, len := 1, acc := .rw }
def ngtServoCtl_STEP_ENABLE : RField := { lo := 1, len := 1, acc := .rw, reset := 1 }
def ngtServoCtl_ENABLE : RField := { lo := 0, len := 1, acc := .rw, reset := 1 }
def ngtServoThresh_STEP_NS : RField := { lo := 48, len := 16, acc := .rw, reset := 1000 }
def ngtServoThresh_OUTLIER_PS : RField := { lo := 32, len := 16, acc := .rw, reset := 20000 }
def ngtServoThresh_UNLOCK_PS : RField := { lo := 16, len := 16, acc := .rw, reset := 1500 }
def ngtServoThresh_LOCK_PS : RField := { lo := 0, len := 16, acc := .rw, reset := 750 }
def ngtRate_INTEG : RField := { lo := 32, len := 32, acc := .ro }
def ngtRate_Y : RField := { lo := 0, len := 32, acc := .ro }
def ngtOffsetD_VALID : RField := { lo := 63, len := 1, acc := .ro }
def ngtOffsetD_OFFSET : RField := { lo := 0, len := 48, acc := .ro }
def ngtHoldover_ELAPSED_MS : RField := { lo := 32, len := 32, acc := .ro }
def ngtHoldover_UNC_PS_PER_S : RField := { lo := 16, len := 16, acc := .rw, reset := 100 }
def ngtHoldover_BUDGET_PS : RField := { lo := 0, len := 16, acc := .rw, reset := 1000 }
def ngtPpsCtl_OFFSET_NS : RField := { lo := 2, len := 30, acc := .rw, min := 0, max := 999999999 }
def ngtPpsCtl_EDGE : RField := { lo := 0, len := 1, acc := .rw }
def ngtPortNDelay_MISSED : RField := { lo := 48, len := 16, acc := .rc }
def ngtPortNDelay_DELAY : RField := { lo := 0, len := 48, acc := .ro }
def ngtPortNAsym_REJECTED : RField := { lo := 48, len := 16, acc := .rc }
def ngtPortNAsym_ASYM : RField := { lo := 0, len := 32, acc := .rw }
def ngtPortNOffset_VALID : RField := { lo := 63, len := 1, acc := .ro }
def ngtPortNOffset_THETA : RField := { lo := 0, len := 48, acc := .ro }
def ngtTrigNTime_NS : RField := { lo := 0, len := 64, acc := .rw }
def ngtTrigNCtl_PERIOD_NS : RField := { lo := 32, len := 32, acc := .rw }
def ngtTrigNCtl_WIDTH_NS : RField := { lo := 16, len := 16, acc := .rw }
def ngtTrigNCtl_MISSED : RField := { lo := 5, len := 1, acc := .w1c }
def ngtTrigNCtl_POLARITY : RField := { lo := 4, len := 1, acc := .rw }
def ngtTrigNCtl_MODE : RField := { lo := 0, len := 3, acc := .rw, min := 0, max := 3 }
def ngtCaptNCtl_OVERFLOW : RField := { lo := 16, len := 16, acc := .rc }
def ngtCaptNCtl_LEVEL : RField := { lo := 3, len := 5, acc := .ro }
def ngtCaptNCtl_POP : RField := { lo := 2, len := 1, acc := .wo }
def ngtCaptNCtl_EDGE : RField := { lo := 0, len := 2, acc := .rw }
def ngtCaptNData_NS : RField := { lo := 0, len := 64, acc := .ro }
def ngtCaptNMeta_VALID : RField := { lo := 63, len := 1, acc := .ro }
def ngtCaptNMeta_RISING : RField := { lo := 62, len := 1, acc := .ro }
def ngtCaptNMeta_SEQ : RField := { lo := 16, len := 16, acc := .ro }
def ngtCaptNMeta_FRAC : RField := { lo := 0, len := 16, acc := .ro }
def ngtPtmCtl_SEQ : RField := { lo := 48, len := 16, acc := .ro }
def ngtPtmCtl_PERIOD_MS : RField := { lo := 16, len := 16, acc := .rw, reset := 10 }
def ngtPtmCtl_ACTIVE : RField := { lo := 0, len := 1, acc := .ro }
def ngtPtmHost_NS : RField := { lo := 0, len := 64, acc := .ro }
def ngtPtmNgt_NS : RField := { lo := 0, len := 64, acc := .ro }
def clkStatus_STRETCH_NOW : RField := { lo := 12, len := 4, acc := .ro }
def clkStatus_SETTING : RField := { lo := 6, len := 6, acc := .ro, reset := 42 }
def clkStatus_STATE : RField := { lo := 0, len := 3, acc := .ro, reset := 1 }
def clkDroopCtl_STEPS : RField := { lo := 12, len := 4, acc := .rw, reset := 15, min := 1, max := 15 }
def clkDroopCtl_THRESH_MV : RField := { lo := 0, len := 8, acc := .rw, reset := 30, min := 10, max := 100 }
def clkStretchLast_LOSS : RField := { lo := 32, len := 32, acc := .ro }
def clkStretchLast_CYCLES : RField := { lo := 0, len := 32, acc := .ro }
def clkStretchMax_TRANSIT : RField := { lo := 48, len := 16, acc := .rc }
def clkStretchMax_NOM : RField := { lo := 32, len := 16, acc := .rc }
def clkStretchMax_LOSS : RField := { lo := 0, len := 32, acc := .rc }
def clkDroopCount_LONGEST_NS : RField := { lo := 32, len := 32, acc := .rc }
def clkDroopCount_LAST_TRANSIT : RField := { lo := 16, len := 16, acc := .ro }
def clkDroopCount_EVENTS : RField := { lo := 0, len := 16, acc := .rc }
def clkXcal_X_OUT : RField := { lo := 8, len := 8, acc := .ro }
def clkXcal_X_IN : RField := { lo := 0, len := 8, acc := .ro }
def clkXstat_SLIP_OUT : RField := { lo := 48, len := 16, acc := .rc }
def clkXstat_SLIP_IN : RField := { lo := 32, len := 16, acc := .rc }
def clkXstat_MAX_OCC_OUT : RField := { lo := 8, len := 4, acc := .rc }
def clkXstat_MAX_OCC_IN : RField := { lo := 0, len := 4, acc := .rc }
def clkHalt_COUNT : RField := { lo := 32, len := 32, acc := .ro }
def clkHalt_LAST_NS : RField := { lo := 0, len := 16, acc := .ro }
def clkRetune_AT_TRANSIT : RField := { lo := 16, len := 48, acc := .rw }
def clkRetune_PENDING : RField := { lo := 15, len := 1, acc := .ro }
def clkRetune_REFUSED : RField := { lo := 14, len := 1, acc := .w1c }
def clkRetune_SETTING : RField := { lo := 0, len := 6, acc := .rw, reset := 42 }
def clkMinSetting_MIN : RField := { lo := 0, len := 6, acc := .rw, reset := 20, min := 20, max := 42 }
def fabCtl_MAX_FLIGHT_US : RField := { lo := 16, len := 16, acc := .rw, reset := 64, min := 1, max := 65535 }
def fabCtl_LINK_FRETS : RField := { lo := 8, len := 8, acc := .rw, min := 1, max := 255 }
def fabCtl_ENABLE : RField := { lo := 4, len := 1, acc := .rw }
def fabCtl_REPLAY_LOG2 : RField := { lo := 0, len := 4, acc := .rw, reset := 5, min := 3, max := 8 }
def fabStatus_OLD_RESIDENT : RField := { lo := 48, len := 16, acc := .ro }
def fabStatus_DELAY_OK : RField := { lo := 2, len := 1, acc := .ro }
def fabStatus_VERSION : RField := { lo := 1, len := 1, acc := .ro }
def fabStatus_ENABLED : RField := { lo := 0, len := 1, acc := .ro }
def fabEpoch_AT_TRANSIT : RField := { lo := 16, len := 48, acc := .rw }
def fabEpoch_PENDING : RField := { lo := 15, len := 1, acc := .ro }
def fabEpoch_REFUSED : RField := { lo := 14, len := 1, acc := .w1c }
def fabEpoch_DRAINED : RField := { lo := 13, len := 1, acc := .ro, reset := 1 }
def fabEpoch_CANCEL : RField := { lo := 1, len := 1, acc := .wo }
def fabEpoch_ACTIVE : RField := { lo := 0, len := 1, acc := .ro }
def fabMapCount_COUNT_V1 : RField := { lo := 32, len := 12, acc := .rw, min := 0, max := 2048 }
def fabMapCount_COUNT_V0 : RField := { lo := 0, len := 12, acc := .rw, min := 0, max := 2048 }
def fabAlign_MARGIN_EVENTS : RField := { lo := 48, len := 16, acc := .rc }
def fabAlign_MAX_RESIDUE_PS : RField := { lo := 16, len := 16, acc := .rc }
def fabAlign_LAST_RESIDUE_PS : RField := { lo := 0, len := 16, acc := .ro }
def fabCountVec_VOIDS : RField := { lo := 48, len := 16, acc := .ro }
def fabCountVec_VECTORS : RField := { lo := 32, len := 16, acc := .ro }
def fabCountVec_FILLERS : RField := { lo := 16, len := 16, acc := .ro }
def fabCountVec_REPLAYS : RField := { lo := 0, len := 16, acc := .ro }
def fabCountErr_STOMPS : RField := { lo := 48, len := 16, acc := .rc }
def fabCountErr_STOMPED_IN : RField := { lo := 32, len := 16, acc := .rc }
def fabCountErr_LATE : RField := { lo := 16, len := 16, acc := .rc }
def fabCountErr_CLASH : RField := { lo := 0, len := 16, acc := .rc }
def fabReachVT_MASK : RField := { lo := 0, len := 64, acc := .rw }
def fabMapV_ENTRY : RField := { lo := 0, len := 64, acc := .rw }
def svcCtl_STREAM_TIMEOUT_US : RField := { lo := 32, len := 32, acc := .rw, reset := 10000 }
def svcCtl_MAX_RESIDENCE_US : RField := { lo := 16, len := 16, acc := .rw, reset := 100, min := 10, max := 10000 }
def svcCtl_VC_COUNT : RField := { lo := 0, len := 4, acc := .rw, reset := 4, min := 2, max := 8 }
def svcStatus_NO_ROUTE : RField := { lo := 32, len := 14, acc := .ro }
def svcStatus_BLOCKED : RField := { lo := 0, len := 14, acc := .ro }
def svcVcWeight_W : RField := { lo := 0, len := 64, acc := .rw, reset := 72340172838076673 }
def svcPortNTraffic_OPEN_FRETS : RField := { lo := 48, len := 16, acc := .ro }
def svcPortNTraffic_USED_FRETS : RField := { lo := 32, len := 16, acc := .ro }
def svcPortNTraffic_TX_FLITS : RField := { lo := 0, len := 32, acc := .ro }
def svcPortNEvents_DISCARDS : RField := { lo := 48, len := 16, acc := .rc }
def svcPortNEvents_MAX_QUEUE : RField := { lo := 32, len := 16, acc := .rc }
def svcPortNEvents_WAIT_FRETS : RField := { lo := 0, len := 32, acc := .rc }
def svcSctxNCfg_ROUTE_BASE : RField := { lo := 52, len := 12, acc := .rw }
def svcSctxNCfg_ROUTE_CNT_M1 : RField := { lo := 50, len := 2, acc := .rw }
def svcSctxNCfg_VC : RField := { lo := 46, len := 3, acc := .rw }
def svcSctxNCfg_PEER : RField := { lo := 32, len := 14, acc := .rw }
def svcSctxNCfg_DEST : RField := { lo := 0, len := 32, acc := .rw }
def svcSctxNTx_WINDOW : RField := { lo := 48, len := 16, acc := .ro }
def svcSctxNTx_OUTSTANDING : RField := { lo := 32, len := 16, acc := .ro }
def svcSctxNTx_NEXT_SEQ : RField := { lo := 16, len := 16, acc := .ro }
def svcSctxNTx_BASE_SEQ : RField := { lo := 0, len := 16, acc := .ro }
def svcSctxNRxbuf_LIMIT_64K : RField := { lo := 48, len := 16, acc := .rw }
def svcSctxNRxbuf_BASE : RField := { lo := 0, len := 48, acc := .rw }
def svcSctxNRx_RX_WINDOW : RField := { lo := 48, len := 16, acc := .rw }
def svcSctxNRx_HELD : RField := { lo := 32, len := 16, acc := .ro }
def svcSctxNRx_RX_BASE_SEQ : RField := { lo := 16, len := 16, acc := .ro }
def svcSctxNRx_FENCED : RField := { lo := 8, len := 8, acc := .rc }
def svcSctxNRx_GRANT : RField := { lo := 3, len := 1, acc := .wo }
def svcSctxNRx_RESET : RField := { lo := 2, len := 1, acc := .wo }
def svcSctxNRx_STATE : RField := { lo := 0, len := 2, acc := .ro }
def svcRouteN_ROUTE : RField := { lo := 0, len := 64, acc := .rw }
def svcFlatN_VALID : RField := { lo := 63, len := 1, acc := .rw }
def svcFlatN_ADDR : RField := { lo := 0, len := 32, acc := .rw, min := 0, max := 2147483647 }
def svcCcntN_STATE : RField := { lo := 62, len := 2, acc := .ro }
def svcCcntN_TOTAL_SET : RField := { lo := 61, len := 1, acc := .ro }
def svcCcntN_ARM : RField := { lo := 60, len := 1, acc := .w1s }
def svcCcntN_CLEAR : RField := { lo := 59, len := 1, acc := .wo }
def svcCcntN_SET_TOTAL : RField := { lo := 58, len := 1, acc := .wo }
def svcCcntN_TOTAL : RField := { lo := 32, len := 26, acc := .rw }
def svcCcntN_COUNT : RField := { lo := 0, len := 26, acc := .ro }
def lnkCtl_FORCE_DOWN : RField := { lo := 5, len := 1, acc := .rw }
def lnkCtl_QUARANTINE : RField := { lo := 4, len := 1, acc := .rw }
def lnkCtl_GATE : RField := { lo := 3, len := 1, acc := .rw }
def lnkCtl_TRAIN : RField := { lo := 0, len := 1, acc := .wo }
def lnkStatus_DOWN_REASON : RField := { lo := 16, len := 8, acc := .ro }
def lnkStatus_TX_SPARES : RField := { lo := 14, len := 2, acc := .ro }
def lnkStatus_RX_SPARES : RField := { lo := 12, len := 2, acc := .ro }
def lnkStatus_TX_PARITY : RField := { lo := 10, len := 2, acc := .ro }
def lnkStatus_RX_PARITY : RField := { lo := 8, len := 2, acc := .ro }
def lnkStatus_PARTNER_GATE : RField := { lo := 6, len := 2, acc := .ro }
def lnkStatus_GATE : RField := { lo := 4, len := 2, acc := .ro }
def lnkStatus_STATE : RField := { lo := 0, len := 4, acc := .ro }
def lnkDownTime_US : RField := { lo := 0, len := 16, acc := .rw, reset := 100, min := 1, max := 65535 }
def lnkAckCtl_STALL_LIMIT : RField := { lo := 20, len := 4, acc := .rw, reset := 4, min := 1, max := 15 }
def lnkAckCtl_ACK_TIMEOUT_NS : RField := { lo := 0, len := 16, acc := .rw, reset := 2000, min := 100, max := 65535 }
def lnkSeq_RX_NEXT : RField := { lo := 40, len := 20, acc := .ro }
def lnkSeq_TX_OLDEST : RField := { lo := 20, len := 20, acc := .ro }
def lnkSeq_TX_NEXT : RField := { lo := 0, len := 20, acc := .ro }
def lnkReplay_TIMEOUTS : RField := { lo := 48, len := 16, acc := .rc }
def lnkReplay_REPLAYED : RField := { lo := 32, len := 16, acc := .rc }
def lnkReplay_OCCUPANCY : RField := { lo := 0, len := 14, acc := .ro }
def lnkFecCount_UNCORRECTABLE : RField := { lo := 32, len := 32, acc := .rc }
def lnkFecCount_CORRECTED : RField := { lo := 0, len := 32, acc := .rc }
def lnkErrCount_CRC_FAIL : RField := { lo := 48, len := 16, acc := .rc }
def lnkErrCount_FRAME_FAIL : RField := { lo := 32, len := 16, acc := .rc }
def lnkErrCount_NAK_SENT : RField := { lo := 16, len := 16, acc := .rc }
def lnkErrCount_NAK_RECEIVED : RField := { lo := 0, len := 16, acc := .rc }
def lnkDupCount_DISCARD_RECOVER : RField := { lo := 32, len := 32, acc := .rc }
def lnkDupCount_DUPLICATES : RField := { lo := 0, len := 32, acc := .rc }
def lnkLaneCtl_FAIL_THRESH : RField := { lo := 16, len := 16, acc := .rw, reset := 64, min := 1, max := 65535 }
def lnkLaneCtl_AUTO_SUB : RField := { lo := 5, len := 1, acc := .rw, reset := 1 }
def lnkLaneCtl_RETIRE : RField := { lo := 0, len := 5, acc := .wo }
def lnkLaneN_SYM_ERR : RField := { lo := 32, len := 32, acc := .rc }
def lnkLaneN_EYE_MV : RField := { lo := 24, len := 8, acc := .ro }
def lnkLaneN_RX_LOGICAL : RField := { lo := 16, len := 5, acc := .ro }
def lnkLaneN_TX_LOGICAL : RField := { lo := 8, len := 5, acc := .ro }
def lnkLaneN_RX_LOCK : RField := { lo := 7, len := 1, acc := .ro }
def lnkLaneN_RX_ROLE : RField := { lo := 4, len := 3, acc := .ro }
def lnkLaneN_TX_ROLE : RField := { lo := 0, len := 3, acc := .ro }
def topStatus_COORD_VALID : RField := { lo := 47, len := 1, acc := .ro }
def topStatus_TWISTED : RField := { lo := 46, len := 1, acc := .ro }
def topStatus_ALMANAC : RField := { lo := 44, len := 2, acc := .ro }
def topStatus_ADMIT : RField := { lo := 40, len := 4, acc := .ro }
def topStatus_ROLE : RField := { lo := 36, len := 4, acc := .ro }
def topStatus_COORD : RField := { lo := 0, len := 32, acc := .ro }
def topAlmanacId_ID : RField := { lo := 0, len := 64, acc := .ro }
def topAlmanacSeq_STAGED : RField := { lo := 32, len := 32, acc := .ro }
def topAlmanacSeq_ACTIVE : RField := { lo := 0, len := 32, acc := .ro }
def topPortNDisc_NBR_ADDR : RField := { lo := 32, len := 32, acc := .ro }
def topPortNDisc_NBR_PORT : RField := { lo := 24, len := 8, acc := .ro }
def topPortNDisc_NBR_SWITCH : RField := { lo := 16, len := 1, acc := .ro }
def topPortNDisc_MISSING : RField := { lo := 9, len := 1, acc := .ro }
def topPortNDisc_SEQ_SKEW : RField := { lo := 8, len := 1, acc := .ro }
def topPortNDisc_OUTCOME : RField := { lo := 0, len := 4, acc := .ro }
def topPortNNbrId_ID_LOW : RField := { lo := 0, len := 64, acc := .ro }
def secStatus_KEYS_IN_FORCE : RField := { lo := 40, len := 8, acc := .ro }
def secStatus_SVN_FUSE : RField := { lo := 28, len := 6, acc := .ro }
def secStatus_RUN_SVN : RField := { lo := 22, len := 6, acc := .ro }
def secStatus_REVOKED_IN_USE : RField := { lo := 7, len := 1, acc := .w1c }
def secStatus_RECOVERY : RField := { lo := 6, len := 1, acc := .ro }
def secStatus_BOOT_SLOT : RField := { lo := 4, len := 2, acc := .ro }
def secStatus_BOOT_STATE : RField := { lo := 0, len := 4, acc := .ro }
def secBootCtl_ADVANCE : RField := { lo := 7, len := 1, acc := .wo }
def secBootCtl_REJECT_B : RField := { lo := 6, len := 1, acc := .rw }
def secBootCtl_REJECT_A : RField := { lo := 5, len := 1, acc := .rw }
def secBootCtl_TRIES : RField := { lo := 3, len := 2, acc := .ro }
def secBootCtl_TRIAL : RField := { lo := 2, len := 1, acc := .rw }
def secBootCtl_PREF : RField := { lo := 0, len := 1, acc := .rw }
def secTrustSeq_SEQ : RField := { lo := 0, len := 64, acc := .ro }
def secIdDigestI_DIGEST : RField := { lo := 0, len := 64, acc := .ro }
def secShaStat_CHUNKS_VERIFIED : RField := { lo := 32, len := 32, acc := .rc }
def secShaStat_MISMATCHES : RField := { lo := 16, len := 16, acc := .rc }
def secShaStat_ENGINES_BUSY : RField := { lo := 0, len := 6, acc := .ro }
def devId_FW_BUILD : RField := { lo := 32, len := 32, acc := .ro }
def devId_STEPPING : RField := { lo := 16, len := 8, acc := .ro }
def devId_DEVICE : RField := { lo := 0, len := 16, acc := .ro, reset := 37504 }
def devStatus_SEALED : RField := { lo := 7, len := 1, acc := .ro }
def devStatus_STANDBY_OK : RField := { lo := 6, len := 1, acc := .ro }
def devStatus_ACTIVE_STW : RField := { lo := 5, len := 1, acc := .ro }
def devStatus_STATE : RField := { lo := 0, len := 4, acc := .ro }
def devEvent_MASK : RField := { lo := 32, len := 4, acc := .rw, reset := 15 }
def devEvent_THERMAL : RField := { lo := 3, len := 1, acc := .w1c }
def devEvent_SWITCHOVER : RField := { lo := 2, len := 1, acc := .w1c }
def devEvent_STATE_CHANGE : RField := { lo := 1, len := 1, acc := .w1c }
def devEvent_FAULT_LOGGED : RField := { lo := 0, len := 1, acc := .w1c }
def devReset_KEY : RField := { lo := 16, len := 16, acc := .wo }
def devReset_WARM : RField := { lo := 0, len := 1, acc := .wo }
def pciBar2_BASE : RField := { lo := 30, len := 10, acc := .rw }
def pciBar2_SIZE_LOG2 : RField := { lo := 0, len := 6, acc := .ro, reset := 36 }
def pciLink_BME : RField := { lo := 11, len := 1, acc := .ro }
def pciLink_UP : RField := { lo := 10, len := 1, acc := .ro }
def pciLink_WIDTH : RField := { lo := 4, len := 6, acc := .ro }
def pciLink_SPEED : RField := { lo := 0, len := 4, acc := .ro }
def mbxWinSel_CHANNEL : RField := { lo := 0, len := 6, acc := .rw }
def mbxSeal_SEAL : RField := { lo := 0, len := 1, acc := .w1s }
def mbxChnCtl_CONSUME : RField := { lo := 3, len := 1, acc := .wo }
def mbxChnCtl_REPLY : RField := { lo := 2, len := 1, acc := .wo }
def mbxChnCtl_TAKE : RField := { lo := 1, len := 1, acc := .wo }
def mbxChnCtl_SEND : RField := { lo := 0, len := 1, acc := .wo }
def mbxChnState_POSTED : RField := { lo := 32, len := 32, acc := .ro }
def mbxChnState_ERR : RField := { lo := 8, len := 8, acc := .ro }
def mbxChnState_TAKEN : RField := { lo := 2, len := 1, acc := .ro }
def mbxChnState_STATE : RField := { lo := 0, len := 2, acc := .ro }
def mbxBindN_VALID : RField := { lo := 63, len := 1, acc := .rwl }
def mbxBindN_VECTOR : RField := { lo := 48, len := 6, acc := .rwl }
def mbxBindN_RESP_FLAT : RField := { lo := 32, len := 10, acc := .rwl }
def mbxBindN_INIT_FLAT : RField := { lo := 16, len := 10, acc := .rwl }
def mbxBindN_RESP_ID : RField := { lo := 8, len := 3, acc := .rwl }
def mbxBindN_INIT_ID : RField := { lo := 0, len := 3, acc := .rwl }
def dblRingN_RING : RField := { lo := 0, len := 32, acc := .wo }
def dblMaskN_MASK : RField := { lo := 0, len := 32, acc := .rw, reset := 4294967295 }
def dblStatusN_STATUS : RField := { lo := 0, len := 32, acc := .w1c }
def enrCtl_OVER_TRANSITS : RField := { lo := 4, len := 8, acc := .rw, reset := 4, min := 1, max := 255 }
def enrCtl_AUTO : RField := { lo := 0, len := 1, acc := .rw, reset := 1 }
def enrInterval_INDEX : RField := { lo := 16, len := 48, acc := .ro }
def enrInterval_KIND : RField := { lo := 0, len := 1, acc := .ro }
def enrBudget_PENDING : RField := { lo := 63, len := 1, acc := .ro }
def enrBudget_PENDING_MW : RField := { lo := 32, len := 22, acc := .rw, min := 300000, max := 2200000 }
def enrBudget_IN_FORCE_MW : RField := { lo := 0, len := 22, acc := .ro, reset := 2200000 }
def enrBudgetAt_AT_TRANSIT : RField := { lo := 0, len := 48, acc := .rw }
def enrTokens_ADMITTED : RField := { lo := 32, len := 32, acc := .ro }
def enrTokens_BUDGET : RField := { lo := 0, len := 32, acc := .ro }
def enrOver_OVER_DECLARED : RField := { lo := 32, len := 32, acc := .rc }
def enrOver_OVER_BUDGET_RUN : RField := { lo := 0, len := 8, acc := .ro }
def enrRailMTotal_UJ : RField := { lo := 0, len := 64, acc := .ro }
def enrRailMLast_MAX_MW : RField := { lo := 32, len := 32, acc := .ro }
def enrRailMLast_UJ : RField := { lo := 0, len := 32, acc := .ro }
def pwrRailStatus_THERMTRIP : RField := { lo := 17, len := 1, acc := .ro }
def pwrRailStatus_PWRFAIL : RField := { lo := 16, len := 1, acc := .ro }
def pwrRailStatus_GOOD : RField := { lo := 0, len := 11, acc := .ro }
def pwrTherm_THROTTLED : RField := { lo := 40, len := 1, acc := .ro }
def pwrTherm_CAP : RField := { lo := 32, len := 8, acc := .ro, reset := 42 }
def pwrTherm_HBM_MAX_C : RField := { lo := 24, len := 8, acc := .ro }
def pwrTherm_DISTRICT : RField := { lo := 16, len := 8, acc := .ro }
def pwrTherm_TJ_MAX_C : RField := { lo := 0, len := 8, acc := .ro }
def pwrThermCtl_LIMIT_C : RField := { lo := 16, len := 8, acc := .rw, reset := 105, min := 90, max := 105 }
def pwrThermCtl_THROTTLE_C : RField := { lo := 8, len := 8, acc := .rw, reset := 100, min := 80, max := 105 }
def pwrThermCtl_RELEASE_C : RField := { lo := 0, len := 8, acc := .rw, reset := 95 }
def pwrSaveStatus_VKEEP_END_MV : RField := { lo := 48, len := 16, acc := .ro }
def pwrSaveStatus_VKEEP_START_MV : RField := { lo := 32, len := 16, acc := .ro }
def pwrSaveStatus_DURATION_US : RField := { lo := 16, len := 16, acc := .ro }
def pwrSaveStatus_STATE : RField := { lo := 0, len := 2, acc := .ro }
def pwrVkeep_MIN_MV : RField := { lo := 16, len := 16, acc := .rc, reset := 65535 }
def pwrVkeep_NOW_MV : RField := { lo := 0, len := 16, acc := .ro }
def pwrVfS_VCORE_MV : RField := { lo := 32, len := 16, acc := .rw, reset := 650, min := 650, max := 850 }
def pwrVfS_F : RField := { lo := 0, len := 16, acc := .rw, reset := 4096, min := 1, max := 4096 }
def ldgCtl_FAIL_HOLD_NS : RField := { lo := 32, len := 32, acc := .rw, reset := 1000 }
def ldgStatus_LAST_MISMATCH : RField := { lo := 8, len := 8, acc := .ro, reset := 255 }
def ldgStatus_RECONCILING : RField := { lo := 2, len := 1, acc := .ro }
def ldgStatus_EPOCH_MISMATCH : RField := { lo := 1, len := 1, acc := .w1c }
def ldgStatus_SUSPENDED : RField := { lo := 0, len := 1, acc := .ro }
def ldgEpoch_EPOCH : RField := { lo := 0, len := 64, acc := .rw }
def ldgCheckN_MISMATCHES : RField := { lo := 48, len := 16, acc := .rc }
def ldgCheckN_RETURNED : RField := { lo := 32, len := 16, acc := .ro }
def ldgCheckN_OUTSTANDING : RField := { lo := 0, len := 32, acc := .ro }
def rasCtl_TILE_UE_LIMIT : RField := { lo := 16, len := 16, acc := .rw, reset := 4, min := 1, max := 65535 }
def rasCtl_CE_ROW_THRESH : RField := { lo := 8, len := 8, acc := .rw, reset := 4, min := 1, max := 255 }
def rasCtl_AUTO_RETIRE : RField := { lo := 0, len := 1, acc := .rw, reset := 1 }
def rasLogStatus_DROPPED : RField := { lo := 32, len := 32, acc := .rc }
def rasLogStatus_POP : RField := { lo := 16, len := 1, acc := .wo }
def rasLogStatus_LEVEL : RField := { lo := 0, len := 9, acc := .ro }
def rasScrubCtl_PASSES : RField := { lo := 32, len := 32, acc := .ro }
def rasScrubCtl_PERIOD_S : RField := { lo := 0, len := 16, acc := .rw, reset := 3600 }
def rasLogHead_WORD : RField := { lo := 0, len := 64, acc := .ro }
def rasCapoDMap0_SLOT_i : RField := { lo := 0, len := 60, acc := .ro }
def rasCapoDMap1_DEGRADED : RField := { lo := 42, len := 1, acc := .ro }
def rasCapoDMap1_SPARE : RField := { lo := 37, len := 5, acc := .ro }
def rasCapoDMap1_RETIRED : RField := { lo := 20, len := 17, acc := .ro }
def rasCapoDMap1_SLOT_i : RField := { lo := 0, len := 20, acc := .ro }
def rasCapoDPend_AT_TRANSIT : RField := { lo := 16, len := 48, acc := .rw }
def rasCapoDPend_VALID : RField := { lo := 15, len := 1, acc := .rw }
def rasCapoDPend_SLOT : RField := { lo := 0, len := 5, acc := .rw, min := 0, max := 16 }
end F

/-- Registers of block TIL. -/
def regsTil : List RegDesc := [
  { base := 0x2000000, n1 := 544, s1 := 0x8000, n2 := 1, s2 := 0x8, fields := [F.tilCtl_POWER_GATE, F.tilCtl_STOP_AT_MERIDIAN, F.tilCtl_TILE_RESET] },
  { base := 0x2000008, n1 := 544, s1 := 0x8000, n2 := 1, s2 := 0x8, fields := [F.tilStatus_RETIRED, F.tilStatus_LOGICAL_VALID, F.tilStatus_LOGICAL_INDEX, F.tilStatus_STATE] },
  { base := 0x2000010, n1 := 544, s1 := 0x8000, n2 := 1, s2 := 0x8, fields := [F.tilPc_TRANSIT, F.tilPc_BUNDLE_ADDR] },
  { base := 0x2000018, n1 := 544, s1 := 0x8000, n2 := 1, s2 := 0x8, fields := [F.tilFaultSummary_TRANSIT, F.tilFaultSummary_CLASS, F.tilFaultSummary_BUNDLE_ADDR, F.tilFaultSummary_SLOT, F.tilFaultSummary_CODE] },
  { base := 0x2000020, n1 := 544, s1 := 0x8000, n2 := 1, s2 := 0x8, fields := [F.tilFaultExtra_COUNT] },
  { base := 0x2000028, n1 := 544, s1 := 0x8000, n2 := 1, s2 := 0x8, fields := [F.tilCycles_STALL, F.tilCycles_ACTIVE] },
  { base := 0x2000030, n1 := 544, s1 := 0x8000, n2 := 1, s2 := 0x8, fields := [F.tilSlack_MIN_NS, F.tilSlack_LAST_NS] },
  { base := 0x2000038, n1 := 544, s1 := 0x8000, n2 := 1, s2 := 0x8, fields := [F.tilMatrixPasses_MMAS, F.tilMatrixPasses_MMA] },
  { base := 0x2000040, n1 := 544, s1 := 0x8000, n2 := 1, s2 := 0x8, fields := [F.tilZgate_GATED, F.tilZgate_ELEMENTS] },
  { base := 0x2000048, n1 := 544, s1 := 0x8000, n2 := 1, s2 := 0x8, fields := [F.tilGateStats_OVERFLOW, F.tilGateStats_PLACED] },
  { base := 0x2000050, n1 := 544, s1 := 0x8000, n2 := 1, s2 := 0x8, fields := [F.tilVoids_VOID_ARRIVALS, F.tilVoids_ARRIVALS, F.tilVoids_VOID_DEPARTURES, F.tilVoids_DEPARTURES] },
  { base := 0x2000058, n1 := 544, s1 := 0x8000, n2 := 1, s2 := 0x8, fields := [F.tilTpOff_NOOPS, F.tilTpOff_CYCLES] }]

/-- Registers of block MQE. -/
def regsMqe : List RegDesc := [
  { base := 0x4000000, n1 := 32, s1 := 0x1000, n2 := 1, s2 := 0x8, fields := [F.mqeCtl_CANCEL_ALL] },
  { base := 0x4000008, n1 := 32, s1 := 0x1000, n2 := 1, s2 := 0x8, fields := [F.mqeStatus_OUTSTANDING, F.mqeStatus_RATE_SUM, F.mqeStatus_POOL_FREE] },
  { base := 0x4000100, n1 := 32, s1 := 0x1000, n2 := 64, s2 := 0x8, fields := [F.mqeQcfgN_MODE, F.mqeQcfgN_RATE, F.mqeQcfgN_DEPTH] },
  { base := 0x4000300, n1 := 32, s1 := 0x1000, n2 := 64, s2 := 0x8, fields := [F.mqeQboundN_L_FIX_WR, F.mqeQboundN_L_FIX_RD] },
  { base := 0x4000500, n1 := 32, s1 := 0x1000, n2 := 64, s2 := 0x8, fields := [F.mqeQstatN_OPS, F.mqeQstatN_MAX_LAT_NS, F.mqeQstatN_OVER_BOUND] }]

/-- Registers of block HBM. -/
def regsHbm : List RegDesc := [
  { base := 0x5000000, n1 := 8, s1 := 0x100000, n2 := 1, s2 := 0x8, fields := [F.hbmStatus_PC_LOST, F.hbmStatus_TEMP_C, F.hbmStatus_REFRESH_2X, F.hbmStatus_STATE] },
  { base := 0x5000008, n1 := 8, s1 := 0x100000, n2 := 1, s2 := 0x8, fields := [F.hbmEccCount_UNCORRECTABLE, F.hbmEccCount_CORRECTED] },
  { base := 0x5000010, n1 := 8, s1 := 0x100000, n2 := 1, s2 := 0x8, fields := [F.hbmScrubCtl_PERIOD_H] },
  { base := 0x5000018, n1 := 8, s1 := 0x100000, n2 := 1, s2 := 0x8, fields := [F.hbmScrubStatus_PASSES, F.hbmScrubStatus_POSITION] },
  { base := 0x5000100, n1 := 8, s1 := 0x100000, n2 := 32, s2 := 0x8, fields := [F.hbmRemapN_VALID, F.hbmRemapN_PC, F.hbmRemapN_ROW] }]

/-- Registers of block NGT. -/
def regsNgt : List RegDesc := [
  { base := 0x30000, n1 := 1, s1 := 0x10000000, n2 := 1, s2 := 0x8, fields := [F.ngtNow_NS] },
  { base := 0x30008, n1 := 1, s1 := 0x10000000, n2 := 1, s2 := 0x8, fields := [F.ngtNowLatch_NS_HI, F.ngtNowLatch_FRAC] },
  { base := 0x30010, n1 := 1, s1 := 0x10000000, n2 := 1, s2 := 0x8, fields := [F.ngtEpochId_ID] },
  { base := 0x30018, n1 := 1, s1 := 0x10000000, n2 := 1, s2 := 0x8, fields := [F.ngtTransit_T] },
  { base := 0x30020, n1 := 1, s1 := 0x10000000, n2 := 1, s2 := 0x8, fields := [F.ngtPeriod_VALID, F.ngtPeriod_N] },
  { base := 0x30028, n1 := 1, s1 := 0x10000000, n2 := 1, s2 := 0x8, fields := [F.ngtStatus_DEPTH, F.ngtStatus_PPS_B_OK, F.ngtStatus_PPS_A_OK, F.ngtStatus_DOMAIN_B, F.ngtStatus_DOMAIN_A, F.ngtStatus_ACTIVE, F.ngtStatus_STATE] },
  { base := 0x30030, n1 := 1, s1 := 0x10000000, n2 := 1, s2 := 0x8, fields := [F.ngtRole_SWITCH_LIMIT_PS, F.ngtRole_PARENT_B, F.ngtRole_PARENT_A, F.ngtRole_SWITCH_REQ, F.ngtRole_AUTO_SWITCH, F.ngtRole_PPS_B_USE, F.ngtRole_PPS_A_USE, F.ngtRole_MASTER_B, F.ngtRole_MASTER_A] },
  { base := 0x30040, n1 := 1, s1 := 0x10000000, n2 := 1, s2 := 0x8, fields := [F.ngtServoCtl_SLEW_LIMIT_PPB, F.ngtServoCtl_KI_SHIFT, F.ngtServoCtl_KP_SHIFT, F.ngtServoCtl_FREEZE, F.ngtServoCtl_STEP_ENABLE, F.ngtServoCtl_ENABLE] },
  { base := 0x30048, n1 := 1, s1 := 0x10000000, n2 := 1, s2 := 0x8, fields := [F.ngtServoThresh_STEP_NS, F.ngtServoThresh_OUTLIER_PS, F.ngtServoThresh_UNLOCK_PS, F.ngtServoThresh_LOCK_PS] },
  { base := 0x30050, n1 := 1, s1 := 0x10000000, n2 := 1, s2 := 0x8, fields := [F.ngtRate_INTEG, F.ngtRate_Y] },
  { base := 0x30058, n1 := 1, s1 := 0x10000000, n2 := 2, s2 := 0x8, fields := [F.ngtOffsetD_VALID, F.ngtOffsetD_OFFSET] },
  { base := 0x30068, n1 := 1, s1 := 0x10000000, n2 := 1, s2 := 0x8, fields := [F.ngtHoldover_ELAPSED_MS, F.ngtHoldover_UNC_PS_PER_S, F.ngtHoldover_BUDGET_PS] },
  { base := 0x30070, n1 := 1, s1 := 0x10000000, n2 := 1, s2 := 0x8, fields := [F.ngtPpsCtl_OFFSET_NS, F.ngtPpsCtl_EDGE] },
  { base := 0x30100, n1 := 1, s1 := 0x10000000, n2 := 8, s2 := 0x10, fields := [F.ngtPortNDelay_MISSED, F.ngtPortNDelay_DELAY] },
  { base := 0x30108, n1 := 1, s1 := 0x10000000, n2 := 8, s2 := 0x10, fields := [F.ngtPortNAsym_REJECTED, F.ngtPortNAsym_ASYM] },
  { base := 0x30180, n1 := 1, s1 := 0x10000000, n2 := 8, s2 := 0x8, fields := [F.ngtPortNOffset_VALID, F.ngtPortNOffset_THETA] },
  { base := 0x30200, n1 := 1, s1 := 0x10000000, n2 := 4, s2 := 0x20, fields := [F.ngtTrigNTime_NS] },
  { base := 0x30208, n1 := 1, s1 := 0x10000000, n2 := 4, s2 := 0x20, fields := [F.ngtTrigNCtl_PERIOD_NS, F.ngtTrigNCtl_WIDTH_NS, F.ngtTrigNCtl_MISSED, F.ngtTrigNCtl_POLARITY, F.ngtTrigNCtl_MODE] },
  { base := 0x30300, n1 := 1, s1 := 0x10000000, n2 := 4, s2 := 0x20, fields := [F.ngtCaptNCtl_OVERFLOW, F.ngtCaptNCtl_LEVEL, F.ngtCaptNCtl_POP, F.ngtCaptNCtl_EDGE] },
  { base := 0x30308, n1 := 1, s1 := 0x10000000, n2 := 4, s2 := 0x20, fields := [F.ngtCaptNData_NS] },
  { base := 0x30310, n1 := 1, s1 := 0x10000000, n2 := 4, s2 := 0x20, fields := [F.ngtCaptNMeta_VALID, F.ngtCaptNMeta_RISING, F.ngtCaptNMeta_SEQ, F.ngtCaptNMeta_FRAC] },
  { base := 0x30400, n1 := 1, s1 := 0x10000000, n2 := 1, s2 := 0x8, fields := [F.ngtPtmCtl_SEQ, F.ngtPtmCtl_PERIOD_MS, F.ngtPtmCtl_ACTIVE] },
  { base := 0x30408, n1 := 1, s1 := 0x10000000, n2 := 1, s2 := 0x8, fields := [F.ngtPtmHost_NS] },
  { base := 0x30410, n1 := 1, s1 := 0x10000000, n2 := 1, s2 := 0x8, fields := [F.ngtPtmNgt_NS] }]

/-- Registers of block CLK. -/
def regsClk : List RegDesc := [
  { base := 0x1000000, n1 := 32, s1 := 0x1000, n2 := 1, s2 := 0x8, fields := [F.clkStatus_STRETCH_NOW, F.clkStatus_SETTING, F.clkStatus_STATE] },
  { base := 0x1000008, n1 := 32, s1 := 0x1000, n2 := 1, s2 := 0x8, fields := [F.clkDroopCtl_STEPS, F.clkDroopCtl_THRESH_MV] },
  { base := 0x1000010, n1 := 32, s1 := 0x1000, n2 := 1, s2 := 0x8, fields := [F.clkStretchLast_LOSS, F.clkStretchLast_CYCLES] },
  { base := 0x1000018, n1 := 32, s1 := 0x1000, n2 := 1, s2 := 0x8, fields := [F.clkStretchMax_TRANSIT, F.clkStretchMax_NOM, F.clkStretchMax_LOSS] },
  { base := 0x1000020, n1 := 32, s1 := 0x1000, n2 := 1, s2 := 0x8, fields := [F.clkDroopCount_LONGEST_NS, F.clkDroopCount_LAST_TRANSIT, F.clkDroopCount_EVENTS] },
  { base := 0x1000028, n1 := 32, s1 := 0x1000, n2 := 1, s2 := 0x8, fields := [F.clkXcal_X_OUT, F.clkXcal_X_IN] },
  { base := 0x1000030, n1 := 32, s1 := 0x1000, n2 := 1, s2 := 0x8, fields := [F.clkXstat_SLIP_OUT, F.clkXstat_SLIP_IN, F.clkXstat_MAX_OCC_OUT, F.clkXstat_MAX_OCC_IN] },
  { base := 0x1000038, n1 := 32, s1 := 0x1000, n2 := 1, s2 := 0x8, fields := [F.clkHalt_COUNT, F.clkHalt_LAST_NS] },
  { base := 0x1000100, n1 := 32, s1 := 0x1000, n2 := 1, s2 := 0x8, fields := [F.clkRetune_AT_TRANSIT, F.clkRetune_PENDING, F.clkRetune_REFUSED, F.clkRetune_SETTING] },
  { base := 0x1000108, n1 := 32, s1 := 0x1000, n2 := 1, s2 := 0x8, fields := [F.clkMinSetting_MIN] }]

/-- Registers of block FAB. -/
def regsFab : List RegDesc := [
  { base := 0x6000000, n1 := 8, s1 := 0x10000, n2 := 1, s2 := 0x8, fields := [F.fabCtl_MAX_FLIGHT_US, F.fabCtl_LINK_FRETS, F.fabCtl_ENABLE, F.fabCtl_REPLAY_LOG2] },
  { base := 0x6000008, n1 := 8, s1 := 0x10000, n2 := 1, s2 := 0x8, fields := [F.fabStatus_OLD_RESIDENT, F.fabStatus_DELAY_OK, F.fabStatus_VERSION, F.fabStatus_ENABLED] },
  { base := 0x6000010, n1 := 8, s1 := 0x10000, n2 := 1, s2 := 0x8, fields := [F.fabEpoch_AT_TRANSIT, F.fabEpoch_PENDING, F.fabEpoch_REFUSED, F.fabEpoch_DRAINED, F.fabEpoch_CANCEL, F.fabEpoch_ACTIVE] },
  { base := 0x6000018, n1 := 8, s1 := 0x10000, n2 := 1, s2 := 0x8, fields := [F.fabMapCount_COUNT_V1, F.fabMapCount_COUNT_V0] },
  { base := 0x6000020, n1 := 8, s1 := 0x10000, n2 := 1, s2 := 0x8, fields := [F.fabAlign_MARGIN_EVENTS, F.fabAlign_MAX_RESIDUE_PS, F.fabAlign_LAST_RESIDUE_PS] },
  { base := 0x6000028, n1 := 8, s1 := 0x10000, n2 := 1, s2 := 0x8, fields := [F.fabCountVec_VOIDS, F.fabCountVec_VECTORS, F.fabCountVec_FILLERS, F.fabCountVec_REPLAYS] },
  { base := 0x6000030, n1 := 8, s1 := 0x10000, n2 := 1, s2 := 0x8, fields := [F.fabCountErr_STOMPS, F.fabCountErr_STOMPED_IN, F.fabCountErr_LATE, F.fabCountErr_CLASH] },
  { base := 0x6000100, n1 := 8, s1 := 0x10000, n2 := 32, s2 := 0x8, fields := [F.fabReachVT_MASK] },
  { base := 0x6004000, n1 := 8, s1 := 0x10000, n2 := 4096, s2 := 0x8, fields := [F.fabMapV_ENTRY] }]

/-- Registers of block SVC. -/
def regsSvc : List RegDesc := [
  { base := 0x8000000, n1 := 1, s1 := 0x10000000, n2 := 1, s2 := 0x8, fields := [F.svcCtl_STREAM_TIMEOUT_US, F.svcCtl_MAX_RESIDENCE_US, F.svcCtl_VC_COUNT] },
  { base := 0x8000008, n1 := 1, s1 := 0x10000000, n2 := 1, s2 := 0x8, fields := [F.svcStatus_NO_ROUTE, F.svcStatus_BLOCKED] },
  { base := 0x8000010, n1 := 1, s1 := 0x10000000, n2 := 1, s2 := 0x8, fields := [F.svcVcWeight_W] },
  { base := 0x8000100, n1 := 1, s1 := 0x10000000, n2 := 8, s2 := 0x10, fields := [F.svcPortNTraffic_OPEN_FRETS, F.svcPortNTraffic_USED_FRETS, F.svcPortNTraffic_TX_FLITS] },
  { base := 0x8000108, n1 := 1, s1 := 0x10000000, n2 := 8, s2 := 0x10, fields := [F.svcPortNEvents_DISCARDS, F.svcPortNEvents_MAX_QUEUE, F.svcPortNEvents_WAIT_FRETS] },
  { base := 0x8100000, n1 := 1, s1 := 0x10000000, n2 := 16384, s2 := 0x20, fields := [F.svcSctxNCfg_ROUTE_BASE, F.svcSctxNCfg_ROUTE_CNT_M1, F.svcSctxNCfg_VC, F.svcSctxNCfg_PEER, F.svcSctxNCfg_DEST] },
  { base := 0x8100008, n1 := 1, s1 := 0x10000000, n2 := 16384, s2 := 0x20, fields := [F.svcSctxNTx_WINDOW, F.svcSctxNTx_OUTSTANDING, F.svcSctxNTx_NEXT_SEQ, F.svcSctxNTx_BASE_SEQ] },
  { base := 0x8100010, n1 := 1, s1 := 0x10000000, n2 := 16384, s2 := 0x20, fields := [F.svcSctxNRxbuf_LIMIT_64K, F.svcSctxNRxbuf_BASE] },
  { base := 0x8100018, n1 := 1, s1 := 0x10000000, n2 := 16384, s2 := 0x20, fields := [F.svcSctxNRx_RX_WINDOW, F.svcSctxNRx_HELD, F.svcSctxNRx_RX_BASE_SEQ, F.svcSctxNRx_FENCED, F.svcSctxNRx_GRANT, F.svcSctxNRx_RESET, F.svcSctxNRx_STATE] },
  { base := 0x8200000, n1 := 1, s1 := 0x10000000, n2 := 4096, s2 := 0x8, fields := [F.svcRouteN_ROUTE] },
  { base := 0x8280000, n1 := 1, s1 := 0x10000000, n2 := 1024, s2 := 0x8, fields := [F.svcFlatN_VALID, F.svcFlatN_ADDR] },
  { base := 0x8300000, n1 := 1, s1 := 0x10000000, n2 := 4096, s2 := 0x8, fields := [F.svcCcntN_STATE, F.svcCcntN_TOTAL_SET, F.svcCcntN_ARM, F.svcCcntN_CLEAR, F.svcCcntN_SET_TOTAL, F.svcCcntN_TOTAL, F.svcCcntN_COUNT] }]

/-- Registers of block LNK. -/
def regsLnk : List RegDesc := [
  { base := 0x7000000, n1 := 8, s1 := 0x10000, n2 := 1, s2 := 0x8, fields := [F.lnkCtl_FORCE_DOWN, F.lnkCtl_QUARANTINE, F.lnkCtl_GATE, F.lnkCtl_TRAIN] },
  { base := 0x7000008, n1 := 8, s1 := 0x10000, n2 := 1, s2 := 0x8, fields := [F.lnkStatus_DOWN_REASON, F.lnkStatus_TX_SPARES, F.lnkStatus_RX_SPARES, F.lnkStatus_TX_PARITY, F.lnkStatus_RX_PARITY, F.lnkStatus_PARTNER_GATE, F.lnkStatus_GATE, F.lnkStatus_STATE] },
  { base := 0x7000010, n1 := 8, s1 := 0x10000, n2 := 1, s2 := 0x8, fields := [F.lnkDownTime_US] },
  { base := 0x7000018, n1 := 8, s1 := 0x10000, n2 := 1, s2 := 0x8, fields := [F.lnkAckCtl_STALL_LIMIT, F.lnkAckCtl_ACK_TIMEOUT_NS] },
  { base := 0x7000020, n1 := 8, s1 := 0x10000, n2 := 1, s2 := 0x8, fields := [F.lnkSeq_RX_NEXT, F.lnkSeq_TX_OLDEST, F.lnkSeq_TX_NEXT] },
  { base := 0x7000028, n1 := 8, s1 := 0x10000, n2 := 1, s2 := 0x8, fields := [F.lnkReplay_TIMEOUTS, F.lnkReplay_REPLAYED, F.lnkReplay_OCCUPANCY] },
  { base := 0x7000030, n1 := 8, s1 := 0x10000, n2 := 1, s2 := 0x8, fields := [F.lnkFecCount_UNCORRECTABLE, F.lnkFecCount_CORRECTED] },
  { base := 0x7000038, n1 := 8, s1 := 0x10000, n2 := 1, s2 := 0x8, fields := [F.lnkErrCount_CRC_FAIL, F.lnkErrCount_FRAME_FAIL, F.lnkErrCount_NAK_SENT, F.lnkErrCount_NAK_RECEIVED] },
  { base := 0x7000040, n1 := 8, s1 := 0x10000, n2 := 1, s2 := 0x8, fields := [F.lnkDupCount_DISCARD_RECOVER, F.lnkDupCount_DUPLICATES] },
  { base := 0x7000048, n1 := 8, s1 := 0x10000, n2 := 1, s2 := 0x8, fields := [F.lnkLaneCtl_FAIL_THRESH, F.lnkLaneCtl_AUTO_SUB, F.lnkLaneCtl_RETIRE] },
  { base := 0x7000100, n1 := 8, s1 := 0x10000, n2 := 30, s2 := 0x8, fields := [F.lnkLaneN_SYM_ERR, F.lnkLaneN_EYE_MV, F.lnkLaneN_RX_LOGICAL, F.lnkLaneN_TX_LOGICAL, F.lnkLaneN_RX_LOCK, F.lnkLaneN_RX_ROLE, F.lnkLaneN_TX_ROLE] }]

/-- Registers of block TOP. -/
def regsTop : List RegDesc := [
  { base := 0x9000000, n1 := 1, s1 := 0x10000000, n2 := 1, s2 := 0x8, fields := [F.topStatus_COORD_VALID, F.topStatus_TWISTED, F.topStatus_ALMANAC, F.topStatus_ADMIT, F.topStatus_ROLE, F.topStatus_COORD] },
  { base := 0x9000008, n1 := 1, s1 := 0x10000000, n2 := 1, s2 := 0x8, fields := [F.topAlmanacId_ID] },
  { base := 0x9000010, n1 := 1, s1 := 0x10000000, n2 := 1, s2 := 0x8, fields := [F.topAlmanacSeq_STAGED, F.topAlmanacSeq_ACTIVE] },
  { base := 0x9000100, n1 := 1, s1 := 0x10000000, n2 := 8, s2 := 0x10, fields := [F.topPortNDisc_NBR_ADDR, F.topPortNDisc_NBR_PORT, F.topPortNDisc_NBR_SWITCH, F.topPortNDisc_MISSING, F.topPortNDisc_SEQ_SKEW, F.topPortNDisc_OUTCOME] },
  { base := 0x9000108, n1 := 1, s1 := 0x10000000, n2 := 8, s2 := 0x10, fields := [F.topPortNNbrId_ID_LOW] }]

/-- Registers of block SEC. -/
def regsSec : List RegDesc := [
  { base := 0xC000000, n1 := 1, s1 := 0x10000000, n2 := 1, s2 := 0x8, fields := [F.secStatus_KEYS_IN_FORCE, F.secStatus_SVN_FUSE, F.secStatus_RUN_SVN, F.secStatus_REVOKED_IN_USE, F.secStatus_RECOVERY, F.secStatus_BOOT_SLOT, F.secStatus_BOOT_STATE] },
  { base := 0xC000008, n1 := 1, s1 := 0x10000000, n2 := 1, s2 := 0x8, fields := [F.secBootCtl_ADVANCE, F.secBootCtl_REJECT_B, F.secBootCtl_REJECT_A, F.secBootCtl_TRIES, F.secBootCtl_TRIAL, F.secBootCtl_PREF] },
  { base := 0xC000010, n1 := 1, s1 := 0x10000000, n2 := 1, s2 := 0x8, fields := [F.secTrustSeq_SEQ] },
  { base := 0xC000020, n1 := 1, s1 := 0x10000000, n2 := 4, s2 := 0x8, fields := [F.secIdDigestI_DIGEST] },
  { base := 0xC000040, n1 := 1, s1 := 0x10000000, n2 := 1, s2 := 0x8, fields := [F.secShaStat_CHUNKS_VERIFIED, F.secShaStat_MISMATCHES, F.secShaStat_ENGINES_BUSY] }]

/-- Registers of block DEV. -/
def regsDev : List RegDesc := [
  { base := 0x0, n1 := 1, s1 := 0x10000000, n2 := 1, s2 := 0x8, fields := [F.devId_FW_BUILD, F.devId_STEPPING, F.devId_DEVICE] },
  { base := 0x8, n1 := 1, s1 := 0x10000000, n2 := 1, s2 := 0x8, fields := [F.devStatus_SEALED, F.devStatus_STANDBY_OK, F.devStatus_ACTIVE_STW, F.devStatus_STATE] },
  { base := 0x10, n1 := 1, s1 := 0x10000000, n2 := 1, s2 := 0x8, fields := [F.devEvent_MASK, F.devEvent_THERMAL, F.devEvent_SWITCHOVER, F.devEvent_STATE_CHANGE, F.devEvent_FAULT_LOGGED] },
  { base := 0x18, n1 := 1, s1 := 0x10000000, n2 := 1, s2 := 0x8, fields := [F.devReset_KEY, F.devReset_WARM] }]

/-- Registers of block PCI. -/
def regsPci : List RegDesc := [
  { base := 0x50000, n1 := 1, s1 := 0x10000000, n2 := 1, s2 := 0x8, fields := [F.pciBar2_BASE, F.pciBar2_SIZE_LOG2] },
  { base := 0x50008, n1 := 1, s1 := 0x10000000, n2 := 1, s2 := 0x8, fields := [F.pciLink_BME, F.pciLink_UP, F.pciLink_WIDTH, F.pciLink_SPEED] }]

/-- Registers of block MBX. -/
def regsMbx : List RegDesc := [
  { base := 0x11000, n1 := 1, s1 := 0x10000000, n2 := 1, s2 := 0x8, fields := [F.mbxWinSel_CHANNEL] },
  { base := 0x11008, n1 := 1, s1 := 0x10000000, n2 := 1, s2 := 0x8, fields := [F.mbxSeal_SEAL] },
  { base := 0x12000, n1 := 1, s1 := 0x10000000, n2 := 64, s2 := 0x10, fields := [F.mbxChnCtl_CONSUME, F.mbxChnCtl_REPLY, F.mbxChnCtl_TAKE, F.mbxChnCtl_SEND] },
  { base := 0x12008, n1 := 1, s1 := 0x10000000, n2 := 64, s2 := 0x10, fields := [F.mbxChnState_POSTED, F.mbxChnState_ERR, F.mbxChnState_TAKEN, F.mbxChnState_STATE] },
  { base := 0x13000, n1 := 1, s1 := 0x10000000, n2 := 64, s2 := 0x8, fields := [F.mbxBindN_VALID, F.mbxBindN_VECTOR, F.mbxBindN_RESP_FLAT, F.mbxBindN_INIT_FLAT, F.mbxBindN_RESP_ID, F.mbxBindN_INIT_ID] }]

/-- Registers of block DBL. -/
def regsDbl : List RegDesc := [
  { base := 0x20000, n1 := 1, s1 := 0x10000000, n2 := 64, s2 := 0x20, fields := [F.dblRingN_RING] },
  { base := 0x20008, n1 := 1, s1 := 0x10000000, n2 := 64, s2 := 0x20, fields := [F.dblMaskN_MASK] },
  { base := 0x20010, n1 := 1, s1 := 0x10000000, n2 := 64, s2 := 0x20, fields := [F.dblStatusN_STATUS] }]

/-- Registers of block ENR. -/
def regsEnr : List RegDesc := [
  { base := 0x40000, n1 := 1, s1 := 0x10000000, n2 := 1, s2 := 0x8, fields := [F.enrCtl_OVER_TRANSITS, F.enrCtl_AUTO] },
  { base := 0x40008, n1 := 1, s1 := 0x10000000, n2 := 1, s2 := 0x8, fields := [F.enrInterval_INDEX, F.enrInterval_KIND] },
  { base := 0x40010, n1 := 1, s1 := 0x10000000, n2 := 1, s2 := 0x8, fields := [F.enrBudget_PENDING, F.enrBudget_PENDING_MW, F.enrBudget_IN_FORCE_MW] },
  { base := 0x40018, n1 := 1, s1 := 0x10000000, n2 := 1, s2 := 0x8, fields := [F.enrBudgetAt_AT_TRANSIT] },
  { base := 0x40020, n1 := 1, s1 := 0x10000000, n2 := 1, s2 := 0x8, fields := [F.enrTokens_ADMITTED, F.enrTokens_BUDGET] },
  { base := 0x40028, n1 := 1, s1 := 0x10000000, n2 := 1, s2 := 0x8, fields := [F.enrOver_OVER_DECLARED, F.enrOver_OVER_BUDGET_RUN] },
  { base := 0x40100, n1 := 1, s1 := 0x10000000, n2 := 12, s2 := 0x10, fields := [F.enrRailMTotal_UJ] },
  { base := 0x40108, n1 := 1, s1 := 0x10000000, n2 := 12, s2 := 0x10, fields := [F.enrRailMLast_MAX_MW, F.enrRailMLast_UJ] }]

/-- Registers of block PWR. -/
def regsPwr : List RegDesc := [
  { base := 0xD000000, n1 := 1, s1 := 0x10000000, n2 := 1, s2 := 0x8, fields := [F.pwrRailStatus_THERMTRIP, F.pwrRailStatus_PWRFAIL, F.pwrRailStatus_GOOD] },
  { base := 0xD000010, n1 := 1, s1 := 0x10000000, n2 := 1, s2 := 0x8, fields := [F.pwrTherm_THROTTLED, F.pwrTherm_CAP, F.pwrTherm_HBM_MAX_C, F.pwrTherm_DISTRICT, F.pwrTherm_TJ_MAX_C] },
  { base := 0xD000018, n1 := 1, s1 := 0x10000000, n2 := 1, s2 := 0x8, fields := [F.pwrThermCtl_LIMIT_C, F.pwrThermCtl_THROTTLE_C, F.pwrThermCtl_RELEASE_C] },
  { base := 0xD000020, n1 := 1, s1 := 0x10000000, n2 := 1, s2 := 0x8, fields := [F.pwrSaveStatus_VKEEP_END_MV, F.pwrSaveStatus_VKEEP_START_MV, F.pwrSaveStatus_DURATION_US, F.pwrSaveStatus_STATE] },
  { base := 0xD000028, n1 := 1, s1 := 0x10000000, n2 := 1, s2 := 0x8, fields := [F.pwrVkeep_MIN_MV, F.pwrVkeep_NOW_MV] },
  { base := 0xD000100, n1 := 1, s1 := 0x10000000, n2 := 23, s2 := 0x8, fields := [F.pwrVfS_VCORE_MV, F.pwrVfS_F] }]

/-- Registers of block LDG. -/
def regsLdg : List RegDesc := [
  { base := 0xA000000, n1 := 1, s1 := 0x10000000, n2 := 1, s2 := 0x8, fields := [F.ldgCtl_FAIL_HOLD_NS] },
  { base := 0xA000008, n1 := 1, s1 := 0x10000000, n2 := 1, s2 := 0x8, fields := [F.ldgStatus_LAST_MISMATCH, F.ldgStatus_RECONCILING, F.ldgStatus_EPOCH_MISMATCH, F.ldgStatus_SUSPENDED] },
  { base := 0xA000010, n1 := 1, s1 := 0x10000000, n2 := 1, s2 := 0x8, fields := [F.ldgEpoch_EPOCH] },
  { base := 0xA000100, n1 := 1, s1 := 0x10000000, n2 := 8, s2 := 0x8, fields := [F.ldgCheckN_MISMATCHES, F.ldgCheckN_RETURNED, F.ldgCheckN_OUTSTANDING] }]

/-- Registers of block RAS. -/
def regsRas : List RegDesc := [
  { base := 0xB000000, n1 := 1, s1 := 0x10000000, n2 := 1, s2 := 0x8, fields := [F.rasCtl_TILE_UE_LIMIT, F.rasCtl_CE_ROW_THRESH, F.rasCtl_AUTO_RETIRE] },
  { base := 0xB000008, n1 := 1, s1 := 0x10000000, n2 := 1, s2 := 0x8, fields := [F.rasLogStatus_DROPPED, F.rasLogStatus_POP, F.rasLogStatus_LEVEL] },
  { base := 0xB000010, n1 := 1, s1 := 0x10000000, n2 := 1, s2 := 0x8, fields := [F.rasScrubCtl_PASSES, F.rasScrubCtl_PERIOD_S] },
  { base := 0xB000040, n1 := 1, s1 := 0x10000000, n2 := 8, s2 := 0x8, fields := [F.rasLogHead_WORD] },
  { base := 0xB001000, n1 := 1, s1 := 0x10000000, n2 := 32, s2 := 0x20, fields := [F.rasCapoDMap0_SLOT_i] },
  { base := 0xB001008, n1 := 1, s1 := 0x10000000, n2 := 32, s2 := 0x20, fields := [F.rasCapoDMap1_DEGRADED, F.rasCapoDMap1_SPARE, F.rasCapoDMap1_RETIRED, F.rasCapoDMap1_SLOT_i] },
  { base := 0xB001010, n1 := 1, s1 := 0x10000000, n2 := 32, s2 := 0x20, fields := [F.rasCapoDPend_AT_TRANSIT, F.rasCapoDPend_VALID, F.rasCapoDPend_SLOT] }]

/-- The block of an offset (R29). -/
def blockOf (off : Nat) : List RegDesc :=
  if off ≥ 0xD000000 then regsPwr else
  if off ≥ 0xC000000 then regsSec else
  if off ≥ 0xB000000 then regsRas else
  if off ≥ 0xA000000 then regsLdg else
  if off ≥ 0x9000000 then regsTop else
  if off ≥ 0x8000000 then regsSvc else
  if off ≥ 0x7000000 then regsLnk else
  if off ≥ 0x6000000 then regsFab else
  if off ≥ 0x5000000 then regsHbm else
  if off ≥ 0x4000000 then regsMqe else
  if off ≥ 0x2000000 then regsTil else
  if off ≥ 0x1000000 then regsClk else
  if off ≥ 0x50000 then regsPci else
  if off ≥ 0x40000 then regsEnr else
  if off ≥ 0x30000 then regsNgt else
  if off ≥ 0x20000 then regsDbl else
  if off ≥ 0x10000 then regsMbx else
   regsDev

/-- Whether a register occupies an offset. -/
def RegDesc.owns (d : RegDesc) (off : Nat) : Bool :=
  let r := off - d.base
  d.base ≤ off && r / d.s1 < d.n1 && (r % d.s1) / d.s2 < d.n2 && (r % d.s1) % d.s2 == 0

/-- The register at an offset, none where nothing is assigned (R29, R30). -/
def findReg (off : Nat) : Option RegDesc := (blockOf off).find? (·.owns off)

/-- The reset value of a register. -/
def RegDesc.resetWord (d : RegDesc) : BitVec 64 :=
  BitVec.ofNat 64 (d.fields.foldl (fun v f => v + f.reset % 2 ^ f.len * 2 ^ f.lo) 0)

/-- What an unlisted offset reads as: the reset value, 0 where nothing is assigned. -/
def regReset (off : Nat) : BitVec 64 :=
  match findReg off with
  | some d => d.resetWord
  | none => 0

end Sys2Proof.Machine
end

