-- ==== Sys2Proof/Machine/Flags.lean ====
section
/-!
DEFINITION. What a read and a write do to the fields of a register by their access codes (00, R6 to R8), and the bytes an
access covers.
-/
namespace Sys2Proof.Machine

/-- Bits of a register that an access covers. -/
def spanOf : Half → Nat
  | .full => 2 ^ 64 - 1
  | .low => 2 ^ 32 - 1
  | .high => 2 ^ 64 - 2 ^ 32

/-- Bytes a read returns from the register's word. -/
def readBytes : Half → Nat → List Byte
  | .full, w => leBytes 8 w
  | .low, w => leBytes 4 w
  | .high, w => leBytes 4 (w / 2 ^ 32)

/-- Data of a write at the bits they go to: a 32-bit access carries them in bits 31:0. -/
def spread : Half → Nat → Nat
  | .full, v => v % 2 ^ 64
  | .low, v => v % 2 ^ 32
  | .high, v => v % 2 ^ 32 * 2 ^ 32

/-- The field's value in a word. -/
def RField.of (f : RField) (w : Nat) : Nat := field w f.lo f.len

/-- A word with the field set. -/
def RField.put (f : RField) (w v : Nat) : Nat := putField w f.lo f.len v

/-- Whether an access covers any bit of the field. -/
def RField.met (f : RField) (span : Nat) : Bool := f.of span != 0

/-- What a read shows: a WO field reads 0 (R6). -/
def RegDesc.shown (d : RegDesc) (w : Nat) : Nat := d.fields.foldl (fun v f => if f.acc == .wo then f.put v 0 else v) w

/-- What a read leaves: an RC field it covers returns to its reset value (R6, R8). -/
def RegDesc.afterRead (d : RegDesc) (w span : Nat) : Nat :=
  d.fields.foldl (fun v f => if f.acc == .rc && f.met span then f.put v f.reset else v) w

/-- The value a write asks of a field: an RW or RWL field keeps the bits the access does not cover; to the other codes those bits
are 0. -/
def RField.ask (f : RField) (w v span : Nat) : Nat :=
  match f.acc with
  | .rw | .rwl => f.of ((w &&& (2 ^ 64 - 1 - span)) ||| (v &&& span))
  | .wo | .w1c | .w1s => f.of (v &&& span)
  | .ro | .rc => f.of w

/-- What a write asks of the whole register. -/
def RegDesc.asked (d : RegDesc) (w v span : Nat) : Nat := d.fields.foldl (fun a f => f.put a (f.ask w v span)) 0

/-- A field after a write (R6): a reserved value, or one outside a stated range, leaves it unchanged. -/
def RField.next (f : RField) (old ask : Nat) : Nat :=
  match f.acc with
  | .rw | .rwl => if f.min ≤ ask ∧ ask ≤ f.max then ask else old
  | .w1c => old &&& (2 ^ f.len - 1 - ask)
  | .w1s => old ||| ask
  | .ro | .wo | .rc => old

/-- A register after a write that acts by its access codes alone. -/
def RegDesc.next (d : RegDesc) (w a : Nat) : Nat := d.fields.foldl (fun v f => f.put v (f.next (f.of w) (f.of a))) w

end Sys2Proof.Machine
end

