-- ==== Sys2Proof/Machine/Operands.lean ====
section
/-!
DEFINITION. Operand forms the units share: checksums, the fields of packet headers (R304, R334, R335), route entries
(R305) and endpoint addresses (R337, R338).
-/
namespace Sys2Proof.Machine

/-! ## Checksums -/

/-- One byte of a reflected CRC of 32 bits with polynomial `poly`. -/
def crcStep (poly : Nat) (c : Nat) (b : Byte) : Nat :=
  (List.range 8).foldl (fun r _ => if r % 2 = 1 then Nat.xor (r / 2) poly else r / 2) (Nat.xor c b.toNat)

/-- A reflected CRC-32: preset and final inversion of all ones. -/
def crc32 (poly : Nat) (bs : List Byte) : Nat := Nat.xor 0xFFFFFFFF (bs.foldl (crcStep poly) 0xFFFFFFFF)

/-- CRC-32 of IEEE 802.3. -/
def crcIeee (bs : List Byte) : Nat := crc32 0xEDB88320 bs

/-! ## Headers (R304, R334) -/

/-- Field of `n` bytes at byte `o` of a flit. -/
def hb (f : Nat) (o n : Nat) : Nat := field f (8 * o) (8 * n)

/-- The flit with HCRC over its bytes 0 to 59. -/
def sealed (f : Nat) : Nat := putField f 480 32 (crcIeee (leBytes 60 f))

/-- Whether HCRC verifies. -/
def hcrcOk (f : Nat) : Bool := hb f 60 4 == crcIeee (leBytes 60 f)

/-- PLANE of any packet header flit. -/
def hPlane (f : Nat) : Nat := field f 0 2
/-- Route entry `h`. -/
def hRoute (f h : Nat) : Nat := field f (32 + 4 * h) 4
/-- The flit with route entry `h` written. -/
def setRoute (f h v : Nat) : Nat := putField f (32 + 4 * h) 4 v

/-! ## Vector headers (R304) -/

namespace VH
def kind (f : Nat) : Nat := field f 2 2
def epoch (f : Nat) : Bool := bit f 4
def void (f : Nat) : Bool := bit f 5
def replay (f : Nat) : Bool := bit f 6
def len (f : Nat) : Nat := field f 8 5
def hop (f : Nat) : Nat := field f 16 4
def tree (f : Nat) : Nat := field f 20 4
def stamp (f : Nat) : Nat := hb f 12 4
def transit (f : Nat) : Nat := hb f 16 2
def dest (f : Nat) : Nat := hb f 18 4
def buf (f : Nat) : Nat := field f (8 * 22) 6
def seq (f : Nat) : Nat := field f (8 * 24) 20
def stream (f : Nat) : Nat := hb f 28 2
def src (f : Nat) : Nat := hb f 30 4
def mask (f : Nat) : Nat := hb f 34 8
def poison (f : Nat) : Nat := hb f 42 4

/-- Whether a reserved bit is set or a reserved value stands in a field (R304, R312 check 2), the route apart. -/
def reserved (f : Nat) : Bool :=
  hPlane f ≠ 0 || kind f == 2 || bit f 7 || field f 13 3 ≠ 0 || hb f 3 1 ≠ 0 || field f (8 * 22 + 6) 10 ≠ 0 ||
  field f (8 * 24 + 20) 12 ≠ 0 || stream f ≠ 0 || field f (8 * 42 + 25) 7 ≠ 0 || hb f 46 14 ≠ 0
end VH

/-! ## Service headers (R334, R335) -/

namespace SH
def vc (f : Nat) : Nat := field f 2 3
def last (f : Nat) : Bool := bit f 5
def hop (f : Nat) : Nat := field f 8 4
def op (f : Nat) : Nat := hb f 2 1
def status (f : Nat) : Nat := hb f 3 1
def dest (f : Nat) : Nat := hb f 12 4
def src (f : Nat) : Nat := hb f 16 4
def stream (f : Nat) : Nat := field f (8 * 20) 14
def sseq (f : Nat) : Nat := hb f 22 2
def addr (f : Nat) : Nat := hb f 24 6
def len (f : Nat) : Nat := field f (8 * 30) 6
def xfer (f : Nat) : Nat := field f (8 * 32) 12
def total (f : Nat) : Nat := hb f 36 4
def tag (f : Nat) : Nat := hb f 44 4
def poison (f : Nat) : Nat := hb f 48 8
/-- The 40-byte payload of a control packet. -/
def ctl (f : Nat) : Nat := hb f 24 40

/-- Plane of an operation, none if reserved (R335). -/
def planeOf : Nat → Option Nat
  | 0x01 => some 1 | 0x02 => some 2 | 0x03 => some 1 | 0x04 => some 2 | 0x05 => some 1
  | 0x81 => some 2 | 0x82 => some 1 | 0x83 => some 1 | 0x90 => some 1 | 0x91 => some 1 | 0x92 => some 1 | 0x93 => some 1
  | _ => none

/-- Whether the packet is of the response class. -/
def isRsp (f : Nat) : Bool := bit (op f) 7

/-- Flits of a packet. -/
def flits (f : Nat) : Nat := if hPlane f = 2 then len f + 1 else 1

/-- Whether the bits of the header that must be 0 are not, per plane (R334, R335). -/
def reserved (f : Nat) : Bool :=
  field f 6 2 ≠ 0 || field f 14 2 ≠ 0 || field f (8 * 20 + 14) 2 ≠ 0 ||
  (if hPlane f = 1 then last f else
    field f (8 * 30 + 6) 2 ≠ 0 || hb f 31 1 ≠ 0 || field f (8 * 32 + 12) 4 ≠ 0 || hb f 34 2 ≠ 0 || bit f (8 * 48 + 63) ||
    hb f 56 4 ≠ 0)
end SH

/-! ## Endpoint addresses (R337, R338) -/

/-- Whether an address is in flat form. -/
def isFlat (a : Nat) : Bool := bit a 31
/-- Unit of a coordinate address. -/
def unitOf (a : Nat) : Nat := field a 0 15
/-- The device of a coordinate address: the address without its unit. -/
def deviceOf (a : Nat) : Nat := a / 2 ^ 15
/-- Legal SRC of a service packet (R337). -/
def srcLegal (a : Nat) : Bool :=
  let u := unitOf a
  !isFlat a && (u == 0x400 || (0x200 ≤ u && u ≤ 0x21F) || (0x300 ≤ u && u ≤ 0x307) || (0x410 ≤ u && u ≤ 0x417))

end Sys2Proof.Machine
end

