-- ==== Sys2Proof/Machine/Fec.lean ====
section
/-!
DEFINITION. The forward error correction and checks of the fret frame (14, R368, R370, R371): Reed–Solomon RS(224, 216) over
GF(2⁸), the framing header with its CRC-16, CRC slots, and the packets a frame holds (R369, R372).
-/
namespace Sys2Proof.Machine

/-! ## GF(2⁸) with x⁸ + x⁴ + x³ + x² + 1 -/

/-- Multiply by α. -/
def gfX (a : Nat) : Nat := if a < 128 then 2 * a else Nat.xor (2 * a) 0x11D

/-- Product. -/
def gfMul (a b : Nat) : Nat :=
  ((List.range 8).foldl (fun (z : Nat × Nat) i => (if bit b i then Nat.xor z.1 z.2 else z.1, gfX z.2)) (0, a)).1

/-- Power. -/
def gfPow (a : Nat) : Nat → Nat
  | 0 => 1
  | n + 1 => gfMul a (gfPow a n)

/-- α to a power. -/
def alpha : Nat → Nat
  | 0 => 1
  | n + 1 => gfX (alpha n)

/-- Inverse, a²⁵⁴. -/
def gfInv (a : Nat) : Nat := gfPow a 254

/-- Value of a polynomial, lowest coefficient first. -/
def gfEval (p : List Nat) (x : Nat) : Nat := p.foldr (fun c v => Nat.xor c (gfMul v x)) 0

/-- Sum of two polynomials. -/
def gfAdd : List Nat → List Nat → List Nat
  | [], q => q
  | p, [] => p
  | a :: p, b :: q => Nat.xor a b :: gfAdd p q

/-- One step of Berlekamp–Massey: locator, previous locator, length, gap, previous discrepancy. -/
structure BmState where
  c : List Nat := [1]
  b : List Nat := [1]
  l : Nat := 0
  m : Nat := 1
  d : Nat := 1

/-- Step `n` over the syndromes. -/
def bmStep (syn : List Nat) (z : BmState) (n : Nat) : BmState :=
  let d := (List.range z.l).foldl (fun v i => Nat.xor v (gfMul (z.c.getD (i + 1) 0) (syn.getD (n - (i + 1)) 0))) (syn.getD n 0)
  if d = 0 then { z with m := z.m + 1 }
  else
    let k := gfMul d (gfInv z.d)
    let c' := gfAdd z.c (List.replicate z.m 0 ++ z.b.map (gfMul k))
    if 2 * z.l ≤ n then { c := c', b := z.c, l := n + 1 - z.l, m := 1, d := d }
    else { z with c := c', m := z.m + 1 }

/-- The corrections of a codeword, symbol 0 the highest coefficient: pairs of symbol index and error value; none if it is
uncorrectable. -/
def rsErrors (cw : List Nat) : Option (List (Nat × Nat)) :=
  let syn := (List.range 8).map fun j => gfEval cw.reverse (alpha j)
  if syn.all (· == 0) then some []
  else
    let z := (List.range 8).foldl (bmStep syn) {}
    let roots := (List.range 224).filter fun i => gfEval z.c (alpha (32 + i)) == 0
    if 4 < z.l ∨ roots.length ≠ z.l then none
    else
      let omega := (List.range 8).map fun n =>
        (List.range (n + 1)).foldl (fun v i => Nat.xor v (gfMul (syn.getD i 0) (z.c.getD (n - i) 0))) 0
      let deriv := (List.range z.c.length).map fun i => if i % 2 = 0 then z.c.getD (i + 1) 0 else 0
      some (roots.map fun i =>
        let x := alpha (223 - i)
        let xi := gfInv x
        (i, gfMul x (gfMul (gfEval omega xi) (gfInv (gfEval deriv xi)))))

/-- Byte of the frame that symbol `i` of codeword `c` stands in (R368): data and parity alike. -/
def frameByte (c i : Nat) : Nat := 8 * i + c

/-- A frame after correction: its bytes, the bytes corrected, codewords with corrections and uncorrectable ones. -/
structure Corrected where
  bytes : List Nat
  fixed : List Nat
  good : Nat
  bad : Nat

/-- Correct one codeword of a frame. -/
def fixCodeword (z : Corrected) (c : Nat) : Corrected :=
  match rsErrors ((List.range 224).map fun i => z.bytes.getD (frameByte c i) 0) with
  | none => { z with bad := z.bad + 1 }
  | some [] => z
  | some es =>
    { z with bytes := es.foldl (fun bs e => lmod' bs (frameByte c e.1) e.2) z.bytes
             fixed := z.fixed ++ es.map fun e => frameByte c e.1, good := z.good + 1 }
where
  /-- Add an error value to a byte. -/
  lmod' (bs : List Nat) (i v : Nat) : List Nat := bs.set i (Nat.xor (bs.getD i 0) v)

/-- Correct a frame of 1,792 bytes (R368). -/
def fecDecode (bs : List Byte) : Corrected :=
  (List.range 8).foldl fixCodeword { bytes := (bs ++ List.replicate (1792 - bs.length) 0#8).map (·.toNat), fixed := [], good := 0, bad := 0 }

/-! ## Framing header and CRC slots (R370, R371) -/

/-- Number spelled by `n` bytes at offset `o`. -/
def numAt (bs : List Nat) (o n : Nat) : Nat := ((bs.drop o).take n).foldr (fun b v => b + 256 * v) 0

/-- CRC-16 with x¹⁶ + x¹² + x⁵ + 1, initial value 0xFFFF, over bits 111:0, bit 111 first (PRESUMED, log 38). -/
def fcrcOf (h : Nat) : Nat :=
  (List.range 112).foldl (fun c i =>
    let top := bit c 15 != bit h (111 - i)
    let c' := 2 * c % 65536
    if top then Nat.xor c' 0x1021 else c') 0xFFFF

/-- Fields of the framing header. -/
structure FrameHdr where
  ok : Bool
  endMap : Nat
  cont : Bool
  gate : Nat
  ack : Nat
  floor : Nat
  nak : Option (Nat × Nat)

/-- Read the framing header. -/
def frameHdr (bs : List Nat) : FrameHdr :=
  let h := numAt bs 1664 16
  { ok := field h 112 16 == fcrcOf h, endMap := field h 0 26, cont := bit h 26, gate := field h 28 2, ack := field h 32 20,
    floor := field h 52 20, nak := if bit h 30 then some (field h 72 16, field h 88 6) else none }

/-- Set bits of END_MAP. -/
def FrameHdr.ends (h : FrameHdr) : Nat := ((List.range 26).filter (bit h.endMap)).length

/-- LCRC outcome of a packet's flits with CRC slot word `slot` (R371). -/
def lcrcOf (flits : List (BitVec 512)) (slot : Nat) : Crc :=
  let c := crcIeee (flits.flatMap (fun f => leBytes 64 f.toNat) ++ leBytes 4 slot)
  let got := field slot 32 32
  if got = c then .good else if got = 0xFFFFFFFF - c then .stomped else .failed

/-! ## The packets of a frame (R369, R372) -/

/-- What parsing has found: packets with their slot, drones with their position, the packet in progress, the next slot, and whether
the flits belong to a packet whose header was lost with an earlier frame. A packet of no flits is one that cannot be read. -/
structure Parse where
  pkts : List (List (BitVec 512) × Nat) := []
  drones : List (Nat × Nat) := []
  cur : List (BitVec 512) := []
  slot : Nat := 0
  lost : Bool := false

/-- Whether a flit is a filler header: plane 0, KIND 3. -/
def isFiller (f : Nat) : Bool := field f 0 2 == 0 && field f 2 2 == 3

/-- Flits of a packet, as its header gives them (R369). -/
def pktFlits (f : Nat) : Nat := if hPlane f = 0 then (if VH.void f then 1 else VH.len f + 1) else SH.flits f

/-- Take flit `i`. A packet ends where END_MAP says so, which gives it its CRC slot (R371), or where the flits LEN gives are counted
(R369): in a good frame the two agree. Where they do not, what comes first ends it (DESIGN CHOICE, log 38). -/
def takeFlit (bs : List Nat) (endMap : Nat) (z : Parse) (i : Nat) : Parse :=
  let f := numAt bs (64 * i) 64
  let z1 :=
    if z.lost then z
    else if z.cur.isEmpty then
      (if field f 0 2 = 3 then { z with drones := z.drones ++ [(i, f)] }
       else if isFiller f then z else { z with cur := [BitVec.ofNat 512 f] })
    else { z with cur := z.cur ++ [BitVec.ofNat 512 f] }
  if bit endMap i then { z1 with pkts := z1.pkts ++ [(z1.cur, z1.slot)], cur := [], slot := z1.slot + 1, lost := false }
  else if pktFlits (z1.cur.headD 0).toNat ≤ z1.cur.length then { z1 with cur := [] }
  else z1

/-- The packets and drones of a frame, `asm` the suspended data packet it continues if CONT is set. -/
def parseFrame (bs : List Nat) (h : FrameHdr) (asm : List (BitVec 512)) : Parse :=
  (List.range 26).foldl (takeFlit bs h.endMap) { cur := if h.cont then asm else [], lost := h.cont && asm.isEmpty }

/-- Drone fields (R373): GATE, ACK, FLOOR, NAK, LANE word, time-exchange record. -/
structure Drone where
  gate : Nat
  ack : Nat
  floor : Nat
  nak : Option (Nat × Nat)
  lane : Nat
  time : Option (List Byte)

/-- Read a drone flit, none if its CRC fails. -/
def droneOf (f : Nat) : Option Drone :=
  if hb f 60 4 ≠ crcIeee (leBytes 60 f) then none
  else some { gate := field f 2 2, ack := field (hb f 1 3) 0 20, floor := field (hb f 4 3) 0 20,
              nak := if bit f 5 then some (field (hb f 7 3) 0 16, field (hb f 7 3) 16 6) else none, lane := hb f 10 2,
              time := if bit f 4 then some (leBytes 48 (hb f 12 48)) else none }

end Sys2Proof.Machine
end

