-- ==== Sys2Proof/Machine/Scramble.lean ====
section
/-!
DEFINITION. The additive scrambler x⁵⁸ + x³⁹ + 1 of the Laistic link (R366). Bit m of its sequence is bit m − 39 plus bit m − 58.
A state is the next 58 bits of the sequence, the first in bit 0. The sequence runs on across frets, so that the state of a later
fret is computed from an earlier one. Which end of a byte the sequence meets first is a DESIGN CHOICE (log 101): bit 0.
-/
namespace Sys2Proof.Machine

/-- Bits of a frame that pass the scrambler in one fret. -/
def scrPerFret : Nat := 8 * 1792

/-- The state eight bits on. -/
def scrNext (w : Nat) : Nat := w >>> 8 + (Nat.xor w (w >>> 19) % 256) * 2 ^ 50

/-- The next `n` bytes of the sequence. -/
def scrBytes : Nat → Nat → List Nat
  | 0, _ => []
  | n + 1, w => w % 256 :: scrBytes n (scrNext w)

/-- A polynomial over GF(2) of degree below 96, reduced by x⁵⁸ = x¹⁹ + 1, which a step of one bit satisfies. -/
def scrFold (a : Nat) : Nat := let h := a >>> 58; Nat.xor (a % 2 ^ 58) (Nat.xor h (h <<< 19))

/-- Product of two polynomials, reduced. -/
def scrMul (a b : Nat) : Nat :=
  scrFold (scrFold (scrFold ((List.range 58).foldl (fun v i => if bit b i then Nat.xor v (a <<< i) else v) 0)))

/-- The power xⁿ, reduced; the first argument bounds the bits of `n`. -/
def scrPow : Nat → Nat → Nat
  | 0, _ => 1
  | k + 1, n =>
    if n = 0 then 1 else
    let h := scrPow k (n / 2)
    let q := scrMul h h
    if n % 2 = 1 then scrFold (2 * q) else q

/-- Whether a number has an odd number of set bits among its low 64. -/
def oddBits (a : Nat) : Bool := (List.range 64).foldl (fun b i => b != bit a i) false

/-- The state `n` bits on. -/
def scrAhead (w n : Nat) : Nat :=
  let c := scrPow 128 n
  let seq := (scrBytes 15 w).foldr (fun b v => b + 256 * v) 0
  (List.range 58).foldl (fun v j => v + b2n (oddBits (Nat.land (seq >>> j) c)) * 2 ^ j) 0

/-- The bytes a scrambler adds to the frame of an absolute fret. -/
def scrKey (z : Scrambler) (fret : Nat) : List Nat := scrBytes 1792 (scrAhead z.word.toNat (scrPerFret * (fret - z.fret)))

/-- Bytes with the scrambler's added. -/
def scrambled (z : Scrambler) (fret : Nat) (bs : List Nat) : List Nat := List.zipWith Nat.xor bs (scrKey z fret)

end Sys2Proof.Machine
end

