-- ==== Sys2Proof/Config.lean ====
section
/-!
DEFINITION. What an implementation fixes and what the spec leaves open. Every constant here is opaque: no proof can see
its value, and a statement that mentions one holds whatever it is.
-/
namespace Sys2Proof.Config

/-- A free byte: the `n`-th value drawn (R207: bytes of a poisoned unit stored in part). -/
opaque freeByte : Nat → Byte

/-- Whether a part of a cancelled operation had been written (R204), at the `n`-th draw. -/
opaque partLands : Nat → Bool

/-- Bytes a DMA transfer that ended early had copied, before the bound of the transfer, at the `n`-th draw (R191, R215). -/
opaque partBytes : Nat → Nat

/-- The order in which contributions of a pass are added once LIMIT is set (R78): COUNT before the pass, then the position of a
contribution; those of lower value come first. -/
opaque landOrder : Nat → Nat → Nat

/-- Deviation of a cycle of a district's clock from its set period in parts of 2⁻²⁴, before it is clamped to the ± 2 × 10⁻⁴ of
R246: the district, then the number of the cycle. -/
opaque jitter : Nat → Nat → Int

/-- Where a district's clock stands in its cycle when it starts, or has run through a time in which nothing it drives acted, in
2⁻⁴⁸ ns, taken modulo a cycle: the district, then the number of the cycle. -/
opaque clkPhase : Nat → Nat → Nat

/-- Whether an SLH-DSA signature verifies (R417): parameter set 128f or 128s, public key, message, signature. -/
opaque slhVerify : Bool → List Byte → List Byte → List Byte → Bool

/-- The SLH-DSA-SHA2-128f signature the identity key makes of a report (R429), 17,088 bytes. -/
opaque slhSign : List Byte → Nat → Byte

/-- The identity public key, 32 bytes (R428). -/
opaque identityKey : Nat → Byte

/-- The manufacturing certificate, and its length (R428). -/
opaque certificate : Nat → Byte
opaque certificateLen : Nat

/-- Tholor's root public key, 32 bytes, whose digest is ROOT_DIGEST (R418). -/
opaque rootKey : Nat → Byte

/-- SIGNER_ID (bytes 0-31) and ENROLL_SEQ (bytes 32-39) of the root record, which R419 does not give. -/
opaque rootRest : Nat → Byte

/-- First of the stream contexts firmware allots to the chunks of fetches outstanding, and first of their completion counters (R435): 16 of each. -/
opaque fetchContext : Fin 16369
opaque fetchCounter : Fin 4081

/-- The state a port's scrambler starts from at training (R366): the port, and the absolute fret of the training. -/
opaque scramblerSeed : Nat → Nat → BitVec 58

/-- Tholor's PCI vendor identifier, and the revision the function reports (R446). -/
opaque vendorId : BitVec 16
opaque revisionId : BitVec 8

/-- The silicon stepping, 0-255 (DEV_ID). -/
opaque stepping : BitVec 8

/-- The bundle a version 3 bundle converts to, none where it has no conversion (R296): the spec does not give the version 3
encoding. -/
opaque convertBundle : BitVec 256 → Option (BitVec 256)

/-- The controller's bank-row index of a granule: stack, pseudo-channel, granule within it. The order of banks, rows and columns
inside a pseudo-channel is internal to the controller (R188). -/
opaque hbmRow : Nat → Nat → Nat → BitVec 32

/-- The bank of a bank-row index (R188, R211). -/
opaque hbmBank : Nat → Nat

/-- Rows a bank has spare for post-package repair (R211): stack, pseudo-channel, bank. -/
opaque hbmSpares : Nat → Nat → Nat → Nat

/-- The host bus address base and the length firmware binds a host window to at PROG_ARM (R190). -/
opaque hostWindow : Nat → Nat × Nat

/-- The flat ID of the host bridge (R292). -/
opaque hostFlatId : Nat

/-- First stream context firmware allots to a program (R357). -/
opaque streamBase : Fin 16129

/-- First of the route table entries firmware uses (R350): 32 for the program's streams, four to a board slot, then 64 for fetches. -/
opaque routeBase : Fin 4001

/-- Smallest vertical eye a receive lane shows at the `n`-th draw (LNK_LANE_n.EYE_MV, mV). -/
opaque eyeMv : Nat → BitVec 8

/-- VKEEP in operation at the `n`-th draw (PWR_VKEEP.NOW_MV, mV). -/
opaque vkeepMv : Nat → BitVec 16

end Sys2Proof.Config
end

