-- ==== Sys2Proof/Machine/State.lean ====
section
/-!
DEFINITION. Every piece of state the spec gives the ZN-9280, as plain data. Software-visible registers live in `regs`,
keyed by their offset in the register space (01, R29) and reading their reset value where unlisted; state the spec gives
the units beyond their registers has fields of its own. Tables keyed by a number are sparse: an unlisted key holds the
reset value of its kind.
-/
namespace Sys2Proof.Machine

/-! ## Tiles (02 to 07) -/

/-- A scalar register with its poison (R37, R93). -/
structure SReg where
  val : Word := 0
  poison : Bool := false
  deriving DecidableEq, Repr

/-- A vector register: 1 KiB and a poison bit for each 32-bit lane (R37, R93). -/
structure VReg where
  data : BitVec 8192 := 0
  poison : BitVec 256 := 0
  deriving DecidableEq, Repr

/-- A predicate register with its poison (R37, R93). -/
structure PReg where
  val : BitVec 256 := 0
  poison : Bool := false
  deriving DecidableEq, Repr

/-- A weight latch: 8 KiB main array, 5 KiB side array, poison per 64-bit word, the tag of R98 (none: empty) and the
metadata record of R146. -/
structure Latch where
  main : BitVec 65536 := 0
  side : BitVec 40960 := 0
  mainPoison : BitVec 1024 := 0
  sidePoison : BitVec 640 := 0
  tag : Option (ElemFmt × Sparsity) := none
  metaLegal : Bool := true
  deriving DecidableEq, Repr

/-- One column of an accumulator set (R74). -/
structure AccCol where
  val : BitVec 88 := 0
  sticky : Bool := false
  sat : Bool := false
  nan : Bool := false
  pinf : Bool := false
  ninf : Bool := false
  poison : Bool := false
  deriving DecidableEq, Repr

/-- An accumulator set (R74): 128 columns (unlisted: cleared), the anchor as a 10-bit word, COUNT, LIMIT. -/
structure AccSet where
  cols : List (Nat × AccCol) := []
  anchor : BitVec 10 := -32
  count : Nat := 0
  limit : Bool := false
  deriving DecidableEq, Repr

/-- State of a queue tag (04, before R111). -/
inductive TagState where
  | free | outstanding | data | done
  deriving DecidableEq, Repr

/-- A queue tag with its data buffer; `failed` is case 3 of the QPOP operand cases (R197). -/
structure Tag where
  st : TagState := .free
  data : BitVec 8192 := 0
  poison : BitVec 256 := 0
  failed : Bool := false
  deriving DecidableEq, Repr

/-- An outbox slot (R37, R169): 25 payload flits with poison per 32-bit lane, the void mark, whether any SEND wrote the
current departure, the bundle that last sent into it, and how many departures of the transit were released. A slot a reset or PROG_ARM
empties is marked void, as one no SEND has written for: R186 gives the emptied mark no value (DESIGN CHOICE, log 97). -/
structure OutSlot where
  payload : BitVec 12800 := 0
  poison : BitVec 400 := 0
  void : Bool := true
  written : Bool := false
  sender : Nat := 0
  released : Nat := 0
  deriving DecidableEq, Repr

/-- An inbox slot (R55, R170): payload, poison, void arrival, generation tag (none: no arrival since reset), ready time
in 2^-16 ns, and the REPLAY_PENDING mark. -/
structure InSlot where
  payload : BitVec 12800 := 0
  poison : BitVec 400 := 0
  len : Nat := 0
  void : Bool := false
  gen : Option Nat := none
  ready : Nat := 0
  replayPending : Bool := false
  deriving DecidableEq, Repr

/-- What a fixed-latency operation writes when it completes (R34, R92). `mask` selects the bits of a vector register
that are written; `pois` is the poison of the parts written, per 32-bit lane. A store takes effect in issue order (R50): its
landing keeps the bytes and poisoned words it replaced, which a cancelled store gives back (R64). -/
inductive Landing where
  | sreg (n : Nat) (v : SReg)
  | vreg (n : Nat) (mask val : BitVec 8192) (pois : BitVec 256)
  | preg (n : Nat) (v : PReg)
  | latch (n : Nat) (v : Latch)
  | acc (n : Nat) (cols : List (Nat × List (Int × BitVec 6))) (count : Nat)
  | outbox (n fo : Nat) (flits : Nat) (payload : BitVec 12800) (poison : BitVec 400)
  | tp (v : Bool)
  | anchor (n : Nat) (a : BitVec 10)
  | store (a : Nat) (old : List Byte) (poisoned : List Nat)
  | nothing
  deriving DecidableEq, Repr

/-- An operation in flight: cycles of issue and completion, and what it writes (R34, R59). -/
structure InFlight where
  issued : Nat
  done : Nat
  what : Landing
  deriving DecidableEq, Repr

/-- TIL_STATUS.STATE (R66). -/
inductive TileStatus where
  | reset | idle | running | tendWait | qwaitStall | stopped | faulted | powerGated
  deriving DecidableEq, Repr

/-- An active hardware loop (R115): first bundle of the body, end bundle, iterations left after this one. -/
structure LoopFrame where
  start : Nat
  last : Nat
  left : Nat
  deriving DecidableEq, Repr

/-- How the tile's block ends: still issuing, TEND issued, or a transit-fatal fault stopped it (R63, R274). -/
inductive BlockEnd where
  | open | tend | fatal
  deriving DecidableEq, Repr

/-- The issue state of a tile. `cycle` counts from cycle 0 of the block and `start` is the NGT instant, in 2^-48 ns, at
which the current cycle begins; `last` is the bundle address last issued (TIL_PC); `wait` is the mask of a QWAIT
stall and `waitDone` the instant at which the last of its tags completed; `reached` is the start of the cycle at which TEND
was reached, and `tendCycle` the first cycle at which it may be, then the cycle at which it was; `cyc0` is the number of cycle 0
among the cycles of the district's clock, `hold` the first cycle at which a taken branch lets the next bundle issue, and `wiped` says
that a reset left the tile STOPPED and no block has started since (R67, R293). -/
structure Issue where
  status : TileStatus := .idle
  pc : Nat := 0
  last : Nat := 0
  transit : Nat := 0
  cycle : Nat := 0
  cyc0 : Nat := 0
  hold : Nat := 0
  start : Nat := 0
  inflight : List InFlight := []
  loops : List LoopFrame := []
  tp : Bool := true
  ended : BlockEnd := .open
  tendCycle : Nat := 0
  voidRest : Bool := false
  wait : BitVec 64 := 0
  waitDone : Nat := 0
  ldwUntil : Nat := 0
  ordAcrd : Nat := 0
  ordCvt : Nat := 0
  reached : Option Nat := none
  started : Bool := false
  wiped : Bool := false
  deriving DecidableEq, Repr

/-- Counts of the block in progress, shown in the TIL registers at the next meridian (R160 to R162, R183 to R186). -/
structure BlockFig where
  stall : Nat := 0
  mma : Nat := 0
  mmas : Nat := 0
  elements : Nat := 0
  gated : Nat := 0
  placed : Nat := 0
  overflow : Nat := 0
  deps : Nat := 0
  voidDeps : Nat := 0
  arrs : Nat := 0
  voidArrs : Nat := 0
  tpOff : Nat := 0
  noops : Nat := 0
  deriving DecidableEq, Repr

/-- One departure entry of an OUTBOX section (R284). -/
structure Departure where
  fret : Nat
  phase : Nat
  slot : Nat
  cond : Bool
  template : Nat
  deriving DecidableEq, Repr

/-- Departures and templates of one table version (R284, R304). -/
structure OutTable where
  deps : List Departure := []
  templates : List (BitVec 512) := []
  deriving DecidableEq, Repr

/-- The tables PROG_ARM writes into a tile (R298): block entries by phase, departure tables of versions 0 and 1, LAG of
each inbox slot, queue of each tag (0xFF unbound). -/
structure TileTables where
  blocks : List (BitVec 32) := []
  out0 : OutTable := {}
  out1 : OutTable := {}
  lag : List Nat := []
  queueOf : List Nat := []
  deriving DecidableEq, Repr

/-- All architectural state of one tile slot (R37). `ldwBusy` counts the LDW occupancy cycles of the tile (R200). -/
structure Tile where
  sregs : List (Nat × SReg) := []
  vregs : List (Nat × VReg) := []
  pregs : List (Nat × PReg) := []
  latches : List (Nat × Latch) := []
  accs : List (Nat × AccSet) := []
  store : List Host.Cell := []
  storePoison : List Nat := []
  imem : List (Nat × BitVec 256) := []
  imemPoison : List Nat := []
  outbox : List (Nat × OutSlot) := []
  inbox : List (Nat × InSlot) := []
  tags : List (Nat × Tag) := []
  gateCnt : List (Nat × BitVec 16) := []
  issue : Issue := {}
  fig : BlockFig := {}
  tables : TileTables := {}
  ldwBusy : Nat := 0
  deriving DecidableEq, Repr

/-! ## Memory queues and segments (08, 11) -/

/-- What a queued operation moves (R111). -/
inductive QKind where
  | ldqv (n : Nat)
  | ldqt (st : Nat)
  | ldqi (first cnt : Nat)
  | stqv (n : Nat) (data : BitVec 8192) (poison : BitVec 256)
  | stqt (st : Nat)
  deriving DecidableEq, Repr

/-- An outstanding operation of an MQE (R193): issuing tile, tag, queue, what it moves, memory address and length, NGT of
issue in 2^-48 ns, bundle address of its LDQ or STQ, the ranges (address, length) of the operations of its queue ahead of it
and outstanding at its issue (R194, R200), and the LDW occupancy cycles its tile had used by then (R200). -/
structure MqeOp where
  tile : Nat
  tag : Nat
  queue : Nat
  kind : QKind
  addr : Nat
  len : Nat
  issued : Nat
  bundle : Nat
  before : List (Nat × Nat) := []
  ldw : Nat := 0
  deriving DecidableEq, Repr

/-- Running figures of a queue in the transit (R203): operations completed, longest latency in ns, BOUND_EXCEEDED events. -/
structure QueueFig where
  ops : Nat := 0
  maxLat : Nat := 0
  late : Nat := 0
  deriving DecidableEq, Repr

/-- A district's memory queue engine: outstanding operations in issue order and figures by queue (R193, R203). -/
structure Mqe where
  ops : List MqeOp := []
  figs : List (Nat × QueueFig) := []
  deriving DecidableEq, Repr

/-- A segment of the program (R287, R288): 48-bit base, size, KIND and ACCESS codes. -/
structure Segment where
  kind : Nat
  access : Nat
  base : Nat
  size : Nat
  deriving DecidableEq, Repr

/-! ## Capo maps, fault records and repair (01 R12, 20) -/

/-- A district's capo map (R12, R529): slot of each logical index, 0x1F unbound, and the retired slots as a mask. -/
structure Capo where
  slots : List Nat := [0, 1, 2, 3, 4, 5, 6, 7, 8, 9, 10, 11, 12, 13, 14, 15]
  retired : Nat := 0
  deriving DecidableEq, Repr

/-- A fault record (R519); `index` is written by firmware, `detail` is the 24 bytes as a little-endian number. -/
structure FaultRec where
  code : Nat
  cls : Nat
  loss : Bool
  district : Nat
  slot : Nat
  ptile : Nat
  ltile : Nat
  bundle : Nat
  ngt : Nat
  transit : Nat
  index : Nat := 0
  detail : Nat
  deriving DecidableEq, Repr

/-! ## Time unit (09) -/

/-- A time domain at the device: instant of the last usable exchange (2^-48 ns), filtered standby offset and last
measurement (2^-16 ns) (R230, R234). -/
structure Domain where
  lastUsable : Option Nat := none
  os : Option Int := none
  lastE : Int := 0
  depth : Nat := 0
  deriving DecidableEq, Repr

/-- A PPS input (R224): while it is in use, the instant (2^-48 ns) of its last edge or of the start of its use, and whether its
loss has been recorded since. -/
structure Pps where
  since : Option Nat := none
  lost : Bool := false
  deriving DecidableEq, Repr

/-- Writes of a trigger's registers that wait for the end of its pulse (R237): NGT_TRIG_n_TIME and NGT_TRIG_n_CTL, each with the bits
the access covers. -/
structure TrigWrite where
  time : Option (Nat × Nat) := none
  ctl : Option (Nat × Nat) := none
  deriving DecidableEq, Repr

/-- A trigger output (R237, R238): end of the pulse in progress, writes waiting for it, oldest first, whether a SINGLE instant has fired or
was missed, and the last transit of which a MERIDIAN instant fired or was missed. -/
structure Trig where
  spent : Bool := false
  fired : Option Nat := none
  pulseEnd : Option Nat := none
  pend : List TrigWrite := []
  deriving DecidableEq, Repr

/-- A captured edge (R239): NGT in 2^-16 ns, rising, SEQ. -/
structure CaptEntry where
  stamp : Nat
  rising : Bool
  seq : Nat
  deriving DecidableEq, Repr

/-- A capture queue (R239): at most 16 entries, edges counted, and whether a drop was recorded since it was last full. -/
structure Capt where
  fifo : List CaptEntry := []
  seq : Nat := 0
  dropSeen : Bool := false
  deriving DecidableEq, Repr

/-- A time exchange of a port (R225): SEQ, and the departure stamp in 2^-16 ns once the request has left. -/
structure Exchange where
  seq : Nat
  t1 : Nat
  deriving DecidableEq, Repr

/-- The time unit beyond its registers (R216): the count in 2^-48 ns, integrator and correction in 2^-48 ns per ns. `done` holds
the instant of the last completed exchange by port, `sentRec` the last time-exchange record a port sent, `slot` the last instant
(ns) of R225 a port has dealt with; `eLast` the last accepted measurement (R236), `eMeas` the last one (R243). `ptmSent` is the stamp
(2^-16 ns) of a PTM request not yet answered, `ptmLast` the instant of the last request, `ptmPrev` the stamps of the last dialog. -/
structure Ngt where
  now : Nat := 0
  integ : Int := 0
  y : Int := 0
  domA : Domain := {}
  domB : Domain := {}
  lockRun : Nat := 0
  unlockRun : Nat := 0
  switchReq : Bool := false
  holdStart : Nat := 0
  eLast : Int := 0
  eMeas : Int := 0
  exch : List (Nat × Exchange) := []
  exchSeq : List (Nat × Nat) := []
  done : List (Nat × Nat) := []
  sentRec : List (Nat × List Byte) := []
  slot : List (Nat × Nat) := []
  ptmSent : Option Nat := none
  ptmLast : Option Nat := none
  ptmPrev : Option (Nat × Nat) := none
  ppsA : Pps := {}
  ppsB : Pps := {}
  trig : List (Nat × Trig) := []
  capt : List (Nat × Capt) := []
  latchHost : Nat := 0
  latchStw : Nat := 0
  deriving DecidableEq, Repr

/-! ## District clocks and crossings (10) -/

/-- A packet in a crossing FIFO (R260): release tag in 2^-16 ns, header flit, payload and poison. `slot` is the inbox slot
(inbound) or outbox slot (outbound), `tile` the physical tile, `bundle` that of the SEND that wrote it, `stomped` the
failure mark a replayed hop left, `gen` the generation tag of an arrival. -/
structure CrossPkt where
  tag : Nat
  tile : Nat
  slot : Nat
  bundle : Nat
  header : BitVec 512
  payload : BitVec 12800
  poison : BitVec 400
  stomped : Bool
  gen : Nat
  deriving DecidableEq, Repr

/-- A stretch of a droop event (R248): the sensor was tripped from `since` until `upto` (none: still tripped) with STEPS in
force; instants in 2^-48 ns. -/
structure Stretch where
  since : Nat
  upto : Option Nat := none
  steps : Nat
  deriving DecidableEq, Repr

/-- A district clock beyond its registers. The clock stands at the start `at_` (2^-48 ns) of cycle number `cyc`, counted since
cold reset; later cycles follow from there (R246, R247). `stretch` holds the stretches of droop events that can still reach
a cycle (R248); `tripped` the trip of the droop event in progress, `droops` the events begun in the transit, `worstNom` N_nom of
the transit CLK_STRETCH_MAX names, uncut (R251, R252). The crossing FIFOs (R258), the last receiving edge each used (R261), the
last halt (R257, from and to); the transit of a district reset not yet proved by a whole transit (R264), resets that failed in
succession, whether its retirement waits for the meridian (R529, R14), and whether the district has failed and no district reset has
calibrated it since (R250). -/
structure Clk where
  cyc : Nat := 0
  at_ : Nat := 0
  stretch : List Stretch := []
  tripped : Option Nat := none
  droops : Nat := 0
  worstNom : Nat := 0
  inFifo : List CrossPkt := []
  outFifo : List CrossPkt := []
  lastIn : Option Nat := none
  lastOut : Option Nat := none
  halt : Option (Nat × Nat) := none
  trial : Option Nat := none
  failedResets : Nat := 0
  retire : Bool := false
  failed : Bool := false
  deriving DecidableEq, Repr

/-- The stretch history of a district in MRAM (R252): the worst LOSS and its N_nom, with the instants of 30 days. -/
structure StretchRec where
  loss : Nat
  nom : Nat
  at30 : Nat
  deriving DecidableEq, Repr

/-! ## Scheduled plane (12) -/

/-- A vector packet: header flit of R304, payload flits, and whether its link copy was stomped (R318). -/
structure Vec where
  header : BitVec 512
  payload : BitVec 12800 := 0
  stomped : Bool := false
  deriving DecidableEq, Repr

/-- Where a vector on the die mesh is going: a port's attachment district, or a physical tile of a district. -/
inductive MeshDest where
  | port (p : Nat)
  | tile (p : Nat)
  deriving DecidableEq, Repr

/-- A vector on the die mesh (R15): its present stop, the absolute fret at which it is there, its destination; for a
vector to a port, the absolute fret of its output. -/
structure MeshVec where
  vec : Vec
  dest : MeshDest
  stop : Nat
  fret : Nat
  deriving DecidableEq, Repr

/-- A claim of a scheduled output fret (R312, R313): absolute fret. -/
abbrev Claim := Nat

/-- What a port has sent and not yet shown in FAB_COUNT_VEC: the absolute frets of its voids, vectors and replay copies. -/
structure FabFig where
  voids : List Nat := []
  vectors : List Nat := []
  replays : List Nat := []
  deriving DecidableEq, Repr

/-- A port's scheduled plane beyond its registers: claimed output frets, the replay queue of R320 (earliest absolute fret
and copy), and what it has sent and not yet shown. -/
structure Fab where
  claims : List Claim := []
  replayQ : List (Nat × Vec) := []
  fig : FabFig := {}
  deriving DecidableEq, Repr

/-- A detour switch in progress at this steward (R329): link ends, variant, T_f, S, PROGRAM_ID low word; whether this
steward proposed it, how many ACCEPTs it holds, and the instant its port went down. -/
structure Detour where
  end0 : Nat
  port0 : Nat
  end1 : Nat
  port1 : Nat
  variant : Nat
  tf : Nat
  s : Nat
  pid : Nat
  proposer : Bool
  accepts : List Nat := []
  deriving DecidableEq, Repr

/-! ## Programs and requests (11, 18) -/

/-- State of the program (R477). -/
inductive ProgState where
  | none | loading | loaded | arming | armed | starting | running | stopping
  deriving DecidableEq, Repr

/-- A section of the loaded image (R281), with its prepared bytes (R297). -/
structure Sect where
  typ : Nat
  inst : Nat
  variant : Nat
  count : Nat
  data : List Byte
  deriving DecidableEq, Repr

/-- The image header (R280). -/
structure Hdr where
  version : Nat := 4
  programId : Nat := 0
  target : Nat := 0
  periodN : Nat := 0
  guardBp : Nat := 0
  minSetting : Nat := 20
  variants : Nat := 0
  cycle : Nat := 1
  depth : Nat := 1
  lFixRd : Nat := 0
  lFixWr : Nat := 0
  digest : List Byte := []
  deriving DecidableEq, Repr

/-- A host window of the host tier (R190). -/
structure HostWin where
  base : Nat
  len : Nat
  deriving DecidableEq, Repr

/-- The program: state, header, sections, placed segments (R287), start and stop transits, variants in force and in the inactive
table version, transits marked failed and their count, status and fault code of the last stop or failure, streams allotted (R357), and the
completions posted (REQ_ID, first and last transit). -/
structure Prog where
  st : ProgState := .none
  hdr : Hdr := {}
  secs : List Sect := []
  segs : List Segment := []
  startAt : Nat := 0
  startPend : Bool := false
  stopAt : Option Nat := none
  unload : Bool := false
  variant : Nat := 0
  inactive : Nat := 0
  failed : List Nat := []
  failedCount : Nat := 0
  lastStatus : Nat := 0
  lastCode : Nat := 0
  firstStream : Nat := 0
  streams : Nat := 0
  flooded : List (Nat × Nat) := []
  detour : Option Detour := none
  posted : Nat := 0
  read : Nat := 0
  done : List (Nat × Nat × Nat) := []
  deriving DecidableEq, Repr

/-- State of a request context (R478). -/
inductive ReqState where
  | free | queued | inFlight | cancelling
  deriving DecidableEq, Repr

/-- A request context: generation, submitting channel, descriptor, re-runs, submission stamp, ring position of its entry,
input transit of the current run, and the program status once its record is read. -/
structure Request where
  st : ReqState := .free
  gen : Nat := 0
  chan : Nat := 0
  desc : List Byte := []
  reruns : Nat := 0
  stamp : Nat := 0
  ring : Nat := 0
  inputT : Nat := 0
  lastT : Nat := 0
  record : Option Nat := none
  deriving DecidableEq, Repr

/-- A completion due (R482): the entry's fields and the channel it was submitted on. -/
structure ReqDone where
  chan : Nat
  reqId : Nat
  status : Nat
  reruns : Nat
  lastT : Nat
  progStatus : Nat
  deriving DecidableEq, Repr

/-- An asynchronous command in progress (R469): its channel, TAG, opcode, ARGS, data, a figure of its own, and
the status it ends with once that is settled. -/
structure AsyncCmd where
  chan : Nat
  tag : Nat
  opcode : Nat
  args : List Byte
  data : List Byte := []
  progress : Nat := 0
  result : Option Nat := none
  deriving DecidableEq, Repr

/-! ## Service plane (13) -/

/-- A service packet (R334): the header flit (for a control packet, header and payload), the payload bytes of a data packet, and
whether its copy ends with the stomp marker (R318). -/
structure SvcPkt where
  flit : BitVec 512
  body : List Byte := []
  stomped : Bool := false
  deriving DecidableEq, Repr

/-- Who waits for the packets of an operation (R345, R358): an MQE operation by tile and tag, firmware, or a DMA
channel. -/
inductive Owner where
  | mqe (tile tag : Nat)
  | steward
  | dma (ch : Nat)
  deriving DecidableEq, Repr

/-- A sequence in flight on a sending half (R345): its cost, and its operation by owner and TAG. -/
structure InSeq where
  seq : Nat
  cost : Nat
  owner : Owner
  tag : Nat
  deriving DecidableEq, Repr

/-- State of a sending half (R346). -/
inductive TxState where
  | off | waitGrant | opened
  deriving DecidableEq, Repr

/-- A packet waiting at the sender with its operation (R345, R359): owner and TAG, and for a load of a DMA channel the local offset
at which its data land (R353). -/
structure Waiting where
  pkt : SvcPkt
  owner : Owner
  tag : Nat := 0
  land : Nat := 0
  deriving DecidableEq, Repr

/-- A sequence of a receiving half's arrival map (R348): cost and whether its credits were released. -/
structure RxSeq where
  seq : Nat
  cost : Nat
  released : Bool
  deriving DecidableEq, Repr

/-- A stream context (R345 to R349): sending half and receiving half. `charged` and `rxReleased` are the cumulative
counts; `pool` holds credits released whose sequences the cumulative count does not tell (log 94); `baseSince` is when BASE_SEQ
last moved or was last probed; `credited` is RELEASED at the last CREDIT; `fenced` holds
the last sequences fenced, which a repeated PROBE is answered with; `dups` counts duplicates; `lastXfer` is the completion
counter of the last PUT accepted (R473). -/
structure Sctx where
  tx : TxState := .off
  window : Nat := 0
  outstanding : Nat := 0
  charged : Nat := 0
  released : Nat := 0
  pool : Nat := 0
  base : Nat := 0
  next : Nat := 0
  flight : List InSeq := []
  waiting : List Waiting := []
  rr : Nat := 0
  baseSince : Nat := 0
  rxOn : Bool := false
  granted : Nat := 0
  held : Nat := 0
  rxBase : Nat := 0
  rxMap : List RxSeq := []
  rxReleased : Nat := 0
  credited : Nat := 0
  creditDue : Option Nat := none
  fenced : List Nat := []
  dups : Nat := 0
  lastXfer : Option Nat := none
  deriving DecidableEq, Repr

/-- A response a requester awaits (R353, R355): TAG of the request, its stream and sequence, owner, granule address and length,
where a DMA channel's data land, whether it loads, and the instant at which the request left. -/
structure Await where
  tag : Nat
  seq : Nat
  land : Nat
  stream : Nat
  owner : Owner
  addr : Nat
  len : Nat
  load : Bool
  issued : Nat
  deriving DecidableEq, Repr

/-- A packet in an output queue of a port (R342): arrival instant in 2^-48 ns and the port it came from (8: own). -/
structure SvcHeld where
  pkt : SvcPkt
  since : Nat
  src : Nat
  deriving DecidableEq, Repr

/-- A message in the steward's receive queue (R340, R347): unit named, SRC, receiving context, cost, body. -/
structure RxMsg where
  unit : Nat
  src : Nat
  stream : Nat
  seq : Nat
  body : List Byte
  deriving DecidableEq, Repr

/-- Service-plane figures of a port in the transit, and the fret up to which WAIT_FRETS is counted. -/
structure SvcFig where
  used : Nat := 0
  txFlits : Nat := 0
  lastFret : Nat := 0
  lastFlits : Nat := 0
  waited : Nat := 0
  deriving DecidableEq, Repr

/-- A response that answered the steward or a DMA channel (R353): owner, TAG, STATUS, bytes. -/
structure Got where
  owner : Owner
  tag : Nat
  status : Nat
  bytes : List Byte
  deriving DecidableEq, Repr

/-- The service plane beyond its registers: contexts, responses awaited, next request TAG, steward receive queue, responses
the steward and the DMA channels received, output queues by port, packets a port finished this round by class and VC,
figures, operations of the steward and DMA that ended in error (stream, TAG, status), discards of messages by function,
service interrupts raised (R352), the PUTs accepted by each counter since CLEAR, which the ledger unit counts (R514), and the contexts of a stopped program not yet freed (R357). -/
structure Svc where
  ctx : List (Nat × Sctx) := []
  awaits : List Await := []
  nextTag : Nat := 0
  stwRx : List RxMsg := []
  got : List Got := []
  txq : List (Nat × List SvcHeld) := []
  served : List (Nat × Nat) := []
  fig : List (Nat × SvcFig) := []
  ended : List (Nat × Nat × Nat) := []
  msgCount : List (Nat × Nat) := []
  discardedMsgs : Nat := 0
  interrupts : Nat := 0
  closing : List Nat := []
  puts : List (Nat × Nat) := []
  deriving DecidableEq, Repr

/-! ## Laistic link (14) -/

/-- What a link packet carries. -/
inductive Carried where
  | vec (v : Vec)
  | svc (p : SvcPkt)
  deriving DecidableEq, Repr

/-- A packet the sender has numbered and not freed (R374, R378): sequence, flits, absolute departure fret and CRC slot,
whether it is in the buffer, whether a NAK was taken, the replay fret set aside for a vector's copy, whether it has been
replayed, whether LATE_VECTOR was raised for it. -/
structure Sent where
  seq : Nat
  flits : Nat
  fret : Nat
  slot : Nat
  what : Carried
  kept : Bool := true
  nakd : Bool := false
  replayAt : Option Nat := none
  replay : Bool := false
  late : Bool := false
  deriving DecidableEq, Repr

/-- A settled packet waiting to be acted on: arrival instant in 2^-16 ns, and whether this port stomped it (R318). -/
structure RxVec where
  vec : Vec
  at_ : Nat
  own : Bool := false
  deriving DecidableEq, Repr

/-- Role of a lane (LNK_LANE_n). -/
inductive LaneRole where
  | active | parity | failed | retired
  deriving DecidableEq, Repr

/-- A lane of one direction: role, logical lane carried (a parity lane: 28 the XOR of lanes 0-13, 29 that of 14-27, 30 that
of all), symbol lock, and the frets of its corrected symbols within 2^20 frets (R384). -/
structure Lane where
  role : LaneRole := .active
  logical : Nat := 0
  lock : Bool := false
  errs : List Nat := []
  deriving DecidableEq, Repr

/-- A lane substitution in progress (R385): direction (true: receive), physical lane, switch fret once known. -/
structure LaneSub where
  rx : Bool
  lane : Nat
  switchFret : Option Nat
  deriving DecidableEq, Repr

/-- LNK_STATUS.STATE (R389). -/
inductive LinkState where
  | reset | training | up | recover | down | disabled
  deriving DecidableEq, Repr

/-- A gate (R380). -/
inductive Gate where
  | closed | opened | leaving
  deriving DecidableEq, Repr

/-- Flits a packet put on the wire: `n` flits from position `first` of a fret on, the first of them flit `skip` of the packet with
sequence `seq`. -/
structure WirePart where
  fret : Nat
  first : Nat
  seq : Nat
  skip : Nat
  n : Nat
  deriving DecidableEq, Repr

/-- A port's link layer (R363 to R389). `settled` are the settled sequences above RX_NEXT; `ended` the last packets ended
(fret, slot, sequence); `replaySvc` the sequences to replay; `naks` the NAKs waiting (fret by which sent, fret named, mask);
`asm` the flits of a suspended data packet; `rxVec` and `rxSvc` settled packets to act on; `ackSince` when ACK last advanced;
`recoverAt` when lock was lost; `record` the partner's discovery record; `wire` what stands in the flits of the frets sent; `txScr`
and `rxScr` the scramblers of the two directions (R366). -/
structure Link where
  st : LinkState := .reset
  gate : Gate := .closed
  partner : Gate := .closed
  downReason : Nat := 0
  txNext : Nat := 0
  txOldest : Nat := 0
  rxNext : Nat := 0
  floor : Nat := 0
  settled : List Nat := []
  sent : List Sent := []
  ended : List (Nat × Nat × Nat) := []
  wire : List WirePart := []
  txScr : Scrambler := {}
  rxScr : Scrambler := {}
  replaySvc : List Nat := []
  naks : List (Nat × Nat × Nat) := []
  asm : List (BitVec 512) := []
  rxVec : List RxVec := []
  rxSvc : List SvcPkt := []
  unreadable : Nat := 0
  expiries : Nat := 0
  ackSince : Nat := 0
  fresh : Bool := true
  recoverAt : Option Nat := none
  rxLanes : List (Nat × Lane) := []
  txLanes : List (Nat × Lane) := []
  rxRetired : List Nat := []
  txRetired : List Nat := []
  subs : List LaneSub := []
  record : List Byte := []
  draining : Option Nat := none
  deriving DecidableEq, Repr

/-! ## Topology (15) -/

/-- A device record of the almanac (R399). -/
structure DevRec where
  coord : Nat
  role : Nat
  time : Nat
  parents : Nat
  identity : List Byte
  deriving DecidableEq, Repr

/-- A link record of the almanac (R399). -/
structure LinkRec where
  end0 : Nat
  port0 : Nat
  kind : Nat
  end1 : Nat
  port1 : Nat
  asym : Nat
  budget0 : Nat
  budget1 : Nat
  deriving DecidableEq, Repr

/-- A verified almanac (R398), `raw` its bytes. -/
structure Almanac where
  twisted : Bool
  switchSym : Bool
  id : Nat
  seq : Nat
  vcCount : Nat
  detourLead : Nat
  controlBoundNs : Nat
  devices : List DevRec
  links : List LinkRec
  flats : List (Nat × Nat)
  racks : List (Nat × Nat × Nat)
  raw : List Byte := []
  deriving DecidableEq, Repr

/-- Topology state (R398 to R413): staged and active almanac, start floods forwarded, when link records not matched become
MISSING (R405), footprint ports that went down and await a proposal (port, T_f, transit of the fall; R329), link ends a
steward of the rack reported not usable. -/
structure Top where
  staged : Option Almanac := none
  active : Option Almanac := none
  floods : List (Nat × Nat) := []
  deadline : Option Nat := none
  downs : List (Nat × Nat × Nat) := []
  reported : List (Nat × Nat × Nat) := []
  deriving DecidableEq, Repr

/-! ## Weights, boot and trust (16) -/

/-- A trust-store slot (R419): key body of 128 bytes and enrolment signature. -/
structure TrustRec where
  body : List Byte
  sig : List Byte
  deriving DecidableEq, Repr

/-- A shard of a held manifest (R430, R431): its entry, the leaf list once obtained, and the VERIFIED chunks. -/
structure Shard where
  target : Nat
  tier : Nat
  segment : Nat
  bytes : Nat
  imageOff : Nat
  leafOff : Nat
  subroot : List Byte
  presOff : Nat
  presBits : Nat
  leaves : List (List Byte) := []
  verified : List Nat := []
  deriving DecidableEq, Repr

/-- A held manifest (R433). -/
structure Manifest where
  root : List Byte
  modelId : Nat
  rackAny : Bool
  signer : List Byte
  shards : List Shard
  presence : List Byte
  bytes : List Byte
  serving : Bool := false
  deriving DecidableEq, Repr

/-- A source of a fetch (R434): kind, address, mismatches given, excluded, chunks declined. -/
structure Source where
  kind : Nat
  addr : Nat
  bad : Nat := 0
  excluded : Bool := false
  declined : List Nat := []
  deriving DecidableEq, Repr

/-- A chunk outstanding of a fetch (R435): chunk, source index, completion counter. -/
structure ChunkOut where
  chunk : Nat
  src : Nat
  counter : Nat
  deriving DecidableEq, Repr

/-- A fetch in progress (R434 to R436). -/
structure Fetch where
  slot : Nat
  shard : Nat
  sources : List Source
  out : List ChunkOut := []
  rr : Nat := 0
  chan : Nat
  tag : Nat
  ended : Option Bool := none
  deriving DecidableEq, Repr

/-- Security state (R418 to R438): fuses, trust store, firmware slots and the running image, the boot record, manifests
by slot, fetches, attestations waiting. -/
structure Sec where
  svnFuse : Nat := 0
  trust : List (Nat × TrustRec) := []
  slotA : List Byte := []
  slotB : List Byte := []
  running : List Byte := []
  manifests : List (Nat × Manifest) := []
  fetches : List Fetch := []
  stage : Option Bool := none
  committed : Bool := false
  rejected : List (Bool × Nat) := []
  deriving DecidableEq, Repr

/-! ## Steward, mailboxes and the host interface (17) -/

/-- A mailbox channel beyond its binding (R454 to R456): state code 0 EMPTY, 1 TO_RESP, 2 TO_INIT, the TAKEN flag, last
refusal, messages posted, ledger counts of SEND, CONSUME and withdrawal, and the 4 KiB message area. -/
structure Chan where
  st : Nat := 0
  taken : Bool := false
  err : Nat := 0
  posted : BitVec 32 := 0
  sends : Nat := 0
  consumes : Nat := 0
  withdrawn : Nat := 0
  area : List Host.Cell := []
  deriving DecidableEq, Repr

/-- A notice waiting for its channel (R470). -/
structure Notice where
  opcode : Nat
  tag : Nat
  status : Nat
  stamp : Nat
  args : List Byte
  body : List Byte
  deriving DecidableEq, Repr

/-- A bulk assembly or an outbound bulk result of a channel (R472). -/
structure Bulk where
  opcode : Nat
  tag : Nat
  total : Nat
  bytes : List Byte
  since : Nat
  deriving DecidableEq, Repr

/-- A command of the journal (R442, R445): channel and, once complete, the recorded reply status. -/
structure Journal where
  chan : Nat
  opcode : Nat
  tag : Nat
  result : Option Nat
  deriving DecidableEq, Repr

/-- A transfer of a DMA channel (R191): direction, host address, device address, length, bytes done, and the DMA_COPY it
belongs to (channel and TAG), if any, or the queue operation it carries (tile and tag). -/
structure Xfer where
  toDevice : Bool
  host : Nat
  dev : Nat
  len : Nat
  copy : Option (Nat × Nat)
  op : Option (Nat × Nat) := none
  deriving DecidableEq, Repr

/-- An MSI-X vector (R451): mask bit, pending bit, messages sent. -/
structure Vector where
  masked : Bool := true
  pending : Bool := false
  sent : Nat := 0
  deriving DecidableEq, Repr

/-- A telemetry stream (R484): initiator's channel, group mask, period in transits, ring address and size, flat ID, bytes
written, next transit due. -/
structure Stream where
  chan : Nat
  groups : Nat
  period : Nat
  ring : Nat
  size : Nat
  flat : Nat
  written : Nat := 0
  nextT : Nat := 0
  deriving DecidableEq, Repr

/-- A steward message firmware has to send (R474): destination and body. -/
structure MsgOut where
  dest : Nat
  body : List Byte
  deriving DecidableEq, Repr

/-- The answer of the last access of an identity (R453): completed, bus error, Unsupported Request, EP, NACK. -/
inductive AnswerKind where
  | ok | busError | unsupported | poisoned | nack
  deriving DecidableEq, Repr

/-- The answer and its data bytes. -/
structure Answer where
  kind : AnswerKind := .ok
  data : List Byte := []
  deriving DecidableEq, Repr

/-- The PTM capability register, at 0x204 (log 66): Requester Capable 1, Responder and Root Capable 0, local clock granularity 1 ns
(R240). -/
def ptmCap : List Host.Cell := [(0x204, 1#8), (0x205, 1#8)]

/-- How the endpoint's reference clock relates to its partner's (R543): common, separate, or separate with independent spreading. -/
inductive Clocking where
  | common | srns | sris
  deriving DecidableEq, Repr

/-- The PCI Express endpoint beyond its registers (R446 to R452, R543): configuration space bytes written, Memory Space Enable,
MSI-X enable, PTM enable, errors logged in AER (R452), whether it answers configuration requests, D3hot (R448), and the clocking
mode firmware selected. -/
structure Pcie where
  cfg : List Host.Cell := ptmCap
  mse : Bool := false
  msixOn : Bool := false
  ptmOn : Bool := false
  aer : Nat := 0
  ready : Bool := false
  d3 : Bool := false
  clocking : Option Clocking := none
  deriving DecidableEq, Repr

/-- A segment on another board slot that PROG_LOAD filled (R297): its 48-bit base, the bytes zeroed, and the data copied from its
start. -/
structure Fill where
  base : Nat
  zeroed : Nat
  data : List Byte
  deriving DecidableEq, Repr

/-- The steward and its units (R442 to R462, R466 to R472). `winSel` is keyed by identity code; `toHost` holds the bytes
the device wrote to host memory, `fills` the segments it filled in other board slots. -/
structure Stw where
  coreFailed : List Nat := []
  coreRetired : List Nat := []
  chans : List (Nat × Chan) := []
  winSel : List (Nat × Nat) := []
  i2cOff : Nat := 0
  journal : List Journal := []
  cmds : List AsyncCmd := []
  notices : List (Nat × List Notice) := []
  bulkIn : List (Nat × Bulk) := []
  bulkOut : List (Nat × Bulk) := []
  dma : List (Nat × List Xfer) := []
  msix : List (Nat × Vector) := []
  msgOut : List MsgOut := []
  streams : List Stream := []
  telemetryDropped : Nat := 0
  lastTaken : Nat := 63
  toHost : List Host.Cell := []
  fills : List Fill := []
  answer : Answer := {}
  peers : List (Nat × Nat) := []
  pcie : Pcie := {}
  deriving DecidableEq, Repr

/-! ## Energy, power, repair and pins (19, 20, 21) -/

/-- A closed energy interval (R488): transit, and the energies of ENERGY_REPORT. -/
structure Interval where
  transit : Nat
  package : Nat
  vcore : Nat
  hbm : Nat
  vser : Nat
  other : Nat
  deriving DecidableEq, Repr

/-- The save region (R506): header STATE, ledger epoch, NGT ns and transit at recognition, whether DIGEST verifies; outstanding
items by ledger; NGT count, NGT_EPOCH_ID, NGT_RATE and NGT_STATUS; meter totals and the open interval; records not yet logged;
channel states and doorbell status; request contexts; and the figures of PWR_SAVE_STATUS. -/
structure Save where
  st : Nat := 0
  epoch : Nat := 0
  ns : Nat := 0
  transit : Nat := 0
  digestOk : Bool := false
  items : List Nat := []
  ngt : Nat := 0
  epochId : BitVec 64 := 0
  rate : BitVec 64 := 0
  ngtStatus : BitVec 64 := 0
  totals : List Nat := []
  openUj : List Nat := []
  log : List FaultRec := []
  chans : List (Nat × Chan) := []
  doorbells : List (Nat × Nat) := []
  reqs : List (Nat × Request) := []
  vkeepStart : Nat := 0
  vkeepEnd : Nat := 0
  us : Nat := 0
  deriving DecidableEq, Repr

/-- Energy and power state beyond the registers (R486 to R508): intervals held, the thermal cap's hold of R496, the
instant since which every junction has been at or below RELEASE_C, whether the last sample was at THROTTLE_C and whether the cap
was lowered for it, whether PWRFAIL_N was recognised and the device waits
in the saved state, whether READY was reached since power-up. -/
structure Enr where
  history : List Interval := []
  capHold : Bool := false
  coolSince : Option Nat := none
  throttled : Bool := false
  hot : Bool := false
  failed : Bool := false
  saved : Bool := false
  readySeen : Bool := false
  save : Save := {}
  i2cPower : Nat := 0
  deriving DecidableEq, Repr

/-- Errors of an SRAM row (R525): array, unit, bank, row; instants in ns of the
corrected errors of 24 hours, whether it gave an uncorrectable one, times substituted. -/
structure SramRow where
  array : Nat
  unit : Nat
  bank : Nat
  row : Nat
  ces : List Nat := []
  ue : Bool := false
  moved : Nat := 0
  deriving DecidableEq, Repr

/-- An HBM row under repair (R209, R210): stack, pseudo-channel, row, remap entry index if it is served from one,
repair made (0 none; 2 soft and 3 hard: recorded in MRAM), and the spare rows its repairs have used. -/
structure HbmRow where
  stack : Nat
  pc : Nat
  row : Nat
  entry : Option Nat
  repaired : Nat
  used : Nat := 0
  deriving DecidableEq, Repr

/-- Errors an HBM row has returned since it was last remapped (R209): stack, pseudo-channel, row, instants in ns of the corrected
ones, whether one was uncorrectable. -/
structure HbmHist where
  stack : Nat
  pc : Nat
  row : Nat
  ces : List Nat := []
  ue : Bool := false
  deriving DecidableEq, Repr

/-- Ledger and repair state (R513 to R530): record queue, log in MRAM, next index, acknowledged index by identity code,
epoch record, SRAM rows with errors, HBM rows repaired, errors of HBM rows, instants of the
uncorrectable tile-memory errors of 24 hours by slot, errors that have struck SRAM words nothing has read yet, slots whose errors ask
for retirement, stretch history, containment. -/
structure Ras where
  queue : List FaultRec := []
  lossNext : Bool := false
  log : List FaultRec := []
  nextIndex : Nat := 0
  acks : List (Nat × Nat) := []
  epoch : Nat := 0
  epochOpen : Bool := false
  rows : List SramRow := []
  hbmRows : List HbmRow := []
  hbmErrs : List HbmHist := []
  tileUe : List (Nat × List Nat) := []
  latent : List SramErr := []
  due : List Nat := []
  stretch : List (Nat × List StretchRec) := []
  contained : Bool := false
  deriving DecidableEq, Repr

/-- Pins (21): strap levels as sampled, PWRFAIL_N low, THERMTRIP_N latched. -/
structure Pins where
  straps : BitVec 4 := 0
  pwrfail : Bool := false
  thermtrip : Bool := false
  deriving DecidableEq, Repr

/-- The boot and configuration records of MRAM the device reads (R443, R276, R458, R461, R489): stretch margin M, HOST
permission of DIAG_READ, I2C address, watchdog period, bindings of channels 37-63 by channel, asymmetry of each port, the
voltage and frequency table by setting, the clocking mode of PCI Express (R543) and its subsystem IDs (R446: vendor in bits 15:0). -/
structure Cfg where
  margin : Nat := 200
  diagHost : Bool := false
  i2cAddr : Nat := 0x4C
  watchdogMs : Nat := 100
  bindings : List (Nat × BitVec 64) := []
  asym : List (Nat × Nat) := []
  vf : List (Nat × Nat) := []
  clocking : Clocking := .common
  subsys : Nat := 0
  deriving DecidableEq, Repr

/-! ## The device -/

/-- The state of one ZN-9280. `regs` holds the software-visible registers by offset; `hbm` the bytes of the local slot by
offset and `hbmPoison` the poisoned 64-byte units; `clkSetting` is the one clock setting in force (R253); `draws` counts the free values taken (the model's own field);
`pending` is the queue of commands waiting. -/
structure State where
  regs : List (Nat × BitVec 64) := []
  tiles : List (Nat × Tile) := []
  mqes : List (Nat × Mqe) := []
  hbm : List Host.Cell := []
  hbmPoison : List Nat := []
  wins : List (Nat × HostWin) := []
  ngt : Ngt := {}
  clks : List (Nat × Clk) := []
  clkSetting : Nat := 42
  mesh : List MeshVec := []
  meshClaims : List (Nat × Nat × Nat) := []
  fabs : List (Nat × Fab) := []
  links : List (Nat × Link) := []
  svc : Svc := {}
  top : Top := {}
  sec : Sec := {}
  stw : Stw := {}
  capos : List (Nat × Capo) := []
  prog : Prog := {}
  reqs : List (Nat × Request) := []
  reqDone : List ReqDone := []
  enr : Enr := {}
  ras : Ras := {}
  pins : Pins := {}
  cfg : Cfg := {}
  draws : Nat := 0
  pending : List Instr := []
  deriving DecidableEq, Repr

/-- Why the machine could stop. No meaning raises it: every error the spec gives the device is a fault record, a refusal
bit, an error response or a containment, all of them next states. It stands here because the interface asks for a
reason type; safe, since it never occurs. -/
inductive Fault where
  /-- Never raised. Safe. -/
  | never
  deriving DecidableEq, Repr

/-- Why a command has no meaning. -/
inductive Refusal where
  /-- Raised by an arm of exec whose command is not modelled; safe: the machine stops where the device goes on. -/
  | notModelled (mnemonic : String)
  deriving DecidableEq, Repr

/-- The device right after a cold reset: every register at its reset value, memories zero, nothing queued. Values the spec
leaves to the device's MRAM, fuses and configuration records are those of the log (DESIGN CHOICE, log 3; the capo maps PRESUMED,
log 4). -/
def State.reset : State := {}

end Sys2Proof.Machine
end

