-- ==== Sys2Proof/Machine/Ops.lean ====
section
/-!
DEFINITION. The named operations over the device's state: registers, time, the units' tables, MSI-X and doorbells, the
recording and containment of faults (R519 to R523), failed transits (R22), the cancellation of queue operations (R204),
and the local HBM with its poison (R188, R205 to R207).
-/
namespace Sys2Proof.Machine

/-! ## Registers (00 R6, 01 R29) -/

/-- The word a register holds; an unlisted offset reads its reset value. -/
def State.reg (s : State) (off : Nat) : BitVec 64 := tget (regReset off) s.regs off

/-- Hold a word at a register. -/
def State.setReg (s : State) (off : Nat) (v : BitVec 64) : State := { s with regs := tset (regReset off) s.regs off v }

/-- A field of a register. -/
def State.fget (s : State) (off : Nat) (f : RField) : Nat := field (s.reg off).toNat f.lo f.len

/-- Hold a value in a field, cut to its width. -/
def State.fset (s : State) (off : Nat) (f : RField) (v : Nat) : State :=
  s.setReg off (BitVec.ofNat 64 (putField (s.reg off).toNat f.lo f.len v))

/-- Add to a counting field that saturates. -/
def State.fbump (s : State) (off : Nat) (f : RField) (n : Nat) : State := s.fset off f (satN f.len (s.fget off f + n))

/-- Raise a field that records a greatest value, saturating. -/
def State.fmax (s : State) (off : Nat) (f : RField) (n : Nat) : State :=
  if s.fget off f < satN f.len n then s.fset off f (satN f.len n) else s

/-- Return a register to its reset value. -/
def State.resetReg (s : State) (off : Nat) : State := { s with regs := tdel s.regs off }

/-- Return every register that satisfies `p` to its reset value. -/
def State.resetRegs (s : State) (p : Nat → Bool) : State := { s with regs := s.regs.filter fun e => !p e.1 }

/-! ## Units by number -/

/-- A tile. -/
def State.tile (s : State) (p : Nat) : Tile := tget {} s.tiles p
/-- Hold a tile. -/
def State.setTile (s : State) (p : Nat) (t : Tile) : State := { s with tiles := tset {} s.tiles p t }
/-- A district's MQE. -/
def State.mqe (s : State) (d : Nat) : Mqe := tget {} s.mqes d
/-- Hold an MQE. -/
def State.setMqe (s : State) (d : Nat) (m : Mqe) : State := { s with mqes := tset {} s.mqes d m }
/-- A district clock. -/
def State.clk (s : State) (d : Nat) : Clk := tget {} s.clks d
/-- Hold a district clock. -/
def State.setClk (s : State) (d : Nat) (c : Clk) : State := { s with clks := tset {} s.clks d c }
/-- A port's scheduled plane. -/
def State.fab (s : State) (p : Nat) : Fab := tget {} s.fabs p
/-- Hold a port's scheduled plane. -/
def State.setFab (s : State) (p : Nat) (f : Fab) : State := { s with fabs := tset {} s.fabs p f }
/-- A port's link. -/
def State.link (s : State) (p : Nat) : Link := tget {} s.links p
/-- Hold a port's link. -/
def State.setLink (s : State) (p : Nat) (l : Link) : State := { s with links := tset {} s.links p l }
/-- A stream context. -/
def State.ctx (s : State) (n : Nat) : Sctx := tget {} s.svc.ctx n
/-- Hold a stream context. -/
def State.setCtx (s : State) (n : Nat) (c : Sctx) : State := { s with svc := { s.svc with ctx := tset {} s.svc.ctx n c } }
/-- A mailbox channel. -/
def State.chan (s : State) (n : Nat) : Chan := tget {} s.stw.chans n
/-- Hold a mailbox channel. -/
def State.setChan (s : State) (n : Nat) (c : Chan) : State := { s with stw := { s.stw with chans := tset {} s.stw.chans n c } }
/-- A district's capo map. -/
def State.capo (s : State) (d : Nat) : Capo := tget {} s.capos d
/-- Hold a capo map. -/
def State.setCapo (s : State) (d : Nat) (c : Capo) : State := { s with capos := tset {} s.capos d c }
/-- A request context. -/
def State.req (s : State) (i : Nat) : Request := tget {} s.reqs i
/-- Hold a request context. -/
def State.setReq (s : State) (i : Nat) (r : Request) : State := { s with reqs := tset {} s.reqs i r }

/-! ## Numbers of tiles, ports and stacks (R10 to R17) -/

/-- District of a physical tile (R11). -/
def districtOf (p : Nat) : Nat := p / 17

/-- Attachment district of a port (R17). -/
def attach (port : Nat) : Nat := [15, 8, 23, 16, 3, 28, 4, 27].getD port 0

/-- Logical index bound to a slot, if any. -/
def Capo.indexOf (c : Capo) (slot : Nat) : Option Nat := c.slots.findIdx? (· == slot)

/-- Logical tile carried by a physical slot (R11, R12); 0xFFFF if none. -/
def State.ltileOf (s : State) (p : Nat) : Nat :=
  match (s.capo (districtOf p)).indexOf (p % 17) with
  | some i => districtOf p * 16 + i
  | none => 0xFFFF

/-- Physical tile that carries a logical tile, none while its index is unbound (R11, R529). -/
def State.ptileOf (s : State) (l : Nat) : Option Nat :=
  let slot := (s.capo (l / 16)).slots.getD (l % 16) 0x1F
  if slot < 17 then some (l / 16 * 17 + slot) else none

/-- Spare slot of a capo map: neither bound nor retired (R12). -/
def Capo.spare (c : Capo) : Option Nat := (List.range 17).find? fun x => !c.slots.contains x && !bit c.retired x

/-! ## Time (R18, R216, R221) -/

/-- Whole ns of NGT. -/
def State.ns (s : State) : Nat := s.ngt.now >>> 48
/-- A hardware stamp (2⁻¹⁶ ns): its resolution is 2⁻⁶ ns, the 10 low bits of its fraction are 0 (R218). -/
def hwStamp (t : Nat) : Nat := t / 2 ^ 10 * 2 ^ 10
/-- NGT in 2⁻¹⁶ ns. -/
def State.stamp (s : State) : Nat := s.ngt.now >>> 32
/-- Whether meridians are generated. -/
def State.valid (s : State) : Bool := s.fget R.ngtPeriod F.ngtPeriod_VALID == 1
/-- The transit period in ns. -/
def State.period (s : State) : Nat := s.fget R.ngtPeriod F.ngtPeriod_N * 256
/-- The transit number: 0 while no meridians are generated. -/
def State.transit (s : State) : Nat := if s.valid && s.period ≠ 0 then s.ns / s.period else 0
/-- The next meridian, in 2⁻⁴⁸ ns, while meridians are generated (R18). -/
def State.nextMeridian (s : State) : Option Nat :=
  if s.valid && s.period ≠ 0 then some (((s.transit + 1) * s.period) <<< 48) else none
/-- NGT stands at instant `t` (2⁻⁴⁸ ns) or later: an event that falls at a known instant carries the count there, but never
past a meridian, which has its own command. -/
def State.reach (s : State) (t : Nat) : State :=
  let t' := match s.nextMeridian with
    | some m => min t (m - 1)
    | none => t
  if s.ngt.now < t' then { s with ngt := { s.ngt with now := t' } } else s
/-- The absolute fret of an instant in 2⁻⁴⁸ ns (R299). -/
def fretOf (t : Nat) : Nat := (t >>> 48) / 4
/-- The start of an absolute fret in 2⁻⁴⁸ ns. -/
def fretStart (f : Nat) : Nat := (4 * f) <<< 48

/-- Take a free value: the draw counter advances. -/
def State.draw (s : State) : Nat × State := (s.draws, { s with draws := s.draws + 1 })

/-! ## Own placement (R28, R393) -/

/-- Own coordinate address, unit 0x7FFF, as TOP_STATUS holds it. -/
def State.coord (s : State) : Nat := s.fget R.topStatus F.topStatus_COORD

/-- x, y, z of a coordinate address (R337). -/
def coordX (a : Nat) : Nat := field a 19 2
def coordY (a : Nat) : Nat := field a 17 2
def coordZ (a : Nat) : Nat := field a 15 2
/-- Rack of a coordinate address. -/
def coordRack (a : Nat) : Nat := field a 21 10

/-- Board slot of a coordinate address (R28). -/
def boardSlot (a : Nat) : Nat := coordX a % 2 + 2 * (coordY a % 2) + 4 * (coordZ a % 2)

/-- Own board slot. -/
def State.ownSlot (s : State) : Nat := boardSlot s.coord

/-- Own address with a unit. -/
def State.unitAddr (s : State) (u : Nat) : Nat := s.coord / 2 ^ 15 * 2 ^ 15 + u

/-- The table version in force at ports and outboxes (R324, R326). -/
def State.version (s : State) : Bool := s.fget R.fabEpoch F.fabEpoch_ACTIVE == 1

/-! ## Ports (R350, R380, R389) -/

/-- Whether a port is UP. -/
def State.portUp (s : State) (p : Nat) : Bool := (s.link p).st == .up
/-- Whether a port's gate lets packets pass: own and partner's gate OPEN, QUARANTINE clear (R380, R381). -/
def State.portOpen (s : State) (p : Nat) : Bool :=
  (s.link p).gate == .opened && (s.link p).partner == .opened && s.fget (R.lnkCtl p) F.lnkCtl_QUARANTINE == 0

/-! ## Interrupts (R451, R457) -/

/-- A message of an MSI-X vector: sent if enabled and unmasked, otherwise pending (R451). -/
def State.signal (s : State) (v : Nat) : State :=
  let x := tget {} s.stw.msix v
  let x := if s.stw.pcie.msixOn && !x.masked then { x with sent := x.sent + 1 } else { x with pending := true }
  { s with stw := { s.stw with msix := tset {} s.stw.msix v x } }

/-- Whether the device may master the PCI Express link: the data link is up, Bus Master Enable is set, and the function is not in
D3hot, which stops DMA (R448, R450). -/
def State.dmaOn (s : State) : Bool :=
  s.fget R.pciLink F.pciLink_UP == 1 && s.fget R.pciLink F.pciLink_BME == 1 && !s.stw.pcie.d3

/-- An error the endpoint logs in AER (R452). -/
def State.logAer (s : State) : State := { s with stw := { s.stw with pcie := { s.stw.pcie with aer := s.stw.pcie.aer + 1 } } }

/-- Set a DEV_EVENT bit; a change to 1 with its mask clear signals vector 0 (R451). -/
def State.event (s : State) (f : RField) : State :=
  let was := s.fget R.devEvent f
  let s1 := s.fset R.devEvent f 1
  if was = 0 ∧ bit (s.fget R.devEvent F.devEvent_MASK) f.lo = false then s1.signal 0 else s1

/-- DEV_STATUS.STATE changes (R453, R465). -/
def State.devState (s : State) (v : Nat) : State :=
  if s.fget R.devStatus F.devStatus_STATE = v then s
  else (s.fset R.devStatus F.devStatus_STATE v).event F.devEvent_STATE_CHANGE

/-- Binding word of a channel. -/
def State.bind (s : State) (n : Nat) : Nat := (s.reg (R.mbxBindN n)).toNat

/-- Identity code of a side of a channel (1 HOST, 2 STW0, 3 STW1, 4 BMC, 5 DBG, 6 REMOTE), 0 while unbound. -/
def State.sideCode (s : State) (n : Nat) (resp : Bool) : Nat :=
  if bit (s.bind n) 63 then field (s.bind n) (if resp then 8 else 0) 3 else 0

/-- Set a doorbell bit of channel `n`; a change from 0 to 1 of an unmasked bit of a HOST half signals its vector (R451,
R457). Bits 15:0 are the initiator's half. -/
def State.ringBit (s : State) (n b : Nat) : State :=
  let off := R.dblStatusN n
  let was := bit (s.reg off).toNat b
  let s1 := s.setReg off (s.reg off ||| BitVec.ofNat 64 (2 ^ b))
  if !was && !bit (s.reg (R.dblMaskN n)).toNat b && s.sideCode n (b ≥ 16) = 1 then s1.signal (field (s.bind n) 48 6) else s1

/-- Clear doorbell bits of channel `n`. -/
def State.clearBits (s : State) (n mask : Nat) : State :=
  s.setReg (R.dblStatusN n) (s.reg (R.dblStatusN n) &&& ~~~(BitVec.ofNat 64 mask))

/-! ## Local HBM (R188, R205 to R207) -/

/-- Stack of a local slot offset. -/
def hbmStack (o : Nat) : Nat := Nat.xor (field o 10 3) (field o 18 3)
/-- Pseudo-channel of a local slot offset. -/
def hbmPc (o : Nat) : Nat := Nat.xor (field o 13 5) (field o 21 5)
/-- Granule within the pseudo-channel. -/
def hbmGranule (o : Nat) : Nat := field o 18 22

/-- Whether the pseudo-channel of an offset is lost, or its stack is not READY or DEGRADED (R212, R453). -/
def State.hbmDead (s : State) (o : Nat) : Bool :=
  let st := s.fget (R.hbmStatus (hbmStack o)) F.hbmStatus_STATE
  bit (s.fget (R.hbmStatus (hbmStack o)) F.hbmStatus_PC_LOST) (hbmPc o) || !(st == 2 || st == 3)

/-- The units of a range. -/
def unitsOf (off len : Nat) : List Nat :=
  if len = 0 then [] else (List.range (cdiv (off % 64 + len) 64)).map fun i => off / 64 + i

/-- Bytes of the local slot. -/
def State.hbmBytes (s : State) (off len : Nat) : List Byte := Mem.rdBytes s.hbm off len

/-- Whether any unit of a range is poisoned. -/
def State.hbmBad (s : State) (off len : Nat) : Bool := (unitsOf off len).any s.hbmPoison.contains

/-- Write free bytes over a unit: the values of a poisoned unit stored in part are undefined (R207). -/
def State.freeUnit (s : State) (u : Nat) : State :=
  { s with hbm := Mem.wrBytes s.hbm (64 * u) ((List.range 64).map fun i => Config.freeByte (s.draws + i))
           draws := s.draws + 64 }

/-- A store to the local slot (R207): `bad i` says whether byte `i` is poisoned. A unit written with any poisoned byte
becomes poisoned; a unit written whole with clean data becomes good; a poisoned unit written in part stays poisoned and its
bytes are undefined. -/
def State.hbmWrite (s : State) (off : Nat) (bs : List Byte) (bad : Nat → Bool) : State :=
  let s1 := { s with hbm := Mem.wrBytes s.hbm off bs }
  (unitsOf off bs.length).foldl (fun z u =>
    let lo := 64 * u - off
    let hi := min (64 * u + 64 - off) bs.length
    let whole := off ≤ 64 * u && 64 * u + 64 ≤ off + bs.length
    if (List.range (hi - lo)).any (fun i => bad (lo + i)) then { z with hbmPoison := sins z.hbmPoison u }
    else if whole then { z with hbmPoison := sdel z.hbmPoison u }
    else if z.hbmPoison.contains u then z.freeUnit u
    else z) s1

/-! ## Where an address lies (R189, R190) -/

/-- The tier of a 48-bit address. -/
inductive Tier where
  | board (slot : Nat)
  | host (win off : Nat)
  | none
  deriving DecidableEq, Repr

/-- Tier of an address: board slots 0-7, host windows 0-15 from 2⁴⁴. -/
def tierOf (a : Nat) : Tier :=
  if a < 2 ^ 43 then .board (a / 2 ^ 40)
  else if 2 ^ 44 ≤ a ∧ a < 2 ^ 45 then .host ((a - 2 ^ 44) / 2 ^ 40) (a % 2 ^ 40)
  else .none

/-- Host bus address of a range of the host tier, none through an unbound window or beyond its length (R190). -/
def State.hostAddr (s : State) (win off len : Nat) : Option Nat :=
  match s.wins.find? (·.1 == win) with
  | some (_, w) => if off + len ≤ w.len then some (w.base + off) else none
  | none => none

/-! ## Delivery (R111, R196, R197) -/

/-- Poison bits of 16 lanes for each unit listed, units counted from the start of the operation. -/
def unitLanes (bad : List Nat) : Nat := bad.foldl (fun v u => v ||| (65535 <<< (16 * u))) 0

/-- Write overlay bytes: whole bundles of 32 bytes; a bundle of a poisoned unit is poisoned. -/
def loadBundles (t : Tile) (first : Nat) (bs : List Byte) (bad : Nat → Bool) : Tile :=
  (List.range (bs.length / 32)).foldl (fun z i =>
    let w := leNat ((bs.drop (32 * i)).take 32)
    { z with imem := tset 0 z.imem (first + i) (BitVec.ofNat 256 w)
             imemPoison := if bad (i / 2) then sins z.imemPoison (first + i) else sdel z.imemPoison (first + i) }) t

/-- Store bytes in a tile's store by units of 64 bytes, poisoned units in the poison encoding (R51, R197). -/
def storeUnits (t : Tile) (a : Nat) (bs : List Byte) (bad : Nat → Bool) : Tile :=
  let words := cdiv bs.length 8
  let p := (List.range words).foldl (fun q i => if bad (i / 8) then sins q (a / 8 + i) else sdel q (a / 8 + i)) t.storePoison
  { t with store := Mem.wrBytes t.store a bs, storePoison := p }

/-- Bytes arrive for an operation, `pos` bytes from its start; `bad i` says whether the `i`-th unit of them is poisoned. -/
def deliver (t : Tile) (o : MqeOp) (pos : Nat) (bs : List Byte) (bad : Nat → Bool) : Tile :=
  let units := List.range (cdiv bs.length 64)
  match o.kind with
  | .ldqv _ =>
    { t with tags := tmod {} t.tags o.tag fun g =>
        { g with data := BitVec.ofNat 8192 (putField g.data.toNat (8 * pos) (8 * bs.length) (leNat bs))
                 poison := g.poison ||| BitVec.ofNat 256 (unitLanes ((units.filter bad).map (· + pos / 64))) } }
  | .ldqt st => storeUnits t (st + pos) bs bad
  | .ldqi first _ => loadBundles t (512 * first + pos / 32) bs bad
  | _ => t

/-- Whether an operation loads. -/
def QKind.loads : QKind → Bool
  | .ldqv _ | .ldqt _ | .ldqi _ _ => true
  | _ => false

/-- The bytes a store operation moves, with the poison of each byte (R111, R207). -/
def storeData (t : Tile) (o : MqeOp) : List Byte × (Nat → Bool) :=
  match o.kind with
  | .stqv _ data poison => (leBytes o.len data.toNat, fun i => bit poison.toNat (i / 4))
  | .stqt st => (Mem.rdBytes t.store st o.len, fun i => shas t.storePoison ((st + i) / 8))
  | _ => ([], fun _ => false)

/-! ## Queue operations cancelled (R204) -/

/-- The pieces of a range by 64-byte units: position in the range and length. -/
def unitPieces (off len : Nat) : List (Nat × Nat) :=
  (unitsOf off len).map fun u => (max off (64 * u) - off, min (off + len) (64 * u + 64) - max off (64 * u))

/-- A load is cut off: each 8-byte word of tile store (LDQ.T) or bundle of instruction memory (LDQ.I) was written or not, as
the free values drawn say; a data buffer takes nothing. `bad i` says whether unit `i` of the data is poisoned. -/
def State.partLoad (s : State) (o : MqeOp) (bs : List Byte) (bad : Nat → Bool) : State :=
  let cut (n : Nat) (put : Tile → Nat → Tile) : State :=
    let t := (List.range (o.len / n)).foldl (fun z k => if Config.partLands (s.draws + k) then put z k else z) (s.tile o.tile)
    { s.setTile o.tile t with draws := s.draws + o.len / n }
  match o.kind with
  | .ldqt st => cut 8 fun z k => storeUnits z (st + 8 * k) ((bs.drop (8 * k)).take 8) fun _ => bad (k / 8)
  | .ldqi first _ => cut 32 fun z k => loadBundles z (512 * first + k) ((bs.drop (32 * k)).take 32) fun _ => bad (k / 2)
  | _ => s

/-- A store is cut off: each 64-byte unit was written whole or not at all, as the free values drawn say; `put` writes a piece. -/
def State.partStore (s : State) (off len : Nat) (put : State → Nat → Nat → State) : State :=
  let ps := unitPieces off len
  (List.range ps.length).foldl (fun z k =>
    let (i, n) := ps.getD k (0, 0)
    if Config.partLands (s.draws + k) then put z i n else z) { s with draws := s.draws + ps.length }

/-- What an operation did before it was cancelled (R204). What has gone to or come from another board slot has done so by its
packets. The bytes a load from the host had brought are free values: the host supplies them only with a completion. -/
def State.partOp (s : State) (o : MqeOp) : State :=
  let (bs, bad) := storeData (s.tile o.tile) o
  match tierOf o.addr with
  | .board b =>
    let off := o.addr % 2 ^ 40
    if b ≠ s.ownSlot then s
    else if o.kind.loads then s.partLoad o (s.hbmBytes off o.len) fun i => shas s.hbmPoison (off / 64 + i)
    else s.partStore off bs.length fun z i n =>
      if s.hbmDead (off + i) then z else z.hbmWrite (off + i) ((bs.drop i).take n) fun j => bad (i + j)
  | .host w off =>
    match s.hostAddr w off o.len with
    | none => s
    | some h =>
      if o.kind.loads then
        { s with draws := s.draws + o.len }.partLoad o ((List.range o.len).map fun i => Config.freeByte (s.draws + i)) fun _ => false
      else s.partStore h bs.length fun z i n =>
        { z with stw := { z.stw with toHost := Mem.wrBytes z.stw.toHost (h + i) ((bs.drop i).take n) } }
  | .none => s

/-- Forget what an owner still waits for: its awaited responses and its packets not yet sent. -/
def State.forget (s : State) (ow : Owner) : State :=
  { s with svc := { s.svc with
      awaits := s.svc.awaits.filter fun a => a.owner != ow
      ctx := s.svc.ctx.map fun e => (e.1, { e.2 with waiting := e.2.waiting.filter fun w => w.owner != ow }) } }

/-- A queue operation of the host tier leaves its DMA channel (R191). -/
def State.leaveDma (s : State) (tile tag : Nat) : State :=
  { s with stw := { s.stw with dma := (s.stw.dma.map fun e => (e.1, e.2.filter fun x => x.op != some (tile, tag))).filter fun e => e.2 ≠ [] } }

/-- Cancel the operations of an MQE that satisfy `q`: what they had done stays done, their tags become FREE, their pool
entries return, no response is awaited for them and no request of theirs leaves any more, and a tile stalled on a tag notes the instant. -/
def State.cancelOps (s : State) (d : Nat) (q : MqeOp → Bool) : State :=
  let gone := (s.mqe d).ops.filter q
  let s1 := gone.foldl (fun y o =>
    let z := y.partOp o
    let t := z.tile o.tile
    let z1 := z.setTile o.tile { t with tags := tset {} t.tags o.tag {}
                                        issue := if t.issue.status == .qwaitStall then
                                            { t.issue with waitDone := max t.issue.waitDone s.ngt.now } else t.issue }
    (z1.forget (.mqe o.tile o.tag)).leaveDma o.tile o.tag) s
  s1.setMqe d { s.mqe d with ops := (s.mqe d).ops.filter fun o => !q o }

/-- Cancel every operation of every MQE. -/
def State.cancelAll (s : State) : State := (List.range 32).foldl (fun z d => z.cancelOps d fun _ => true) s

/-! ## Floods and failed transits (R22, R522) -/

/-- Endpoint addresses of the stewards a flood is sent to (R410, R522): the neighbours on open axis ports and the spine
partners, as the active almanac names them. -/
def State.floodTo (s : State) : List Nat :=
  match s.top.active with
  | none => []
  | some a =>
    (List.range 8).filterMap fun p =>
      if (s.link p).gate = .opened then
        match a.links.find? fun l => (l.end0 == s.coord && l.port0 == p) || (l.kind == 0 && l.end1 == s.coord && l.port1 == p) with
        | some l => some ((if l.end0 == s.coord && l.port0 == p then l.end1 else l.end0) / 2 ^ 15 * 2 ^ 15 + 0x400)
        | none => none
      else none

/-- Send a steward message to every flood neighbour. -/
def State.flood (s : State) (body : List Byte) : State :=
  { s with stw := { s.stw with msgOut := s.stw.msgOut ++ s.floodTo.map fun d => { dest := d, body := body } } }

/-- Body of TRANSIT_FAILED (R522). -/
def failedBody (stop : Bool) (pid t code : Nat) : List Byte :=
  leBytes 1 0x0B ++ leBytes 1 (b2n stop) ++ leBytes 8 pid ++ leBytes 6 t ++ leBytes 2 code ++ leBytes 6 0

/-- REQ_ID of a context (R478). -/
def Request.id (r : Request) (i : Nat) : Nat := r.gen % 2 ^ 18 * 2 ^ 14 + i

/-- The last transit of a request's current run: that of its completion record once it is read (R479), before then the last of the
pipeline (R280). -/
def State.lastOf (s : State) (r : Request) : Nat :=
  if r.record.isSome then r.lastT else r.inputT + (if s.prog.hdr.depth = 0 then 1 else s.prog.hdr.depth) - 1

/-- Whether a request's current run uses transit `t`. -/
def State.usesT (s : State) (r : Request) (t : Nat) : Bool :=
  (r.st == .inFlight || r.st == .cancelling) && r.inputT ≤ t && t ≤ s.lastOf r

/-- A request ends: its context is freed and its completion entry falls due (R482). -/
def State.endReq (s : State) (i : Nat) (status lastT progStatus : Nat) : State :=
  let r := s.req i
  { (s.setReq i { st := .free, gen := r.gen }) with
    reqDone := s.reqDone ++ [{ chan := r.chan, reqId := r.id i, status := status, reruns := r.reruns, lastT := lastT,
                               progStatus := progStatus }] }

/-- Base of the request-queue segment in the local slot (R290); none without one. -/
def State.reqBase (s : State) : Option Nat :=
  let secs := s.prog.secs.find? (·.typ == 0x0009)
  match secs with
  | none => none
  | some x =>
    match (List.range (x.data.length / 32)).find? (fun i => bit (leAt x.data (32 * i + 4) 1) 2) with
    | none => none
    | some i => (s.prog.segs[i]?).map fun g => g.base % 2 ^ 40

/-- Write clean bytes of the local slot. -/
def State.hbmPut (s : State) (off : Nat) (bs : List Byte) : State := s.hbmWrite off bs fun _ => false

/-- Post an entry for a context at the next ring position (R479, R480). -/
def State.postEntry (s : State) (i : Nat) : State :=
  match s.reqBase with
  | none => s
  | some b =>
    let r := s.req i
    let k := s.prog.posted
    let entry := leBytes 4 (r.id i) ++ leBytes 2 r.desc.length ++ leBytes 1 r.reruns ++ leBytes 1 0 ++ leBytes 8 r.stamp ++
      r.desc ++ List.replicate (240 - r.desc.length) 0#8
    let s1 := s.hbmPut (b + 0x40 + k % 16384 * 256) entry
    let s2 := s1.hbmPut b (leBytes 8 (k + 1))
    { (s2.setReq i { r with st := .queued, ring := k, record := none }) with prog := { s.prog with posted := k + 1 } }

/-- Re-post or end every request whose run used a failed transit (R481, R483). -/
def State.repost (s : State) (t : Nat) : State :=
  (s.reqs.filter fun e => s.usesT e.2 t).foldl (fun z e =>
    let closed := if e.2.inputT < z.transit then (if z.lastOf e.2 < z.transit then z.lastOf e.2 else z.transit - 1) else 0
    if e.2.st == .cancelling then z.endReq e.1 0x0400 closed (e.2.record.getD 0)
    else if e.2.reruns ≥ 255 then z.endReq e.1 0x0800 closed (e.2.record.getD 0)
    else (z.setReq e.1 { e.2 with reruns := e.2.reruns + 1 }).postEntry e.1) s

/-- Whether a program is armed, starting, running or stopping and transit `t` is not yet failed. -/
def State.mayFail (s : State) (t : Nat) : Bool :=
  (match s.prog.st with | .none | .loading | .loaded | .arming => false | _ => true) && !s.prog.failed.contains t

/-- A transit is failed (R22), with no request re-run yet. -/
def State.noteFailed (s : State) (t code : Nat) : State :=
  { s with prog := { s.prog with failed := s.prog.failed ++ [t], failedCount := s.prog.failedCount + 1, lastCode := code } }

/-- The first copy of a pair of program and transit is flooded, every repeat is not (R522). -/
def State.forwardFailed (s : State) (id t code : Nat) (stop : Bool) : State :=
  if s.prog.flooded.contains (id, t) then s
  else ({ s with prog := { s.prog with flooded := s.prog.flooded ++ [(id, t)] } }).flood (failedBody stop id t code)

/-- The decision that a transit of the program failed is flooded once (R522). -/
def State.floodFailed (s : State) (t code : Nat) (stop : Bool) : State := s.forwardFailed s.prog.hdr.programId t code stop

/-- Mark a transit failed (R22, R522): its requests are re-run, and the decision is flooded once. -/
def State.markFailed (s : State) (t code : Nat) (stop : Bool) : State :=
  if s.mayFail t then ((s.noteFailed t code).repost t).floodFailed t code stop else s

/-! ## The end of a program (R475, R493) -/

/-- The clock setting in force (R246, R253). -/
def State.setting (s : State) : Nat := s.clkSetting

/-! ## District clocks (R246 to R248, R253) -/

/-- CLK_STATUS.STATE codes. -/
def clkRunning : Nat := 0
/-- Calibrating, or run in again after a failure (R259, R264). -/
def clkCal : Nat := 1
/-- Halted for a retune (R257). -/
def clkHalted : Nat := 2
/-- Power-gated. -/
def clkGated : Nat := 3
/-- Failed (R250). -/
def clkFailed : Nat := 4

/-- State of a district clock. -/
def State.clkState (s : State) (d : Nat) : Nat := s.fget (R.clkStatus d) F.clkStatus_STATE
/-- Set the state of a district clock. -/
def State.setClkState (s : State) (d v : Nat) : State := s.fset (R.clkStatus d) F.clkStatus_STATE v

/-- Whether a district's clock drives its tiles: running, or run in for the transit of R264. -/
def State.clkOn (s : State) (d : Nat) : Bool := s.clkState d == clkRunning || (s.clkState d == clkCal && (s.clk d).trial.isSome)

/-- τ of a setting in 2⁻⁴⁸ ns (R246). -/
def setPeriod (v : Nat) : Nat := 40 * 2 ^ 48 / max v 20

/-- Steps of stretch of a cycle that begins at instant `t`: STEPS while the droop sensor is tripped (R248). -/
def Clk.stepsAt (c : Clk) (t : Nat) : Nat :=
  match c.stretch.find? fun x => x.since ≤ t && (match x.upto with | none => true | some u => t < u) with
  | some x => x.steps
  | none => 0

/-- A period as it turns out: within 2 × 10⁻⁴ of its set value, by a free deviation of the cycle (R246). -/
def deviated (full : Nat) (j : Int) : Nat := ((full : Int) + (full : Int) * clampI (-3355) 3355 j / (2 ^ 24 : Nat)).toNat

/-- Length in 2⁻⁴⁸ ns of cycle number `k` of a district's clock, which begins at instant `t` (R246, R248). -/
def State.clkLen (s : State) (d k t : Nat) : Nat :=
  deviated (setPeriod (s.fget (R.clkStatus d) F.clkStatus_SETTING) * (128 + (s.clk d).stepsAt t) / 128) (Config.jitter d k)

/-- The first cycle at or after instant `x`, from cycle number `k` that begins at `t`: its number and its start. -/
def edgeFrom (len : Nat → Nat → Nat) (x : Nat) : Nat → Nat → Nat → Nat × Nat
  | 0, k, t => (k, t)
  | n + 1, k, t => if x ≤ t then (k, t) else edgeFrom len x n (k + 1) (t + len k t)

/-- The first cycle of a district that begins at or after instant `x` (R247, R260). Cycles last more than 2⁴⁷ of 2⁻⁴⁸ ns. A clock
that has run longer than the longest transit since it was last looked at has a free phase (log 9). -/
def State.clkEdge (s : State) (d x : Nat) : Nat × Nat :=
  let c := s.clk d
  if x ≤ c.at_ + 4194304 <<< 48 then edgeFrom (s.clkLen d) x ((x - c.at_) / 2 ^ 47 + 1) c.cyc c.at_
  else
    let k := c.cyc + (x - c.at_) / 2 ^ 47
    (k, x + Config.clkPhase d k % max (s.clkLen d k x) 1)

/-- A district's clock is looked at again from its first cycle at or after instant `x`; stretches that ended before it are done. -/
def State.anchorClk (s : State) (d x : Nat) : State :=
  let e := s.clkEdge d x
  let c := s.clk d
  s.setClk d { c with cyc := e.1, at_ := e.2, stretch := c.stretch.filter fun y => match y.upto with | none => true | some u => x < u }

/-- A setting takes effect in every powered district: the cycle in progress completes at its old period (R253). A gated one takes
it when it is ungated. -/
def State.takeSetting (s : State) (v : Nat) : State :=
  (List.range 32).foldl (fun z d => if z.clkState d = clkGated then z else
    (z.anchorClk d z.ngt.now).fset (R.clkStatus d) F.clkStatus_SETTING v) { s with clkSetting := v }

/-! ## Energy declarations and tokens (R489 to R495) -/

/-- E(S): a declaration scaled to setting `v` (R489). -/
def State.scaled (s : State) (e v : Nat) : Nat := cdiv (e * s.fget (R.pwrVfS (v - 20)) F.pwrVfS_F) 4096

/-- E_WORST of each phase of the program (R283). -/
def Prog.worsts (p : Prog) : List Nat :=
  match p.secs.find? (·.typ == 0xB) with
  | none => []
  | some x => (List.range (x.data.length / 16)).map fun i => leAt x.data (16 * i) 4

/-- W(S): the largest E_WORST(S) over the phases (R489). -/
def State.worstAt (s : State) (v : Nat) : Nat := s.prog.worsts.foldl (fun m e => max m (s.scaled e v)) 0

/-- B_T of a budget in mW for a period in ns (R490). -/
def perTransit (mw p : Nat) : Nat := mw * p / 10 ^ 6

/-- The period of the loaded program in ns (R18). -/
def State.progPeriod (s : State) : Nat := s.prog.hdr.periodN * 256

/-- Whether a program is armed, or started and not yet stopped. -/
def State.armed (s : State) : Bool :=
  match s.prog.st with
  | .armed | .starting | .running | .stopping => true
  | _ => false

/-- Whether a program runs. -/
def State.running (s : State) : Bool := s.prog.st == .running || s.prog.st == .stopping

/-- The planner's setting S* for a budget in mW with `floor` as the lowest setting, none if no setting satisfies R495. -/
def State.planned (s : State) (mw floor : Nat) : Option Nat :=
  ((List.range 23).map fun i => 42 - i).find? fun v =>
    floor ≤ v && s.worstAt v ≤ perTransit mw s.progPeriod && v ≤ s.fget R.pwrTherm F.pwrTherm_CAP

/-- The tokens follow the budget and the setting while a program is armed or running (R493); ADMITTED > BUDGET is a ledger
fault found by the ledger unit. -/
def State.setTokens (s : State) : State :=
  if s.armed then
    (s.fset R.enrTokens F.enrTokens_BUDGET (perTransit (s.fget R.enrBudget F.enrBudget_IN_FORCE_MW) s.progPeriod)).fset
      R.enrTokens F.enrTokens_ADMITTED (s.worstAt s.setting)
  else s.setReg R.enrTokens 0

/-- A pending retune takes effect (R253, R254): every district takes the setting and the tokens follow. -/
def State.applyRetune (s : State) : State :=
  let v := s.fget R.clkRetune F.clkRetune_SETTING
  ((s.takeSetting v).fset R.clkRetune F.clkRetune_PENDING 0).setTokens

/-- Clear NGT_PERIOD.VALID: a retune still pending applies (R254). -/
def State.endMeridians (s : State) : State :=
  let s1 := s.fset R.ngtPeriod F.ngtPeriod_VALID 0
  if s1.fget R.clkRetune F.clkRetune_PENDING = 1 then s1.applyRetune else s1

/-- The program's streams are to be closed and freed (R357). -/
def State.closeStreams (s : State) : State :=
  { s with svc := { s.svc with closing := s.svc.closing ++ (List.range s.prog.streams).map (s.prog.firstStream + ·) } }

/-- Free what PROG_LOAD placed (R475 UNLOAD). -/
def State.unloadProg (s : State) : State :=
  { s with prog := { lastStatus := s.prog.lastStatus, lastCode := s.prog.lastCode, failedCount := s.prog.failedCount } }

/-- Whether two HBM rows are one. -/
def HbmRow.sameAs (r x : HbmRow) : Bool := x.stack == r.stack && x.pc == r.pc && x.row == r.row

/-- Spare rows used in the bank of a row. -/
def hbmUsed (rows : List HbmRow) (r : HbmRow) : Nat :=
  (rows.filter fun x => x.stack == r.stack && x.pc == r.pc && Config.hbmBank x.row == Config.hbmBank r.row).foldl (fun n x => n + x.used) 0

/-- Whether the bank of a row has a spare row left (R211). -/
def State.hbmSpare (s : State) (r : HbmRow) : Bool := hbmUsed s.ras.hbmRows r < Config.hbmSpares r.stack r.pc (Config.hbmBank r.row)

/-- Soft post-package repair of a remapped row (R210): the entry's data go to the repaired row, the entry is free, and the row is
recorded. A row whose bank has no spare row keeps its entry (R211). -/
def State.repairRow (s : State) (r : HbmRow) : State :=
  match r.entry with
  | none => s
  | some n =>
    if !s.hbmSpare r then s
    else
      let z := s.resetReg (R.hbmRemapN r.stack n)
      let fix (x : HbmRow) : HbmRow := if r.sameAs x then { x with entry := none, repaired := 2, used := x.used + 1 } else x
      { z with ras := { z.ras with hbmRows := z.ras.hbmRows.map fix } }

/-- Soft post-package repair of every remapped row, while no program runs (R210). -/
def State.softRepair (s : State) : State := s.ras.hbmRows.foldl (fun z r => z.repairRow r) s

/-- The stop of a program (R475): no tile starts a block, meridians and fret maps end, every outstanding request completes
ABORTED, tokens become 0, CLK_MIN_SETTING becomes 20, a pending budget takes effect (R491), and a device that has LOST time
acquires again (R232). -/
def State.stopNow (s : State) : State :=
  let closed := s.transit - 1
  let s1 := s.reqs.foldl (fun z e => if e.2.st == .free then z else
    z.endReq e.1 0x0400 (if e.2.st == .queued then 0 else if e.2.inputT < s.transit then
      (if s.lastOf e.2 < closed then s.lastOf e.2 else closed) else 0) (e.2.record.getD 0)) s
  let s2 := (List.range 8).foldl (fun z p => z.fset (R.fabCtl p) F.fabCtl_ENABLE 0) s1
  let s3 := s2.tiles.foldl (fun z e =>
    let t := e.2
    match t.issue.status with
    | .running | .tendWait | .qwaitStall =>
      (z.cancelOps (districtOf e.1) (·.tile == e.1)).setTile e.1
        { (z.cancelOps (districtOf e.1) (·.tile == e.1)).tile e.1 with
          issue := { status := .idle, last := t.issue.last, transit := t.issue.transit } }
    | _ => z) s2
  let s4 := s3.closeStreams.endMeridians
  let s5 := (s4.setReg R.enrTokens 0).fset R.clkMinSetting F.clkMinSetting_MIN 20
  let s6 := if s5.fget R.enrBudget F.enrBudget_PENDING = 1 then
      (s5.fset R.enrBudget F.enrBudget_IN_FORCE_MW (s5.fget R.enrBudget F.enrBudget_PENDING_MW)).fset R.enrBudget
        F.enrBudget_PENDING 0
    else s5
  let p := s6.prog
  let s7 : State := { s6 with prog := { p with st := .loaded, stopAt := none, startPend := false, detour := none },
                              enr := { s6.enr with capHold := false } }
  let s8 := if s7.fget R.ngtStatus F.ngtStatus_STATE = 4 then
      ({ s7 with ngt := { s7.ngt with lockRun := 0, unlockRun := 0 } } : State).fset R.ngtStatus F.ngtStatus_STATE
        (b2n (s7.fget R.ngtStatus F.ngtStatus_DOMAIN_A == 2 || s7.fget R.ngtStatus F.ngtStatus_DOMAIN_B == 2))
    else s7
  let s9 := s8.softRepair
  if p.unload then s9.unloadProg else s9

/-- Schedule the stop of the program at the first meridian of a transit at or after `t` (R475, R522). An armed program
with no meridians stops at once. -/
def State.stopFrom (s : State) (t status : Nat) : State :=
  match s.prog.st with
  | .none | .loading | .loaded => s
  | _ =>
    let p := { s.prog with lastStatus := status, startPend := false }
    let s1 := { s with prog := p }
    if !s.valid then s1.stopNow
    else
      let at' := match s.prog.stopAt with | some u => min u t | none => t
      { s1 with prog := { p with st := .stopping, stopAt := some at' } }

/-! ## Device-fatal containment (R523) -/

/-- Every district stops issuing: running tiles are FAULTED. -/
def State.haltTiles (s : State) : State :=
  { s with tiles := s.tiles.map fun e => (e.1, match e.2.issue.status with
      | .running | .tendWait | .qwaitStall => { e.2 with issue := { e.2.issue with status := .faulted } }
      | _ => e.2) }

/-- Every powered port sets its gate to LEAVING (R382). -/
def State.leaveGates (s : State) : State :=
  (List.range 8).foldl (fun z p =>
    let l := z.link p
    if l.st = .disabled then z else z.setLink p { l with gate := .leaving }) s

/-- Containment of a device-fatal fault (R523). -/
def State.containDevice (s : State) : State :=
  let s1 := s.haltTiles.cancelAll.leaveGates.devState 4
  { (s1.fset R.ldgStatus F.ldgStatus_SUSPENDED 1) with ras := { s1.ras with contained := true } }

/-! ## Fault records (R519 to R522) -/

/-- Where a fault lies. -/
structure Place where
  district : Nat := 0
  slot : Nat := 6
  ptile : Nat := 0xFFFF
  ltile : Nat := 0xFFFF
  bundle : Nat := 0

/-- Queue a record of transit `t` (R521): a corrected or deferred one is dropped at 224 entries, any at 256. -/
def State.recordIn (s : State) (t code cls : Nat) (pl : Place) (detail : Nat) : State :=
  let n := s.ras.queue.length
  if n ≥ 256 ∨ (n ≥ 224 ∧ cls ≤ 2) then
    { (s.fbump R.rasLogStatus F.rasLogStatus_DROPPED 1) with ras := { s.ras with lossNext := true } }
  else
    let r : FaultRec := { code := code, cls := cls, loss := s.ras.lossNext, district := pl.district, slot := pl.slot,
                          ptile := pl.ptile, ltile := pl.ltile, bundle := pl.bundle, ngt := hwStamp s.stamp,
                          transit := t, detail := detail % 2 ^ 192 }
    { s with ras := { s.ras with queue := s.ras.queue ++ [r], lossNext := false } }

/-- Queue a record of the transit in progress. -/
def State.record (s : State) (code cls : Nat) (pl : Place) (detail : Nat) : State := s.recordIn s.transit code cls pl detail

/-- Contain a fault by its class (R520): a transit-fatal fault marks the transit failed, a program-fatal fault stops the
program at the first meridian at or after T + 2, a device-fatal fault acts under R523. -/
def State.contain (s : State) (code cls t : Nat) : State :=
  if cls = 3 then s.markFailed t code false
  else if cls = 4 then
    (s.markFailed t code true).stopFrom (t + 2) 0x0400
  else if cls = 5 then s.containDevice
  else s

/-- Record a fault and contain it. -/
def State.raise (s : State) (code cls : Nat) (pl : Place) (detail : Nat) : State :=
  (s.record code cls pl detail).contain code cls s.transit

/-- The place of a tile. -/
def State.tilePlace (s : State) (p slot bundle : Nat) : Place :=
  { district := districtOf p, slot := slot, ptile := p, ltile := s.ltileOf p, bundle := bundle }

/-! ## Memory records and ECC events (R206, R213, R437) -/

/-- Detail of a memory record (R213). Of an address outside the local slot the stack and the pseudo-channel are those its bits name as
a slot offset: the spec does not say what these bytes hold for the host tier (the model's choice, log 95). -/
def memDetail (b off tag : Nat) : Nat :=
  (b * 2 ^ 40 + off) % 2 ^ 48 + hbmStack off * 2 ^ 48 + hbmPc off * 2 ^ 56 + tag * 2 ^ 64

/-- Whether a weight shard applies to this device (R431). -/
def State.shardApplies (s : State) (rackAny : Bool) (x : Shard) : Bool :=
  field x.target 15 6 == field s.coord 15 6 && (rackAny || coordRack x.target == coordRack s.coord)

/-- An uncorrectable error in a verified chunk of the holder's memory clears its VERIFIED bit (R437). -/
def State.chunkLost (s : State) (off : Nat) : State :=
  let fix (rackAny : Bool) (x : Shard) : Shard :=
    match s.prog.segs[x.segment]? with
    | some g =>
      let b := g.base % 2 ^ 40
      if s.shardApplies rackAny x && g.kind ≤ 1 && b ≤ off && off < b + g.size then
        { x with verified := sdel x.verified ((off - b) / 2 ^ 20) } else x
    | none => x
  if s.sec.manifests.isEmpty then s
  else { s with sec := { s.sec with manifests := s.sec.manifests.map fun e =>
    (e.1, { e.2 with shards := e.2.shards.map (fix e.2.rackAny) }) } }

/-- The row of a unit, in a table of errors: what the controller knows of it. -/
def State.hbmHist (s : State) (u : Nat) : HbmHist :=
  let off := 64 * u
  let row := (Config.hbmRow (hbmStack off) (hbmPc off) (hbmGranule off)).toNat
  (s.ras.hbmErrs.find? fun x => x.stack == hbmStack off && x.pc == hbmPc off && x.row == row).getD
    { stack := hbmStack off, pc := hbmPc off, row := row }

/-- Firmware notes an error of a unit against its row (R209): corrected ones count for 24 hours. -/
def State.noteHbm (s : State) (u : Nat) (bad : Bool) : State :=
  let x := s.hbmHist u
  let ces := x.ces.filter fun t => s.ns < t + 24 * 3600 * 10 ^ 9
  let y := if bad then { x with ces := ces, ue := true } else { x with ces := ces ++ [s.ns] }
  { s with ras := { s.ras with hbmErrs := s.ras.hbmErrs.filter (fun z => !(z.stack == x.stack && z.pc == x.pc && z.row == x.row)) ++ [y] } }

/-- ECC events of a read of units (R206): a corrected unit is recorded and counted; an uncorrectable one that is not yet
poisoned is recorded, counted and written back poisoned. -/
def State.eccEvents (s : State) (us : List Nat) (errs : List HbmErr) (pl : Place) (tag : Nat) : State :=
  (errs.filter fun e => us.contains e.unit && !s.hbmPoison.contains e.unit).foldl (fun z e =>
    let off := e.unit * 64
    let cnt := R.hbmEccCount (hbmStack off)
    if e.bad then
      if z.hbmPoison.contains e.unit then z else
      let z1 := (z.fbump cnt F.hbmEccCount_UNCORRECTABLE 1).raise 0x0202 2 pl (memDetail z.ownSlot off tag)
      (({ z1 with hbmPoison := sins z1.hbmPoison e.unit }).chunkLost off).noteHbm e.unit true
    else if e.corrected then ((z.fbump cnt F.hbmEccCount_CORRECTED 1).raise 0x0201 1 pl (memDetail z.ownSlot off tag)).noteHbm e.unit false
    else z) s

/-- A read of the local slot: the state after its ECC events; bytes and poison are then read with the two below. -/
def State.hbmRead (s : State) (off len : Nat) (errs : List HbmErr) (pl : Place) (tag : Nat) : State :=
  s.eccEvents (unitsOf off len) errs pl tag

end Sys2Proof.Machine
end

