-- ==== Sys2Proof/Machine/Sram.lean ====
section
/-!
DEFINITION. The SRAM arrays of the tiles and of the device (02 R51, 20 R524, R525): errors, where they lie, what finds them and what
firmware keeps of them.
-/
namespace Sys2Proof.Machine

/-- Sum of a list. -/
def sumOf (xs : List Nat) : Nat := xs.foldl (· + ·) 0

/-- 24 hours in ns. -/
def hours24 : Nat := 24 * 3600 * 10 ^ 9

/-- Place and detail of an SRAM record. -/
def State.sramPlace (s : State) (e : SramErr) : Place :=
  if e.array ≤ 3 then { district := districtOf e.unit, ptile := e.unit, ltile := s.ltileOf e.unit }
  else if e.array = 4 then { district := attach e.unit }
  else if e.array = 5 then { district := e.unit }
  else {}
/-- Detail of an SRAM record. -/
def sramDetail (e : SramErr) : Nat := e.array + e.bank % 256 * 2 ^ 8 + e.row % 65536 * 2 ^ 16 + e.word % 256 * 2 ^ 32

/-- Byte offset in its array of the word an error lies in: tile-store banks take turns by 128-byte rows (R46); the other arrays are
taken as one bank of 128-byte rows. -/
def sramByte (e : SramErr) : Nat :=
  if e.array = 0 then (e.row * 16 + e.bank % 16) * 128 + 8 * (e.word % 16) else e.row * 128 + 8 * (e.word % 16)

/-- Whether the word already reads poisoned. -/
def State.sramPoisoned (s : State) (e : SramErr) : Bool :=
  let t := s.tile e.unit
  let a := sramByte e
  match e.array with
  | 0 => shas t.storePoison (a / 8)
  | 1 => shas t.imemPoison (a / 32)
  | 2 => bit (tget {} t.inbox (a / 1600)).poison.toNat (a % 1600 / 4)
  | 3 => bit (tget {} t.outbox (a / 1600)).poison.toNat (a % 1600 / 4)
  | _ => false

/-- Write a word of a tile's arrays back in the poison encoding. -/
def State.sramPoison (s : State) (e : SramErr) : State :=
  let t := s.tile e.unit
  let a := sramByte e
  let lanes : BitVec 400 := BitVec.ofNat 400 (3 * 2 ^ (a % 1600 / 8 * 2))
  match e.array with
  | 0 => s.setTile e.unit { t with storePoison := sins t.storePoison (a / 8) }
  | 1 => s.setTile e.unit { t with imemPoison := sins t.imemPoison (a / 32) }
  | 2 => if a / 1600 < 64 then
      let x : InSlot := tget {} t.inbox (a / 1600)
      s.setTile e.unit { t with inbox := tset {} t.inbox (a / 1600) { x with poison := x.poison ||| lanes } } else s
  | 3 => if a / 1600 < 32 then
      let x : OutSlot := tget {} t.outbox (a / 1600)
      s.setTile e.unit { t with outbox := tset {} t.outbox (a / 1600) { x with poison := x.poison ||| lanes } } else s
  | _ => s

/-- The row of an error. -/
def sameRow (e : SramErr) (r : SramRow) : Bool := r.array == e.array && r.unit == e.unit && r.bank == e.bank && r.row == e.row
/-- Rows substituted in the group of 256 rows of an error's row. -/
def State.sparesUsed (s : State) (e : SramErr) : Nat :=
  sumOf ((s.ras.rows.filter fun r => r.array == e.array && r.unit == e.unit && r.bank == e.bank && r.row / 256 == e.row / 256).map (·.moved))

/-- The row's history, without errors older than 24 hours. -/
def State.sramRow (s : State) (e : SramErr) : SramRow :=
  match s.ras.rows.find? (sameRow e) with
  | some r => { r with ces := r.ces.filter fun t => s.ns < t + hours24 }
  | none => { array := e.array, unit := e.unit, bank := e.bank, row := e.row }
/-- Hold a row's history. -/
def State.setRow (s : State) (e : SramErr) (r : SramRow) : State :=
  { s with ras := { s.ras with rows := s.ras.rows.filter (fun x => !sameRow e x) ++ [r] } }

/-- An error of an SRAM word is found (R51, R524): recorded, the word corrected or poisoned, and counted for R525; a slot whose errors ask
for its retirement (R528) is noted. -/
def State.sramFound (s0 : State) (e : SramErr) : State :=
  let s : State := { s0 with ras := { s0.ras with latent := s0.ras.latent.filter (· ≠ e) } }
  if e.bad && s.sramPoisoned e then s
  else
    let pl := s.sramPlace e
    let r := s.sramRow e
    let s1 := if e.bad then ((s.sramPoison e).raise 0x0C06 2 pl (sramDetail e)).setRow e { r with ue := true }
      else (s.raise 0x0C05 1 pl (sramDetail e)).setRow e { r with ces := r.ces ++ [s.ns] }
    if 3 < e.array then s1
    else
      let ues := (tget [] s1.ras.tileUe e.unit).filter (fun t => s.ns < t + hours24) ++ (if e.bad && e.array ≤ 1 then [s.ns] else [])
      let s2 := { s1 with ras := { s1.ras with tileUe := tset [] s1.ras.tileUe e.unit ues } }
      if s2.sparesUsed e ≥ 2 || s2.fget R.rasCtl F.rasCtl_TILE_UE_LIMIT ≤ ues.length then
        { s2 with ras := { s2.ras with due := s2.ras.due ++ [e.unit] } } else s2

/-- Whether the word of an error lies in bytes `lo` to `lo + n` of array `arr` of tile `p`. -/
def sramWithin (e : SramErr) (arr p lo n : Nat) : Bool :=
  e.array == arr && e.unit == p && sramByte e < lo + n && lo < sramByte e + 8

/-- A read of `n` bytes from byte `lo` of array `arr` of tile `p` finds the errors that have struck there (R51). -/
def State.sramRead (s : State) (arr p lo n : Nat) : State :=
  (s.ras.latent.filter (sramWithin · arr p lo n)).foldl (fun z e => z.sramFound e) s

/-- Words of an array of tile `p` are written whole: what had struck them is gone. -/
def State.sramWritten (s : State) (arr p lo n : Nat) : State :=
  { s with ras := { s.ras with latent := s.ras.latent.filter fun e =>
      !(sramWithin e arr p lo n && lo ≤ sramByte e && sramByte e + 8 ≤ lo + n) } }

/-- What a queue operation does to the words of its tile: a store of tile-store bytes reads them, a load replaces them (R51). -/
def State.opSram (s : State) (o : MqeOp) : State :=
  match o.kind with
  | .stqt st => s.sramRead 0 o.tile st o.len
  | .ldqt st => s.sramWritten 0 o.tile st o.len
  | .ldqi first _ => s.sramWritten 1 o.tile (16384 * first) o.len
  | _ => s

end Sys2Proof.Machine
end

