-- ==== Sys2Proof/Machine/Queues.lean ====
section
/-!
DEFINITION. Memory queues and HBM (08): delivery and completion of queue operations, failed accesses, the latency bound,
queue configuration, scrubbing, row remapping, and lost pseudo-channels.
-/
namespace Sys2Proof.Machine

/-- Configuration of a district's queue (R193): MODE, DEPTH, RATE. -/
def State.qcfg (s : State) (d q : Nat) : Nat × Nat × Nat :=
  let o := R.mqeQcfgN d q
  (s.fget o F.mqeQcfgN_MODE, s.fget o F.mqeQcfgN_DEPTH, s.fget o F.mqeQcfgN_RATE)

/-! ## Completion (R196, R202, R203) -/

/-- State of a tag once its operation has completed (R111). -/
def QKind.tagAfter : QKind → TagState
  | .ldqv _ => .data
  | .ldqi _ _ => .free
  | _ => .done

/-- The place of a record raised by a queue operation (R213). -/
def State.opPlace (s : State) (o : MqeOp) : Place := s.tilePlace o.tile 2 o.bundle

/-- The fixed term of a queue for an operation, in ns (R200). -/
def State.fixOf (s : State) (d : Nat) (o : MqeOp) : Nat :=
  let bound := R.mqeQboundN d o.queue
  if o.kind.loads then s.fget bound F.mqeQboundN_L_FIX_RD else s.fget bound F.mqeQboundN_L_FIX_WR

/-- A number of bytes rounded up to units of 64 (R200). -/
def up64 (n : Nat) : Nat := cdiv n 64 * 64

/-- Bytes of a local range on stack `h` (R188). -/
def stackBytes (off len h : Nat) : Nat :=
  (List.range (cdiv (off % 1024 + len) 1024)).foldl (fun n i =>
    let g := (off / 1024 + i) * 1024
    if hbmStack g = h then n + (min (off + len) (g + 1024) - max off g) else n) 0

/-- L_q of an operation on a bounded queue of rate `rate`, in ns (R200): over the stacks it touches, the fixed term and the time its own
bytes there and those of the operations ahead of it take. -/
def State.boundNs (s : State) (d : Nat) (o : MqeOp) (rate : Nat) : Nat :=
  let on (r : Nat × Nat) (h : Nat) : Nat := up64 (stackBytes (r.1 % 2 ^ 40) r.2 h)
  (below 8 fun h => stackBytes (o.addr % 2 ^ 40) o.len h ≠ 0).foldl (fun m h =>
    let a := o.before.foldl (fun n r => n + on r h) 0
    max m (s.fixOf d o + cdiv (a + on (o.addr, o.len) h) rate)) 0

/-- The start of the `n`-th cycle after cycle `k`, which begins at `t`. -/
def cyclesOn (len : Nat → Nat → Nat) : Nat → Nat → Nat → Nat
  | 0, _, t => t
  | n + 1, k, t => cyclesOn len n (k + 1) (t + len k t)

/-- Whether an operation moves tile-store bytes (LDQ.T, STQ.T). -/
def QKind.store : QKind → Bool
  | .ldqt _ | .stqt _ => true
  | _ => false

/-- The instant (2⁻⁴⁸ ns) by which an operation on a bounded queue completes (R200): L_q after its issue, and for LDQ.T and STQ.T the LDW
occupancy cycles of its tile since then more. -/
def State.boundAt (s : State) (d : Nat) (o : MqeOp) (rate : Nat) : Nat :=
  let t := o.issued + s.boundNs d o rate <<< 48
  if o.kind.store then cyclesOn (s.clkLen d) ((s.tile o.tile).ldwBusy - o.ldw) (s.clkEdge d t).1 t else t

/-- Bytes outstanding in the queue of an operation at its issue, its own included (R202). -/
def MqeOp.total (o : MqeOp) : Nat := o.before.foldl (fun n r => n + r.2) o.len

/-- The tag of an operation completes at instant `at_` (2⁻⁴⁸ ns): the operation leaves its MQE and its DMA channel, the queue's figures
count it, a bounded queue is compared with its limit (R202), and a tile stalled on the tag notes the instant. -/
def State.finishOp (s : State) (d : Nat) (o : MqeOp) (failed : Bool) (at_ : Nat) : State :=
  let m := s.mqe d
  let t := s.tile o.tile
  let g := tget {} t.tags o.tag
  let g' : Tag := if o.kind.tagAfter == .data then { g with st := .data, failed := failed } else { st := o.kind.tagAfter }
  let waits := t.issue.status == .qwaitStall && bit t.issue.wait.toNat o.tag
  let t' := { t with tags := tset {} t.tags o.tag g'
                     issue := if waits then { t.issue with waitDone := max t.issue.waitDone at_ } else t.issue }
  let (mode, _, rate) := s.qcfg d o.queue
  let late := decide (mode = 1 ∧ rate ≠ 0 ∧ o.issued + (s.fixOf d o + cdiv o.total rate) <<< 48 < at_)
  let m' := { m with ops := m.ops.erase o
                     figs := tmod {} m.figs o.queue fun f =>
                       { ops := f.ops + 1, maxLat := max f.maxLat ((at_ - o.issued) >>> 48), late := f.late + b2n late } }
  let s1 := ((s.setTile o.tile t').setMqe d m').leaveDma o.tile o.tag
  if late then s1.raise 0x0205 1 (s.opPlace o) (memDetail 0 o.addr o.tag) else s1

/-- An operation cannot be served (R197): a load completes poisoned, a store loses its data. -/
def State.failOp (s : State) (d : Nat) (o : MqeOp) (addr at_ : Nat) : State :=
  let units := cdiv o.len 64
  if o.kind.loads then
    let t := s.tile o.tile
    let t' := match o.kind with
      | .ldqv _ => t
      | _ => deliver t o 0 (match o.kind with
          | .ldqt st => Mem.rdBytes t.store st o.len
          | .ldqi first _ => (List.range (o.len / 32)).flatMap fun i => leBytes 32 (tget 0 t.imem (512 * first + i)).toNat
          | _ => []) (fun u => u < units)
    ((s.setTile o.tile t').finishOp d o true at_).raise 0x0203 2 (s.opPlace o) (memDetail 0 addr o.tag)
  else (s.finishOp d o false at_).raise 0x0204 3 (s.opPlace o) (memDetail 0 addr o.tag)

/-- Offsets of the units of a local range whose pseudo-channel is lost. -/
def State.deadUnits (s : State) (off len : Nat) : List Nat := (unitsOf off len).filter fun u => s.hbmDead (64 * u)

/-- Complete an operation on the local slot. A unit of a store whose transfer the memory plane lost twice is an uncorrectable error of that
unit (R205). -/
def State.completeLocal (s : State) (d : Nat) (o : MqeOp) (errs : List HbmErr) (at_ : Nat) : State :=
  let off := o.addr % 2 ^ 40
  match s.deadUnits off o.len with
  | u :: _ => s.failOp d o (o.addr - off + 64 * u) at_
  | [] =>
    if o.kind.loads then
      let s1 := s.hbmRead off o.len errs (s.opPlace o) o.tag
      let us := unitsOf off o.len
      let t := deliver (s1.tile o.tile) o 0 (s1.hbmBytes off o.len) fun i => shas s1.hbmPoison (us.getD i 0)
      (s1.setTile o.tile t).finishOp d o false at_
    else
      let (bs, bad) := storeData (s.tile o.tile) o
      ((s.hbmWrite off bs bad).hbmRead off o.len (errs.filter (·.lost)) (s.opPlace o) o.tag).finishOp d o false at_

/-- Complete an operation on the host tier: the bytes come from host memory, or go there (R190). A read that PCI Express fails is
logged in AER (R452). -/
def State.completeHost (s : State) (d : Nat) (o : MqeOp) (win off : Nat) (x : QExt) (at_ : Nat) : State :=
  match s.hostAddr win off o.len with
  | none => s.failOp d o o.addr at_
  | some h =>
    if !s.dmaOn then s.failOp d o o.addr at_
    else if x.failed then (if o.kind.loads then s.logAer else s).failOp d o o.addr at_
    else if o.kind.loads then
      let bs := (x.data ++ List.replicate o.len 0#8).take o.len
      (s.setTile o.tile (deliver (s.tile o.tile) o 0 bs fun _ => false)).finishOp d o false at_
    else
      let (bs, _) := storeData (s.tile o.tile) o
      let s1 := { s with stw := { s.stw with toHost := Mem.wrBytes s.stw.toHost h bs } }
      s1.finishOp d o false at_

/-- The DMA channel that carries the traffic of a host window: firmware's assignment (R191, log 95). -/
def hostChan (win : Nat) : Nat := win % 8

/-- Whether another transfer of its channel comes before a host-tier operation (R191). -/
def State.behindDma (s : State) (win : Nat) (o : MqeOp) : Bool :=
  match tget [] s.stw.dma (hostChan win) with
  | x :: _ => x.op != some (o.tile, o.tag)
  | [] => false

/-- The pseudo-channels a local range touches, as global numbers (R188). -/
def pcsOf (off len : Nat) : List Nat :=
  (List.range (cdiv (off % 1024 + len) 1024)).map fun i =>
    let o := (off / 1024 + i) * 1024
    32 * hbmStack o + hbmPc o

/-- Whether an earlier operation of the same queue shares a pseudo-channel with operation `i` (R194, R198). -/
def behindAnother (ops : List MqeOp) (i : Nat) (o : MqeOp) : Bool :=
  (ops.take i).any fun e => e.queue == o.queue && e.addr / 2 ^ 40 == o.addr / 2 ^ 40 &&
    (pcsOf (e.addr % 2 ^ 40) e.len).any (pcsOf (o.addr % 2 ^ 40) o.len).contains

/-- An MQE completes operation `i` of its outstanding operations, `x.ns` after its issue (R196 to R203), on a bounded queue within L_q unless
the device breaks R200. One behind another of its queue and pseudo-channel, or of its DMA channel, does not complete yet. An operation
on another board slot completes with its responses (R353). -/
def State.queueComplete (s : State) (d i : Nat) (x : QExt) : State :=
  match (s.mqe d).ops[i]? with
  | none => s
  | some o =>
    let (mode, _, rate) := s.qcfg d o.queue
    let asked := o.issued + x.ns <<< 48
    let at_ := if mode = 1 ∧ rate ≠ 0 ∧ x.broken = false then min asked (s.boundAt d o rate) else asked
    let s1 := (s.reach at_).opSram o
    match tierOf o.addr with
    | .board b =>
      if b ≠ s.ownSlot ∨ behindAnother (s.mqe d).ops i o then s else s1.completeLocal d o x.errs at_
    | .host w off => if s.behindDma w o then s else s1.completeHost d o w off x at_
    | .none => s1.failOp d o o.addr at_

/-! ## Queue configuration (R193, R214) -/

/-- Sum of DEPTH over the queues of an MQE, queue `q` taken as `v`. -/
def State.depthSum (s : State) (d q v : Nat) : Nat :=
  (List.range 64).foldl (fun n k => n + if k = q then v else (s.qcfg d k).2.1) 0

/-- Sum of RATE over the bounded queues of an MQE, queue `q` taken with mode `m` and rate `v`. -/
def State.rateSum (s : State) (d q m v : Nat) : Nat :=
  (List.range 64).foldl (fun n k =>
    let c := if k = q then (m, 0, v) else s.qcfg d k
    n + if c.1 = 1 then c.2.2 else 0) 0

/-- A write of MQE_QCFG (R214). -/
def State.writeQcfg (s : State) (d q v : Nat) : State :=
  let (m0, d0, r0) := s.qcfg d q
  let m := if field v 30 2 = 3 then m0 else field v 30 2
  let r := if field v 16 8 > 128 then r0 else field v 16 8
  let dep := if field v 0 9 > 256 then d0 else field v 0 9
  if (s.mqe d).ops.any (·.queue == q) ∨ (s.depthSum d q dep > 2048 ∧ dep > d0) ∨ (s.rateSum d q m r > 128 ∧
      s.rateSum d q m r > s.rateSum d q m0 r0) then s
  else ((s.fset (R.mqeQcfgN d q) F.mqeQcfgN_MODE m).fset (R.mqeQcfgN d q) F.mqeQcfgN_RATE r).fset (R.mqeQcfgN d q)
    F.mqeQcfgN_DEPTH dep

/-! ## The stacks (R208 to R212) -/

/-- Local offset of granule `n` of stack `h`, granules taken in ascending address (R188). -/
def granuleOff (h n : Nat) : Nat :=
  let hi := n / 32
  hi * 2 ^ 18 + (n % 32) * 2 ^ 13 + Nat.xor h (hi % 8) * 2 ^ 10

/-- Patrol scrub reads the next granule of a stack (R206, R208). -/
def State.scrubStep (s : State) (h : Nat) (errs : List HbmErr) : State :=
  let st := s.fget (R.hbmStatus h) F.hbmStatus_STATE
  if s.fget (R.hbmScrubCtl h) F.hbmScrubCtl_PERIOD_H = 0 ∨ ¬(st = 2 ∨ st = 3) then s
  else
    let o := R.hbmScrubStatus h
    let n := s.fget o F.hbmScrubStatus_POSITION
    let off := granuleOff h n
    let s1 := if s.hbmDead off then s else s.hbmRead off 1024 errs {} 0
    if n + 1 = 2 ^ 27 then
      (s1.fset o F.hbmScrubStatus_POSITION 0).fset o F.hbmScrubStatus_PASSES (s1.fget o F.hbmScrubStatus_PASSES + 1)
    else s1.fset o F.hbmScrubStatus_POSITION (n + 1)

/-- Whether firmware is to remap a row (R209): it has returned an uncorrectable error, or 4 corrected ones within 24 hours. -/
def State.rowFails (s : State) (h pc row : Nat) : Bool :=
  s.ras.hbmErrs.any fun x => x.stack == h && x.pc == pc && x.row == row &&
    (x.ue || decide (4 ≤ (x.ces.filter fun t => s.ns < t + 24 * 3600 * 10 ^ 9).length))

/-- A row of a stack is remapped into a free entry (R209, R211), and repaired at once while no program runs (R210). -/
def State.remapRow (s : State) (h pc row : Nat) : State :=
  let r0 : HbmRow := { stack := h, pc := pc, row := row, entry := none, repaired := 0 }
  let old := s.ras.hbmRows.find? r0.sameAs
  let done (z : State) : State := if z.running then z else z.softRepair
  if (old.bind (·.entry)).isSome then done s else
  match (List.range 32).find? fun n => s.fget (R.hbmRemapN h n) F.hbmRemapN_VALID = 0 with
  | none => s
  | some n =>
    let o := R.hbmRemapN h n
    let s1 := ((s.fset o F.hbmRemapN_VALID 1).fset o F.hbmRemapN_PC pc).fset o F.hbmRemapN_ROW row
    let rest := s1.ras.hbmRows.filter fun r => !r0.sameAs r
    done { s1 with ras := { s1.ras with
        hbmRows := rest ++ [{ old.getD r0 with entry := some n }]
        hbmErrs := s1.ras.hbmErrs.filter fun x => !(x.stack == h && x.pc == pc && x.row == row) } }

/-- Firmware remaps a row that fails (R209). -/
def State.rowRemap (s : State) (h pc row : Nat) : State := if s.rowFails h pc row then s.remapRow h pc row else s

/-- A pseudo-channel stops answering (R212). The record concerns no operation and no unit: the spec gives its address bytes no value, and
the model writes 0 (the model's choice, log 95). -/
def State.pcLost (s : State) (h pc : Nat) : State :=
  let o := R.hbmStatus h
  let lost := s.fget o F.hbmStatus_PC_LOST
  if bit lost pc then s else
  let s1 := (s.fset o F.hbmStatus_PC_LOST (lost + 2 ^ pc)).fset o F.hbmStatus_STATE 3
  s1.raise 0x0206 4 {} (h * 2 ^ 48 + pc * 2 ^ 56)

/-! ## Commands -/

/-- QUEUE_OP_COMPLETE (R196). -/
def execQueueOpComplete (d : District) (i : Nat) (x : QExt) (s : State) : Host.Outcome State Fault Refusal :=
  .next (s.queueComplete d.val i x)

/-- HBM_SCRUB_STEP (R208). -/
def execHbmScrubStep (h : Stack) (errs : List HbmErr) (s : State) : Host.Outcome State Fault Refusal :=
  .next (s.scrubStep h.val errs)

/-- ROW_REMAP (R209). -/
def execRowRemap (h : Stack) (pc : BitVec 5) (row : BitVec 32) (s : State) : Host.Outcome State Fault Refusal :=
  .next (s.rowRemap h.val pc.toNat row.toNat)

/-- PSEUDO_CHANNEL_LOST (R212). -/
def execPseudoChannelLost (h : Stack) (pc : BitVec 5) (s : State) : Host.Outcome State Fault Refusal :=
  .next (s.pcLost h.val pc.toNat)

/-- CANCEL_ALL (R204). -/
def execCancelAll (d : District) (s : State) : Host.Outcome State Fault Refusal :=
  .next (s.cancelOps d.val fun _ => true)

/-- MQE_QCFG_WRITE (R214). -/
def execMqeQcfgWrite (d : District) (q : Fin 64) (v : Word) (s : State) : Host.Outcome State Fault Refusal :=
  .next (s.writeQcfg d.val q.val v.toNat)

end Sys2Proof.Machine
end

