-- ==== Sys2Proof/Machine/Service.lean ====
section
/-!
DEFINITION. The service plane (13): packets, output queues, streams and their windows, recovery by probing, remote memory,
receive buffers and completion counters, and the requests of MQE operations on other board slots.
-/
namespace Sys2Proof.Machine

/-! ## Output queues (R342, R344) -/

/-- Packets queued at a port output. -/
def State.outQ (s : State) (p : Nat) : List SvcHeld := tget [] s.svc.txq p
/-- Hold a port's output queue. -/
def State.setOutQ (s : State) (p : Nat) (q : List SvcHeld) : State := { s with svc := { s.svc with txq := tset [] s.svc.txq p q } }

/-- Flits of queued packets that satisfy `q`. -/
def heldFlits (hs : List SvcHeld) (q : Nat → Bool) : Nat :=
  hs.foldl (fun n h => if q h.pkt.flit.toNat then n + SH.flits h.pkt.flit.toNat else n) 0

/-- Detail of a record of a discarded service packet (R360). -/
def svcDetail (f port reason : Nat) : Nat :=
  SH.src f + SH.dest f * 2 ^ 32 + port * 2 ^ 64 + reason * 2 ^ 72 + SH.stream f * 2 ^ 80 + SH.sseq f * 2 ^ 96 +
  SH.op f * 2 ^ 112 + SH.hop f * 2 ^ 120

/-- A record of a unit of this device (R360, R519): it names the district of an MQE, and no district for the others. -/
def State.unitRecord (s : State) (code detail u : Nat) : State :=
  s.raise code 1 { district := if 0x200 ≤ u ∧ u ≤ 0x21F then u - 0x200 else 0 } detail

/-- Record a packet discarded at the unit it names: no port counts it. -/
def State.unitDiscard (s : State) (code reason f : Nat) : State :=
  s.unitRecord code (svcDetail f 0xFF reason) (unitOf (SH.dest f))

/-- Record a discarded service packet at a port and count it there (R351, R360). -/
def State.svcDiscard (s : State) (code port reason f : Nat) : State :=
  (s.raise code 1 { district := attach port } (svcDetail f port reason)).fbump (R.svcPortNEvents port)
    F.svcPortNEvents_DISCARDS 1

/-- Put a packet in a port's output queue, `src` the port it came from (8: own); a full queue discards it (R344). -/
def State.enqueue (s : State) (port src : Nat) (pk : SvcPkt) : State :=
  let f := pk.flit.toNat
  let q := s.outQ port
  if heldFlits q (fun g => SH.isRsp g == SH.isRsp f) + SH.flits f > 65536 then s.svcDiscard 0x0604 port 0 f
  else
    let q' := q ++ [{ pkt := pk, since := s.ngt.now, src := src }]
    (s.setOutQ port q').fmax (R.svcPortNEvents port) F.svcPortNEvents_MAX_QUEUE
      (heldFlits q' fun g => SH.isRsp g == SH.isRsp f && SH.vc g == SH.vc f)

/-! ## Sending on a stream (R345, R350, R358) -/

/-- Credits a packet costs: none for a response, which has no window (R335, R345). -/
def costOf (f : Nat) : Nat := if SH.isRsp f then 0 else SH.flits f

/-- The configured fields of a context. -/
def State.ctxDest (s : State) (n : Nat) : Nat := s.fget (R.svcSctxNCfg n) F.svcSctxNCfg_DEST
def State.ctxPeer (s : State) (n : Nat) : Nat := s.fget (R.svcSctxNCfg n) F.svcSctxNCfg_PEER
def State.ctxVc (s : State) (n : Nat) : Nat := s.fget (R.svcSctxNCfg n) F.svcSctxNCfg_VC

/-- The destination of an address: a flat form is replaced from the flat table, none where the table has no valid entry
(R338). -/
def State.resolve (s : State) (a : Nat) : Option Nat :=
  if !isFlat a then some a
  else
    let id := field a 0 16
    if field a 16 15 = 0 ∧ id < 1024 ∧ s.fget (R.svcFlatN id) F.svcFlatN_VALID = 1 then
      some (s.fget (R.svcFlatN id) F.svcFlatN_ADDR)
    else none

/-- Whether a port takes new service packets: UP, open and not draining (R350, R408). -/
def State.svcTakes (s : State) (p : Nat) : Bool := s.portOpen p && s.portUp p && (s.link p).draining.isNone

/-- The next usable route of a stream in round robin: its index among the stream's routes and its word (R350). -/
def State.pickRoute (s : State) (n : Nat) : Option (Nat × Nat) :=
  let base := s.fget (R.svcSctxNCfg n) F.svcSctxNCfg_ROUTE_BASE
  let cnt := s.fget (R.svcSctxNCfg n) F.svcSctxNCfg_ROUTE_CNT_M1 + 1
  let rr := (s.ctx n).rr
  (List.range cnt).findSome? fun k =>
    let i := (rr + k) % cnt
    let w := (s.reg (R.svcRouteN (base + i))).toNat
    let p := w % 16
    if base + i < 4096 ∧ p < 8 ∧ s.svcTakes p then some (i, w) else none

/-- A service header with route, RIDX and HOP for its first port, in the hands of that port. -/
def routed (f ridx route : Nat) : Nat :=
  putField (putField (putField f 32 64 route) 12 2 ridx) 8 4 1

/-- One waiting packet leaves on the stream: it is numbered and charged, a request that expects a response is awaited. -/
def State.sendNow (s : State) (n : Nat) (w : Waiting) (ridx route : Nat) : State :=
  let c := s.ctx n
  let f0 := w.pkt.flit.toNat
  let cost := costOf f0
  let rsp := SH.isRsp f0
  let f1 := if rsp then f0 else putField f0 (8 * 22) 16 c.next
  let f := routed f1 ridx route
  let cnt := s.fget (R.svcSctxNCfg n) F.svcSctxNCfg_ROUTE_CNT_M1 + 1
  let c1 := { c with rr := (ridx + 1) % cnt }
  let c2 := if rsp then c1 else
    { c1 with next := (c.next + 1) % 2 ^ 16, outstanding := c.outstanding + cost, charged := (c.charged + cost) % 2 ^ 32,
              flight := c.flight ++ [{ seq := c.next, cost := cost, owner := w.owner, tag := w.tag }],
              baseSince := if c.flight.isEmpty then s.ngt.now else c.baseSince }
  let op := SH.op f
  let aw : List Await :=
    if op = 1 then
      [{ tag := field (SH.ctl f) 64 32, seq := c.next, land := w.land, stream := n, owner := w.owner, addr := field (SH.ctl f) 0 48,
         len := field (SH.ctl f) 48 16, load := true, issued := s.ngt.now }]
    else if op = 2 then
      [{ tag := SH.tag f, seq := c.next, land := 0, stream := n, owner := w.owner, addr := SH.addr f, len := 64 * SH.len f, load := false,
         issued := s.ngt.now }]
    else if op = 3 then
      [{ tag := field (SH.ctl f) 192 32, seq := c.next, land := w.land, stream := n, owner := w.owner,
         addr := field (SH.ctl f) 0 48, len := 8, load := true, issued := s.ngt.now }]
    else []
  let s1 := s.setCtx n c2
  let s2 := { s1 with svc := { s1.svc with awaits := s1.svc.awaits ++ aw } }
  s2.enqueue (route % 16) 8 { w.pkt with flit := BitVec.ofNat 512 f }

/-- Whether the packet may leave now: a response always, a request within the window and the sequence space (R345). -/
def State.maySend (s : State) (n : Nat) (w : Waiting) : Bool :=
  let c := s.ctx n
  let f := w.pkt.flit.toNat
  SH.isRsp f || (c.tx == .opened && c.outstanding + costOf f ≤ c.window && (c.next + 2 ^ 16 - c.base) % 2 ^ 16 < 64)

/-- Send what waits on a stream, oldest first, responses before requests, until one may not leave. -/
def State.pump (s : State) (n : Nat) : Nat → State
  | 0 => s
  | fuel + 1 =>
    let c := s.ctx n
    let pick := match c.waiting.find? fun w => SH.isRsp w.pkt.flit.toNat with
      | some w => some w
      | none => c.waiting.head?
    match pick, s.pickRoute n with
    | some w, some (ridx, route) =>
      if s.maySend n w then
        ((s.setCtx n { c with waiting := c.waiting.erase w }).sendNow n w ridx route).pump n fuel
      else s
    | _, _ => s

/-- Send all that may leave on a stream. -/
def State.pumpAll (s : State) (n : Nat) : State := s.pump n (s.ctx n).waiting.length

/-- Send all that may leave on every stream with packets waiting: a route may have become usable (R350). -/
def State.pumpEvery (s : State) : State :=
  s.svc.ctx.foldl (fun z e => if e.2.waiting = [] then z else z.pumpAll e.1) s

/-- An operation of the steward or of a DMA channel ended in error (R358). -/
def State.svcEnded (s : State) (n tag status : Nat) : State :=
  { s with svc := { s.svc with ended := s.svc.ended ++ [(n, tag, status)] } }

/-- A packet is offered to a stream (R346, R358, R359): false where the send cannot start. -/
def State.offer (s : State) (n : Nat) (pk : SvcPkt) (owner : Owner) (tag land : Nat := 0) : Bool × State :=
  let c := s.ctx n
  match s.resolve (SH.dest pk.flit.toNat) with
  | none => (false, s)
  | some d =>
    if c.tx == .off && !SH.isRsp pk.flit.toNat then (false, s)
    else
      let pk' := { pk with flit := BitVec.ofNat 512 (putField pk.flit.toNat (8 * 12) 32 d) }
      (true, (s.setCtx n { c with waiting := c.waiting ++ [{ pkt := pk', owner := owner, tag := tag, land := land }] }).pumpAll n)

/-- Common header fields of a packet sent on context `n` by unit `unit` of this device. -/
def State.header (s : State) (n plane op unit dest : Nat) : Nat :=
  plane + s.ctxVc n * 2 ^ 2 + op * 2 ^ 16 + dest * 2 ^ (8 * 12) + s.unitAddr unit * 2 ^ (8 * 16) + s.ctxPeer n * 2 ^ (8 * 20)

/-- A stream control packet (CREDIT, GRANT, PROBE, PROBE_RSP) from this device's half of context `n`: it names the steward
of the device at the other end. -/
def State.sendControl (s : State) (n op payload : Nat) : State :=
  match s.resolve (s.ctxDest n) with
  | none => s
  | some d =>
    let f := s.header n 1 op 0x400 (deviceOf d * 2 ^ 15 + 0x400) + payload * 2 ^ (8 * 24)
    (s.offer n { flit := BitVec.ofNat 512 f } .steward).2

/-! ## Requests of MQE operations on another board slot (R189, R353, R357) -/

/-- The pieces of a range, cut at 1 KiB granules. -/
def pieces (addr len : Nat) : List (Nat × Nat) :=
  (List.range (cdiv (addr % 1024 + len) 1024)).map fun i =>
    let lo := if i = 0 then addr else (addr / 1024 + i) * 1024
    let hi := min (addr + len) ((addr / 1024 + i + 1) * 1024)
    (lo, hi - lo)

/-- The context that carries the accesses of district `d` to board slot `b` (R357). -/
def State.boardCtx (s : State) (d b : Nat) : Nat := s.prog.firstStream + 8 * d + b

/-- A new request TAG. -/
def State.newTag (s : State) : Nat × State :=
  (s.svc.nextTag, { s with svc := { s.svc with nextTag := (s.svc.nextTag + 1) % 2 ^ 32 } })

/-- Poison bits of the flits of a piece of a store. -/
def flitPoison (pos n : Nat) (bad : Nat → Bool) : Nat :=
  (List.range (n / 64)).foldl (fun v j => if (List.range 64).any (fun k => bad (pos + 64 * j + k)) then v + 2 ^ j else v) 0

/-- Offer every request of an operation to its stream. -/
def State.remoteSubmit (s : State) (d : Nat) (o : MqeOp) : State :=
  let b := o.addr / 2 ^ 40
  let n := s.boardCtx d b
  let (bs, bad) := storeData (s.tile o.tile) o
  (pieces o.addr o.len).foldl (fun z pc =>
    let (tag, z1) := z.newTag
    let off := pc.1 % 2 ^ 40
    let dest := deviceOf ((z.resolve (z.ctxDest n)).getD 0) * 2 ^ 15 + 0x300 + hbmStack off
    let pos := pc.1 - o.addr
    let unit := 0x200 + d
    if o.kind.loads then
      let f := z1.header n 1 0x01 unit dest + (off + pc.2 * 2 ^ 48 + tag * 2 ^ 64) * 2 ^ (8 * 24)
      (z1.offer n { flit := BitVec.ofNat 512 f } (.mqe o.tile o.tag)).2
    else
      let f := z1.header n 2 0x02 unit dest + off * 2 ^ (8 * 24) + pc.2 / 64 * 2 ^ (8 * 30) + tag * 2 ^ (8 * 44) +
        flitPoison pos pc.2 bad * 2 ^ (8 * 48)
      (z1.offer n { flit := BitVec.ofNat 512 f, body := (bs.drop pos).take pc.2 } (.mqe o.tile o.tag)).2) s

/-- An operation on another board slot is submitted; on a stream that is OFF it fails (R358). -/
def State.submitRemote (s : State) (d : Nat) (o : MqeOp) : State :=
  let n := s.boardCtx d (o.addr / 2 ^ 40)
  if s.prog.streams = 0 ∨ (s.ctx n).tx = .off ∨ (s.resolve (s.ctxDest n)).isNone then
    (s.failOp d o o.addr s.ngt.now).raise 0x0607 4 (s.opPlace o) (memDetail 0 o.addr o.tag)
  else (if o.kind.loads then s else s.opSram o).remoteSubmit d o

/-- The outstanding operation of a tile's tag. -/
def State.findOp (s : State) (tile tag : Nat) : Option MqeOp := (s.mqe (districtOf tile)).ops.find? fun o => o.tile == tile && o.tag == tag

/-- A remote operation of a tile fails: by a response, a timeout, or a fenced sequence (R355, R358). The record names its first
address (R213). -/
def State.failRemote (s : State) (tile tag : Nat) (streamOff : Bool) : State :=
  match s.findOp tile tag with
  | none => s
  | some o =>
    let s1 := (s.forget (.mqe tile tag)).failOp (districtOf tile) o o.addr s.ngt.now
    if streamOff then s1.raise 0x0607 4 (s.opPlace o) (memDetail 0 o.addr o.tag) else s1

/-- A packet that waits on a stream that turns OFF cannot start: its operation fails (R358). -/
def State.failWaiting (s : State) (n : Nat) (w : Waiting) : State :=
  match w.owner with
  | .mqe tile tag => s.failRemote tile tag true
  | _ => s.svcEnded n w.tag 0x0300

/-- The sending half of a context turns OFF: what waits on it fails, but for responses, which need no window. -/
def State.turnOff (s : State) (n : Nat) (c : Sctx) : State :=
  let (rsps, reqs) := c.waiting.partition fun w => SH.isRsp w.pkt.flit.toNat
  reqs.foldl (fun z w => z.failWaiting n w) (s.setCtx n { c with tx := .off, window := 0, waiting := rsps })

/-- An operation whose last response has arrived completes (R353). -/
def State.finishIfDone (s : State) (tile tag : Nat) : State :=
  let ow := Owner.mqe tile tag
  if s.svc.awaits.any (·.owner == ow) || s.svc.ctx.any (fun e => e.2.waiting.any (·.owner == ow)) then s
  else match s.findOp tile tag with
    | some o => s.finishOp (districtOf tile) o false s.ngt.now
    | none => s

/-! ## The receiving half (R347, R348) -/

/-- Signed distance of a sequence from another, modulo 2¹⁶ (R348). -/
def seqDist (a b : Nat) : Int := diffMod 16 a b

/-- RX_BASE_SEQ moves past the settled sequences at its front. -/
def rxAdvance (c : Sctx) : Nat → Sctx
  | 0 => c
  | fuel + 1 =>
    match c.rxMap.find? fun r => r.seq == c.rxBase && r.released with
    | some r => rxAdvance { c with rxBase := (c.rxBase + 1) % 2 ^ 16, rxMap := c.rxMap.erase r } fuel
    | none => c

/-- RX_BASE_SEQ moves past what is settled; fenced sequences no PROBE can name any more are forgotten, so that none is taken for a
later sequence of the same number. -/
def rxSettle (c : Sctx) : Sctx :=
  let c1 := rxAdvance c 64
  { c1 with fenced := c1.fenced.filter fun q => seqDist q c1.rxBase ≥ -64 }

/-- CREDIT leaves for the sender with the cumulative count. -/
def State.sendCredit (s : State) (n : Nat) : State :=
  let c := s.ctx n
  (s.setCtx n { c with credited := c.rxReleased, creditDue := none }).sendControl n 0x90 c.rxReleased

/-- The credits of an accepted packet are released; CREDIT leaves at a quarter of the window, or 1 us later (R347). -/
def State.rxRelease (s : State) (n seq : Nat) : State :=
  let c := s.ctx n
  match c.rxMap.find? fun r => r.seq == seq && !r.released with
  | none => s
  | some r =>
    let map := c.rxMap.map fun x => if x == r then { x with released := true } else x
    let c1 := rxSettle { c with rxMap := map, held := c.held - r.cost, rxReleased := (c.rxReleased + r.cost) % 2 ^ 32,
                                creditDue := c.creditDue.or (some (s.ngt.now + 1000 <<< 48)) }
    let s1 := s.setCtx n c1
    let win := s.fget (R.svcSctxNRx n) F.svcSctxNRx_RX_WINDOW
    if 4 * ((c1.rxReleased + 2 ^ 32 - c1.credited) % 2 ^ 32) ≥ win then s1.sendCredit n else s1

/-- What the receiving half does with an arriving request (R348): accepted or not. -/
def State.rxTake (s : State) (f : Nat) : Bool × State :=
  let n := SH.stream f
  let c := s.ctx n
  let d := seqDist (SH.sseq f) c.rxBase
  if d < 0 ∨ c.rxMap.any (·.seq == SH.sseq f) then (false, s.setCtx n { c with dups := c.dups + 1 })
  else if d ≥ 64 then (false, s.unitDiscard 0x0605 1 f)
  else if c.held + costOf f > c.granted then (false, s.unitDiscard 0x0605 2 f)
  else
    (true, s.setCtx n { c with held := c.held + costOf f
                               rxMap := c.rxMap ++ [{ seq := SH.sseq f, cost := costOf f, released := false }] })

/-! ## The sending half (R346, R347, R349) -/

/-- Drop the sequences in flight that the cumulative count proves released: a sequence not released is charged, so its cost is at most
OUTSTANDING. Which of the others the `pool` of released credits belongs to is not known (DESIGN CHOICE, log 94). -/
def settle (c : Sctx) : Nat → Sctx
  | 0 => c
  | fuel + 1 =>
    match c.flight.find? fun x => c.outstanding < x.cost with
    | some x => settle { c with flight := c.flight.erase x, pool := c.pool - x.cost } fuel
    | none => c

/-- BASE_SEQ follows the oldest sequence in flight. -/
def rebase (now : Nat) (c : Sctx) : Sctx :=
  let b := match c.flight with
    | x :: _ => x.seq
    | [] => c.next
  { c with base := b, baseSince := if b = c.base then c.baseSince else now }

/-- A cumulative RELEASED reaches the sending half (R347): none where it is impossible. -/
def takeReleased (now : Nat) (c : Sctx) (rel : Nat) : Option Sctx :=
  let k := (rel + 2 ^ 32 - c.released) % 2 ^ 32
  if k > c.outstanding then none
  else some (rebase now (settle { c with released := rel, outstanding := c.outstanding - k, pool := c.pool + k } c.flight.length))

/-- Why a context's ledger is wrong (R348, R514): expected and counted value. OUTSTANDING is the sum of the costs in flight, and at most
WINDOW while the half may send; HELD is at most the largest window granted. -/
def Sctx.broken (c : Sctx) : Option (Nat × Nat) :=
  let costs := c.flight.foldl (fun v x => v + x.cost) 0
  if c.outstanding + c.pool ≠ costs then some (costs, c.outstanding + c.pool)
  else if c.tx ≠ .off ∧ c.window < c.outstanding then some (c.window, c.outstanding)
  else if c.granted < c.held then some (c.granted, c.held)
  else none

/-- Whether the ledger unit checks: not in device-fatal containment. -/
def State.ledgersOn (s : State) : Bool := s.fget R.ldgStatus F.ldgStatus_SUSPENDED == 0

/-- A failed check raises LEDGER_FAULT (R515). -/
def State.ledgerFail (s : State) (ledger inst expected counted : Nat) : State :=
  ((s.fset R.ldgStatus F.ldgStatus_LAST_MISMATCH ledger).fbump (R.ldgCheckN ledger) F.ldgCheckN_MISMATCHES 1).raise 0x0C01 5 {}
    (ledger + inst * 2 ^ 16 + expected % 2 ^ 64 * 2 ^ 32 + counted % 2 ^ 64 * 2 ^ 96)

/-- The ledger unit checks a context as its counters change (R348, R515), unless it is suspended. -/
def State.ctxCheck (s : State) (n : Nat) : State :=
  if !s.ledgersOn then s
  else match (s.ctx n).broken with
  | some (e, c) => s.ledgerFail 0 n e c
  | none => s

/-- Firmware closes a context of a stopped program (R357): it grants a window of 0 once nothing is held (R361), waits until OUTSTANDING
is 0 and no packet waits, and frees the context. `grant0` sends the GRANT. -/
def State.closeCtx (s : State) (n : Nat) (grant0 : State → State) : State :=
  let s1 := if (s.ctx n).rxOn ∧ (s.ctx n).held = 0 then grant0 s else s
  let c := s1.ctx n
  if c.rxOn ∨ c.outstanding ≠ 0 ∨ c.held ≠ 0 ∨ c.waiting ≠ [] then s1
  else
    let s2 := ((s1.setCtx n {}).resetReg (R.svcSctxNCfg n)).resetReg (R.svcSctxNRx n)
    { s2 with svc := { s2.svc with closing := s2.svc.closing.erase n } }

/-- A CREDIT (R347). -/
def State.onCredit (s : State) (f : Nat) : State :=
  let n := SH.stream f
  match takeReleased s.ngt.now (s.ctx n) (field (SH.ctl f) 0 32) with
  | none => s.unitDiscard 0x0605 3 f
  | some c => (s.setCtx n c).pumpAll n

/-- A GRANT (R346). -/
def State.onGrant (s : State) (f : Nat) : State :=
  let n := SH.stream f
  let w := field (SH.ctl f) 32 16
  match takeReleased s.ngt.now (s.ctx n) (field (SH.ctl f) 0 32) with
  | none => s.unitDiscard 0x0605 3 f
  | some c =>
    if c.tx == .off then s
    else if w = 0 then s.turnOff n c
    else ((s.setCtx n { c with tx := .opened, window := w }).ctxCheck n).pumpAll n

/-- A PROBE reaches the receiving half (R349, R362): sequences not received are fenced; a half never granted a window since its reset
has received none. The state, and the payload of the PROBE_RSP that answers. -/
def State.probed (s : State) (f : Nat) : State × Nat :=
  let n := SH.stream f
  let base := field (SH.ctl f) 0 16
  let cnt := min 64 (field (SH.ctl f) 16 8)
  let c := s.ctx n
  let off := c.granted = 0
  let seqs := (List.range cnt).map fun i => (base + i) % 2 ^ 16
  let fresh := if off then [] else seqs.filter fun q =>
    seqDist q c.rxBase ≥ 0 && !c.rxMap.any (·.seq == q) && !c.fenced.contains q
  let c1 := if off then c else
    rxSettle { c with rxMap := c.rxMap ++ fresh.map fun q => { seq := q, cost := 0, released := true }
                      fenced := c.fenced ++ fresh }
  let map := (List.range cnt).foldl (fun v i => if off || c1.fenced.contains ((base + i) % 2 ^ 16) then v + 2 ^ i else v) 0
  ((s.setCtx n c1).fbump (R.svcSctxNRx n) F.svcSctxNRx_FENCED fresh.length, base + cnt * 2 ^ 16 + map * 2 ^ 64)

/-- The operation of a fenced sequence ends (R358). -/
def State.endFenced (s : State) (n : Nat) (x : InSeq) : State :=
  match x.owner with
  | .mqe tile tag => s.failRemote tile tag true
  | _ =>
    let keep (a : Await) : Bool := !(a.stream == n && a.seq == x.seq)
    ({ s with svc := { s.svc with awaits := s.svc.awaits.filter keep } } : State).svcEnded n x.tag 0x0400

/-- PROBE_RSP: the fenced sequences give back their credits and end their operations (R349). -/
def State.onProbeRsp (s : State) (f : Nat) : State :=
  let n := SH.stream f
  let base := field (SH.ctl f) 0 16
  let map := field (SH.ctl f) 64 64
  let c := s.ctx n
  let gone := c.flight.filter fun x =>
    let i := (x.seq + 2 ^ 16 - base) % 2 ^ 16
    i < 64 && bit map i
  let cost := gone.foldl (fun v x => v + x.cost) 0
  let c1 : Sctx := { c with flight := c.flight.filter fun x => !gone.contains x
                            outstanding := c.outstanding - cost
                            charged := (c.charged + 2 ^ 32 - cost % 2 ^ 32) % 2 ^ 32 }
  let s1 := gone.foldl (fun z x => z.endFenced n x) (s.setCtx n (rebase s.ngt.now (settle c1 c1.flight.length)))
  let s2 := if map ≠ 0 then s1.unitRecord 0x0606 (svcDetail f 0xFF 0) (unitOf (SH.dest f)) else s1
  s2.pumpAll n

/-- STREAM_TIMEOUT_US in 2⁻⁴⁸ ns. -/
def State.streamTimeout (s : State) : Nat := (s.fget R.svcCtl F.svcCtl_STREAM_TIMEOUT_US * 1000) <<< 48

/-- The timeout of a stream: an oldest sequence unreleased is probed, and responses overdue fail their operations (R349,
R355). -/
def State.streamExpire (s : State) (n : Nat) : State :=
  let c := s.ctx n
  let aws := s.svc.awaits.filter (·.stream == n)
  let dues := aws.map (·.issued) ++ (if c.flight.isEmpty then [] else [c.baseSince])
  match dues with
  | [] => s
  | x :: xs =>
    let at' := xs.foldl min x + s.streamTimeout
    let s1 := s.reach at'
    if s1.ngt.now < at' then s1
    else
      let late := (aws.filter fun a => a.issued + s1.streamTimeout ≤ s1.ngt.now)
      let s2 := late.foldl (fun z a => match a.owner with
        | .mqe tile tag => z.failRemote tile tag false
        | _ => ({ z with svc := { z.svc with awaits := z.svc.awaits.erase a } } : State).svcEnded n a.tag 0x0400) s1
      let c2 := s2.ctx n
      if !c2.flight.isEmpty && c2.baseSince + s2.streamTimeout ≤ s2.ngt.now then
        (s2.setCtx n { c2 with baseSince := s2.ngt.now }).sendControl n 0x92
          (c2.base + (c2.next + 2 ^ 16 - c2.base) % 2 ^ 16 % 256 * 2 ^ 16)
      else s2

/-- CREDIT falls due 1 us after a release (R347). -/
def State.creditTimer (s : State) (n : Nat) : State :=
  match (s.ctx n).creditDue with
  | none => s
  | some t =>
    let s1 := s.reach t
    if s1.ngt.now < t then s1 else s1.sendCredit n

/-! ## Packets arriving (R339, R351) -/

/-- The next entry of the route. -/
def svcEntry (f : Nat) : Nat := hRoute f (SH.hop f)

/-- Whether DEST names this device. -/
def State.isOwn (s : State) (a : Nat) : Bool := deviceOf a == deviceOf s.coord

/-- Whether a packet that came in on `port` is malformed (R335, R337, R338, R343, R351). -/
def State.svcMalformed (s : State) (port : Nat) (pk : SvcPkt) : Bool :=
  let f := pk.flit.toNat
  let e := svcEntry f
  SH.planeOf (SH.op f) ≠ some (hPlane f) || SH.reserved f || SH.vc f ≥ s.fget R.svcCtl F.svcCtl_VC_COUNT ||
  isFlat (SH.dest f) || !srcLegal (SH.src f) || (hPlane f = 2 && (SH.len f = 0 || !hcrcOk f)) ||
  (SH.op f = 5 && field (SH.ctl f) 0 16 > 40) || e > 8 || e = port || (e < 8 && SH.hop f = 15) ||
  (e = 8 && !s.isOwn (SH.dest f))

/-- The header as the device holds it after writing its input port into the entry before HOP (R351). -/
def cameFrom (f port : Nat) : Nat := if SH.hop f = 0 then f else setRoute f (SH.hop f - 1) port

/-- Take the first packet of a port's receive queue that satisfies `q`. -/
def State.takeRx (s : State) (port : Nat) (q : SvcPkt → Bool) : Option (SvcPkt × State) :=
  let l := s.link port
  match l.rxSvc.find? q with
  | none => none
  | some pk => some (pk, s.setLink port { l with rxSvc := l.rxSvc.erase pk })

/-- A packet that is not for a unit of this device is checked on entry and forwarded (R351): the input port goes into the entry before
HOP, and HOP moves on. A stomped copy is forwarded stomped, and goes no further at its destination (R318, R334). -/
def State.svcForward (s : State) (port : Nat) : State :=
  match s.takeRx port (fun pk => s.svcMalformed port pk || svcEntry pk.flit.toNat ≠ 8 || pk.stomped) with
  | none => s
  | some (pk, s1) =>
    let f := pk.flit.toNat
    if s.svcMalformed port pk then s1.svcDiscard 0x0601 port 0 f
    else
      let out := svcEntry f
      if out = 8 then s1
      else if (s.link out).st == .recover then
        s1.fbump (R.lnkDupCount out) F.lnkDupCount_DISCARD_RECOVER 1
      else if !s.svcTakes out then s1.svcDiscard 0x0602 port 0 f
      else
        let g := putField (cameFrom f port) 8 4 (SH.hop f + 1)
        s1.enqueue out port { pk with flit := BitVec.ofNat 512 (if hPlane g = 2 then sealed g else g) }

/-- The route of a response: the recorded input ports, last first, then LOCAL (R351). -/
def backRoute (f : Nat) : Nat :=
  let h := SH.hop f
  (List.range h).foldl (fun r i => setRoute r i (hRoute f (h - 1 - i))) (8 * 2 ^ (32 + 4 * h)) >>> 32

/-- A response to request `f` leaves by the port the request came in on (R351, R355). -/
def State.respond (s : State) (f plane op status payload : Nat) (body : List Byte) : State :=
  let n := SH.stream f
  let hdr := plane + SH.vc f * 2 ^ 2 + op * 2 ^ 16 + status * 2 ^ 24 + SH.src f * 2 ^ (8 * 12) +
    s.unitAddr (unitOf (SH.dest f)) * 2 ^ (8 * 16) + s.ctxPeer n * 2 ^ (8 * 20) + SH.sseq f * 2 ^ (8 * 22) + payload * 2 ^ (8 * 24)
  let route := backRoute f
  let out := route % 16
  if out ≥ 8 then s
  else if !s.svcTakes out then s.svcDiscard 0x0602 out 0 hdr
  else s.enqueue out 8 { flit := BitVec.ofNat 512 (routed hdr 0 route), body := body }

/-- The first packet of a port that has reached this device with the given operation, its input port written (R351). -/
def State.takeOp (s : State) (port op : Nat) : Option (SvcPkt × State) :=
  (s.takeRx port fun pk => !pk.stomped && !s.svcMalformed port pk && svcEntry pk.flit.toNat == 8 && SH.op pk.flit.toNat == op).map
    fun r => ({ r.1 with flit := BitVec.ofNat 512 (cameFrom r.1.flit.toNat port) }, r.2)

/-- A PROBE is answered along the ports it came by (R349, R351). -/
def State.onProbe (s : State) (f : Nat) : State :=
  let (s1, pay) := s.probed f
  s1.respond f 1 0x93 0 pay []

/-! ## Remote memory (R354 to R356) -/

/-- Whether a requester stands on this board: same rack, coordinates that differ in their low bits only (R28). -/
def State.onBoard (s : State) (src : Nat) : Bool :=
  coordRack src == coordRack s.coord && coordX src / 2 == coordX s.coord / 2 && coordY src / 2 == coordY s.coord / 2 &&
  coordZ src / 2 == coordZ s.coord / 2

/-- STATUS of an access of `len` bytes at local offset `off` by request `f` (R339, R355). -/
def State.accessStatus (s : State) (f off len : Nat) (atomic : Bool) : Nat :=
  let u := unitOf (SH.dest f)
  if ¬(0x300 ≤ u ∧ u ≤ 0x307) then 3
  else if !s.onBoard (SH.src f) then 2
  else if atomic && off % 8 ≠ 0 then 4
  else if off + len > 2 ^ 40 || hbmStack off ≠ u - 0x300 || (!atomic && (len % 64 ≠ 0 || off % 64 ≠ 0 || len = 0)) ||
      off % 1024 + len > 1024 || s.hbmDead off then 1
  else 0

/-- POISON bits of the flits of a local range. -/
def State.poisonBits (s : State) (off len : Nat) : Nat :=
  (List.range (len / 64)).foldl (fun v j => if shas s.hbmPoison (off / 64 + j) then v + 2 ^ j else v) 0

/-- LOAD at a stack endpoint (R354). -/
def State.svcLoad (s : State) (port : Nat) (errs : List HbmErr) : State :=
  match s.takeOp port 1 with
  | none => s
  | some (pk, s1) =>
    let f := pk.flit.toNat
    let off := field (SH.ctl f) 0 48
    let len := field (SH.ctl f) 48 16
    let tag := field (SH.ctl f) 64 32
    match s1.rxTake f with
    | (false, s2) => s2
    | (true, s2) =>
      let st := s2.accessStatus f off len false
      let s3 := if st = 0 then s2.hbmRead off len errs {} 0 else s2
      let bs := if st = 0 then s3.hbmBytes off len else List.replicate 64 0#8
      let pay := bs.length / 64 * 2 ^ 48 + tag * 2 ^ (8 * 20) + (if st = 0 then s3.poisonBits off len else 0) * 2 ^ (8 * 24)
      (s3.rxRelease (SH.stream f) (SH.sseq f)).respond f 2 0x81 st pay bs

/-- STORE at a stack endpoint (R354). -/
def State.svcStore (s : State) (port : Nat) : State :=
  match s.takeOp port 2 with
  | none => s
  | some (pk, s1) =>
    let f := pk.flit.toNat
    let off := SH.addr f
    let len := 64 * SH.len f
    match s1.rxTake f with
    | (false, s2) => s2
    | (true, s2) =>
      let st := s2.accessStatus f off len false
      let s3 := if st = 0 then s2.hbmWrite off (pk.body.take len) fun i => bit (SH.poison f) (i / 64) else s2
      (s3.rxRelease (SH.stream f) (SH.sseq f)).respond f 1 0x82 st (SH.tag f) []

/-- New value of an atomic, none for a reserved AOP (R356). -/
def atomicNew (aop old a b : Nat) : Option Nat :=
  match aop with
  | 1 => some ((old + a) % 2 ^ 64)
  | 2 => some a
  | 3 => some (if old = b then a else old)
  | 4 => some (Nat.land old a)
  | 5 => some (Nat.lor old a)
  | 6 => some (Nat.xor old a)
  | _ => none

/-- ATOMIC at a stack endpoint (R356); byte 4 of the response's payload flags a poisoned old value. -/
def State.svcAtomic (s : State) (port : Nat) (errs : List HbmErr) : State :=
  match s.takeOp port 3 with
  | none => s
  | some (pk, s1) =>
    let f := pk.flit.toNat
    let off := field (SH.ctl f) 0 48
    let aop := field (SH.ctl f) 48 8
    let a := field (SH.ctl f) 64 64
    let b := field (SH.ctl f) 128 64
    let tag := field (SH.ctl f) 192 32
    match s1.rxTake f with
    | (false, s2) => s2
    | (true, s2) =>
      let st0 := s2.accessStatus f off 8 true
      let s3 := if st0 = 0 then s2.hbmRead off 8 errs {} 0 else s2
      let old := leNat (s3.hbmBytes off 8)
      let bad := s3.hbmBad off 8
      match st0, atomicNew aop old a b with
      | 0, some v =>
        let s4 := if bad then s3 else s3.hbmWrite off (leBytes 8 v) fun _ => false
        (s4.rxRelease (SH.stream f) (SH.sseq f)).respond f 1 0x83 0 (tag + b2n bad * 2 ^ 32 + old * 2 ^ 64) []
      | st, _ =>
        (s2.rxRelease (SH.stream f) (SH.sseq f)).respond f 1 0x83 (if st = 0 then 1 else st) tag []

/-! ## Completion counters and PUT (R352) -/

/-- Detail of SVC_COMPLETION_MISMATCH: the counter, COUNT, and the two totals (R360). -/
def ccntDetail (n count total other : Nat) : Nat :=
  other + n * 2 ^ 80 + count * 2 ^ 128 + total * 2 ^ 160

/-- A counter that is armed with COUNT = TOTAL becomes COMPLETE (R352). -/
def State.ccntCheck (s : State) (n : Nat) : State :=
  let o := R.svcCcntN n
  if s.fget o F.svcCcntN_STATE = 1 ∧ s.fget o F.svcCcntN_TOTAL_SET = 1 ∧
      s.fget o F.svcCcntN_COUNT = s.fget o F.svcCcntN_TOTAL then
    let s1 := s.fset o F.svcCcntN_STATE 2
    { s1 with svc := { s1.svc with interrupts := s1.svc.interrupts + 1 } }
  else s

/-- Why a counter's ledger is wrong (R514): COUNT is the ledger unit's own count of the PUTs accepted since CLEAR, and COMPLETE goes
only with COUNT = TOTAL. -/
def State.ccntBroken (s : State) (n : Nat) : Option (Nat × Nat) :=
  let o := R.svcCcntN n
  let count := s.fget o F.svcCcntN_COUNT
  let total := s.fget o F.svcCcntN_TOTAL
  let puts := tget 0 s.svc.puts n
  if count ≠ puts then some (puts, count)
  else if s.fget o F.svcCcntN_STATE = 2 ∧ count ≠ total then some (total, count)
  else none

/-- The ledger unit checks a counter as it changes (R515). -/
def State.ccntLedger (s : State) (n : Nat) : State :=
  if !s.ledgersOn then s
  else match s.ccntBroken n with
  | some (e, c) => s.ledgerFail 1 n e c
  | none => s

/-- CLEAR: the counter is IDLE, COUNT 0 and TOTAL unset, and the ledger unit counts from here (R352, R514). -/
def State.ccntClear (s : State) (n : Nat) : State :=
  let s1 := s.resetReg (R.svcCcntN n)
  { s1 with svc := { s1.svc with puts := tdel s1.svc.puts n } }

/-- The ledger unit counts a PUT accepted for a counter, to the counter's width. -/
def State.putCounted (s : State) (n : Nat) : State :=
  { s with svc := { s.svc with puts := tset 0 s.svc.puts n ((tget 0 s.svc.puts n + 1) % 2 ^ 26) } }

/-- An accepted PUT counts on its counter (R352). -/
def State.ccntArrive (s : State) (n : Nat) (last : Bool) (total : Nat) : State :=
  let o := R.svcCcntN n
  let s1 := s.fset o F.svcCcntN_COUNT (s.fget o F.svcCcntN_COUNT + 1)
  let count := s1.fget o F.svcCcntN_COUNT
  let had := s1.fget o F.svcCcntN_TOTAL_SET = 1
  let t0 := s1.fget o F.svcCcntN_TOTAL
  let s2 := if last ∧ ¬had then (s1.fset o F.svcCcntN_TOTAL total).fset o F.svcCcntN_TOTAL_SET 1
    else if last ∧ t0 ≠ total then s1.raise 0x0608 4 {} (ccntDetail n count t0 total)
    else s1
  if s2.fget o F.svcCcntN_TOTAL_SET = 1 ∧ count > s2.fget o F.svcCcntN_TOTAL then
    s2.raise 0x0608 4 {} (ccntDetail n count (s2.fget o F.svcCcntN_TOTAL) (s2.fget o F.svcCcntN_TOTAL))
  else s2.ccntCheck n

/-- The owner arms a counter (R352). -/
def State.ccntArm (s : State) (n v : Nat) : State :=
  let o := R.svcCcntN n
  if bit v 60 = false then s
  else
    let s1 := if bit v 58 then (s.fset o F.svcCcntN_TOTAL (field v 32 26)).fset o F.svcCcntN_TOTAL_SET 1 else s
    let s2 := (s1.fset o F.svcCcntN_STATE 1).fset o F.svcCcntN_ARM 1
    if s2.fget o F.svcCcntN_TOTAL_SET = 1 ∧ s2.fget o F.svcCcntN_COUNT > s2.fget o F.svcCcntN_TOTAL then
      s2.raise 0x0608 4 {} (ccntDetail n (s2.fget o F.svcCcntN_COUNT) (s2.fget o F.svcCcntN_TOTAL) (s2.fget o F.svcCcntN_TOTAL))
    else s2.ccntCheck n

/-- PUT into the receive buffer (R352, R361). -/
def State.svcPut (s : State) (port : Nat) : State :=
  match s.takeOp port 4 with
  | none => s
  | some (pk, s1) =>
    let f := pk.flit.toNat
    let n := SH.stream f
    let len := 64 * SH.len f
    if unitOf (SH.dest f) ≠ 0x400 then s1
    else if SH.addr f % 64 ≠ 0 ∨ SH.addr f + len > 65536 * s1.fget (R.svcSctxNRxbuf n) F.svcSctxNRxbuf_LIMIT_64K then
      s1.unitDiscard 0x0601 4 f
    else
      match s1.rxTake f with
      | (false, s2) => s2
      | (true, s2) =>
        let off := (s2.fget (R.svcSctxNRxbuf n) F.svcSctxNRxbuf_BASE + SH.addr f) % 2 ^ 40
        let s3 := s2.hbmWrite off (pk.body.take len) fun i => bit (SH.poison f) (i / 64)
        let s4 := s3.setCtx n { s3.ctx n with lastXfer := some (SH.xfer f) }
        let k := SH.xfer f
        (((s4.rxRelease n (SH.sseq f)).putCounted k).ccntArrive k (SH.last f) (SH.total f)).ccntLedger k

/-! ## Messages (R340) -/

/-- MSG into the steward's receive queue (R339, R340). -/
def State.svcMsg (s : State) (port : Nat) : State :=
  match s.takeOp port 5 with
  | none => s
  | some (pk, s1) =>
    let f := pk.flit.toNat
    let u := unitOf (SH.dest f)
    if ¬(u = 0x400 ∨ u = 0x401 ∨ (0x410 ≤ u ∧ u ≤ 0x417) ∨ u = 0x7FFF) then s1
    else
      match s1.rxTake f with
      | (false, s2) => s2
      | (true, s2) =>
        let len := field (SH.ctl f) 0 16
        let m : RxMsg := { unit := u, src := SH.src f, stream := SH.stream f, seq := SH.sseq f,
                           body := (leBytes 40 (SH.ctl f / 2 ^ 16)).take len }
        { s2 with svc := { s2.svc with stwRx := s2.svc.stwRx ++ [m] } }

/-- Whether R474 or R522 accepts a message body: a known KIND at its length. -/
def msgOk (body : List Byte) : Bool :=
  match leAt body 0 1 with
  | 0x01 => body.length == 4
  | 0x02 => body.length == 12
  | 0x03 => body.length == 16
  | 0x04 | 0x05 | 0x06 | 0x07 => body.length == 32
  | 0x08 => body.length == 8
  | 0x09 | 0x0A => body.length == 32
  | 0x0B => body.length == 24
  | _ => false

/-- Firmware takes one message out of the receive queue: its credits are released and it counts against the function it
named (R340, R347). -/
def State.dropMsg (s : State) (m : RxMsg) : State :=
  ({ s with svc := { s.svc with stwRx := s.svc.stwRx.erase m
                                msgCount := tmod 0 s.svc.msgCount m.unit (· + 1) } }).rxRelease m.stream m.seq

/-- Firmware discards the messages R474 does not accept. -/
def State.dropBad (s : State) : State :=
  (s.svc.stwRx.filter fun m => !msgOk m.body).foldl (fun z m =>
    { z.dropMsg m with svc := { (z.dropMsg m).svc with discardedMsgs := (z.dropMsg m).svc.discardedMsgs + 1 } }) s

/-- Firmware takes the first message of the receive queue that satisfies `q`, after the bodies it does not accept. -/
def State.takeMsg (s : State) (q : RxMsg → Bool) : Option (RxMsg × State) :=
  let s1 := s.dropBad
  (s1.svc.stwRx.find? q).map fun m => (m, s1.dropMsg m)

/-- Take the first message of a KIND. -/
def State.takeKind (s : State) (kind : Nat) : Option (RxMsg × State) := s.takeMsg fun m => leAt m.body 0 1 == kind

/-! ## Responses (R353, R355) -/

/-- The unit of an owner. -/
def Owner.unit : Owner → Nat
  | .mqe tile _ => 0x200 + districtOf tile
  | .steward => 0x400
  | .dma c => 0x410 + c

/-- The awaited request a response answers (R339, R353): of the unit it names, on its stream, with its TAG. -/
def State.awaited (s : State) (f tag : Nat) : Option Await :=
  s.svc.awaits.find? fun a => a.tag == tag && a.owner.unit == unitOf (SH.dest f) && a.stream == SH.stream f

/-- A response `f` reaches its requester: good data land in the space set aside at issue (R353). One that answers no request of its
unit, or comes after its operation has failed, is discarded. -/
def State.onResponse (s : State) (f tag : Nat) (bs : List Byte) (bad : Nat → Bool) : State :=
  match s.awaited f tag with
  | none => s
  | some a =>
    let status := SH.status f
    let s1 := { s with svc := { s.svc with awaits := s.svc.awaits.erase a } }
    match a.owner with
    | .mqe tile q =>
      match s1.findOp tile q with
      | none => s1
      | some o =>
        if status ≠ 0 then s1.failRemote tile q false
        else
          let t := s1.tile tile
          let t' := if a.load then deliver t o (o.addr / 2 ^ 40 * 2 ^ 40 + a.addr - o.addr) (bs.take a.len) bad else t
          ((if a.load then s1.opSram o else s1).setTile tile t').finishIfDone tile q
    | .steward => { s1 with svc := { s1.svc with got := s1.svc.got ++ [{ owner := .steward, tag := tag, status := status, bytes := bs }] } }
    | .dma c =>
      let s2 := if a.load ∧ status = 0 then s1.hbmWrite a.land (bs.take a.len) (fun i => bad (i / 64)) else s1
      { s2 with svc := { s2.svc with got := s2.svc.got ++ [{ owner := .dma c, tag := tag, status := status, bytes := [] }] } }

/-- Units that take a response (R339). -/
def rspUnit (u : Nat) : Bool := u == 0x400 || (0x200 ≤ u && u ≤ 0x21F) || (0x410 ≤ u && u ≤ 0x417)

/-- Whether unit `u` takes the stream control of context `n` (R339): the steward all, an MQE that of its program contexts (R357), a DMA
channel that of its own streams. -/
def State.ctlUnit (s : State) (u n : Nat) : Bool :=
  u == 0x400 || (0x410 ≤ u && u ≤ 0x417) ||
  (0x200 ≤ u && u ≤ 0x21F && s.prog.streams ≠ 0 && s.boardCtx (u - 0x200) 0 ≤ n && decide (n < s.boardCtx (u - 0x200) 8))

/-- A response packet of operation `op` is taken and handled by `k`; one to another unit is discarded (R339). -/
def State.takeRsp (s : State) (port op : Nat) (k : State → Nat → List Byte → State) : State :=
  match s.takeOp port op with
  | none => s
  | some (pk, s1) => if rspUnit (unitOf (SH.dest pk.flit.toNat)) then k s1 pk.flit.toNat pk.body else s1

/-- A stream control packet of operation `op` is taken and handled by `k`; one to a unit the stream is not of is discarded. -/
def State.takeCtl (s : State) (port op : Nat) (k : State → Nat → State) : State :=
  match s.takeOp port op with
  | none => s
  | some (pk, s1) =>
    let f := pk.flit.toNat
    if s1.ctlUnit (unitOf (SH.dest f)) (SH.stream f) then k s1 f else s1

/-! ## Firmware and DMA sends (R346, R358, R361) -/

/-- The packet a send request spells. -/
def State.reqPkt (s : State) (n : Nat) (r : SendReq) : SvcPkt :=
  let unit := match r.dma with | some c => 0x410 + c.val | none => 0x400
  let plane := (SH.planeOf r.op).getD 1
  let hdr := s.header n plane r.op unit (s.ctxDest n)
  if plane = 2 then
    let len := min 63 (cdiv r.body.length 64)
    let f := hdr + b2n r.last * 2 ^ 5 + r.addr % 2 ^ 48 * 2 ^ (8 * 24) + len * 2 ^ (8 * 30) + r.xfer % 4096 * 2 ^ (8 * 32) +
      r.total % 2 ^ 32 * 2 ^ (8 * 36) + r.tag % 2 ^ 32 * 2 ^ (8 * 44)
    { flit := BitVec.ofNat 512 f, body := (r.body ++ List.replicate (64 * len) 0#8).take (64 * len) }
  else { flit := BitVec.ofNat 512 (hdr + r.ctl % 2 ^ 320 * 2 ^ (8 * 24)) }

/-- The control payload of a MSG with a body (R335). -/
def msgCtl (body : List Byte) : Nat := body.length % 2 ^ 16 + leNat body % 2 ^ (8 * 38) * 2 ^ 16

/-- A packet is offered to a stream by the steward or a DMA channel. A steward message that firmware had queued for the
stream's destination is no longer queued once offered. -/
def State.streamSend (s : State) (n : Nat) (r : SendReq) : State :=
  match SH.planeOf r.op with
  | none => s
  | some _ =>
    let owner : Owner := match r.dma with | some c => .dma c.val | none => .steward
    let (ok, s1) := s.offer n (s.reqPkt n r) owner r.tag r.land
    if !ok then s.svcEnded n r.tag 0x0300
    else
      match s.resolve (s.ctxDest n), s.stw.msgOut.find? (fun m => r.op == 5 && msgCtl m.body == r.ctl) with
      | some d, some m => if deviceOf d = deviceOf m.dest then { s1 with stw := { s1.stw with msgOut := s1.stw.msgOut.erase m } } else s1
      | _, _ => s1

/-- Firmware writes RX_WINDOW and GRANT (R346, R361). -/
def State.writeRx (s : State) (n v : Nat) : State :=
  let o := R.svcSctxNRx n
  let w := field v 48 16
  let c := s.ctx n
  let s1 := if w < s.fget o F.svcSctxNRx_RX_WINDOW ∧ c.held ≠ 0 then s else s.fset o F.svcSctxNRx_RX_WINDOW w
  if bit v 3 = false then s1
  else
    let g := s1.fget o F.svcSctxNRx_RX_WINDOW
    let c1 := if g = 0 then { c with rxOn := false } else { c with rxOn := true, granted := if c.rxOn then max c.granted g else g }
    (s1.setCtx n c1).sendControl n 0x91 (c.rxReleased + g * 2 ^ 32)

/-- Firmware closes the contexts of a stopped program that can be closed (R357). -/
def State.closeDue (s : State) : State := s.svc.closing.foldl (fun z n => z.closeCtx n fun y => y.writeRx n 8) s

/-- Reset of both halves (SVC_SCTX_n_RX.RESET): sequences and counts become 0; what waits on the sending half, which is OFF then, fails
(R358). -/
def State.resetCtx (s : State) (n : Nat) : State :=
  let c := s.ctx n
  if c.outstanding ≠ 0 ∨ c.held ≠ 0 then s
  else ((s.turnOff n c).setCtx n {}).fset (R.svcSctxNRx n) F.svcSctxNRx_FENCED 0

/-! ## Commands -/

/-- STREAM_SEND (R345). -/
def execStreamSend (n : Fin 16384) (req : SendReq) (s : State) : Host.Outcome State Fault Refusal := .next (s.streamSend n.val req)

/-- SERVICE_PACKET_FORWARD (R351). -/
def execServicePacketForward (port : Port) (s : State) : Host.Outcome State Fault Refusal := .next (s.svcForward port.val)

/-- LOAD (R354). -/
def execSvcLoad (port : Port) (errs : List HbmErr) (s : State) : Host.Outcome State Fault Refusal := .next (s.svcLoad port.val errs)

/-- STORE (R354). -/
def execSvcStore (port : Port) (s : State) : Host.Outcome State Fault Refusal := .next (s.svcStore port.val)

/-- ATOMIC (R356). -/
def execSvcAtomic (port : Port) (errs : List HbmErr) (s : State) : Host.Outcome State Fault Refusal := .next (s.svcAtomic port.val errs)

/-- PUT (R352). -/
def execSvcPut (port : Port) (s : State) : Host.Outcome State Fault Refusal := .next (s.svcPut port.val)

/-- MSG (R340). -/
def execSvcMsg (port : Port) (s : State) : Host.Outcome State Fault Refusal := .next (s.svcMsg port.val)

/-- LOAD_DATA (R353). -/
def execSvcLoadData (port : Port) (s : State) : Host.Outcome State Fault Refusal :=
  .next (s.takeRsp port.val 0x81 fun z f bs => z.onResponse f (SH.tag f) bs fun i => bit (SH.poison f) i)

/-- STORE_ACK (R353). -/
def execSvcStoreAck (port : Port) (s : State) : Host.Outcome State Fault Refusal :=
  .next (s.takeRsp port.val 0x82 fun z f _ => z.onResponse f (field (SH.ctl f) 0 32) [] fun _ => false)

/-- ATOMIC_RSP (R353). -/
def execSvcAtomicRsp (port : Port) (s : State) : Host.Outcome State Fault Refusal :=
  .next (s.takeRsp port.val 0x83 fun z f _ =>
    z.onResponse f (field (SH.ctl f) 0 32) (leBytes 8 (field (SH.ctl f) 64 64)) fun _ => bit (SH.ctl f) 32)

/-- CREDIT (R347). -/
def execSvcCredit (port : Port) (s : State) : Host.Outcome State Fault Refusal :=
  .next (s.takeCtl port.val 0x90 fun z f => (z.onCredit f).closeDue)

/-- CREDIT_TIMER (R347). -/
def execCreditTimer (n : Fin 16384) (s : State) : Host.Outcome State Fault Refusal := .next (s.creditTimer n.val)

/-- GRANT (R346). -/
def execSvcGrant (port : Port) (s : State) : Host.Outcome State Fault Refusal :=
  .next (s.takeCtl port.val 0x91 fun z f => z.onGrant f)

/-- STREAM_TIMEOUT (R349). -/
def execStreamTimeout (n : Fin 16384) (s : State) : Host.Outcome State Fault Refusal := .next (s.streamExpire n.val)

/-- PROBE_RSP (R349). -/
def execSvcProbeRsp (port : Port) (s : State) : Host.Outcome State Fault Refusal :=
  .next (s.takeCtl port.val 0x93 fun z f => (z.onProbeRsp f).closeDue)

/-- STREAM_GRANT_WRITE (R346). -/
def execStreamGrantWrite (n : Fin 16384) (v : Word) (s : State) : Host.Outcome State Fault Refusal := .next (s.writeRx n.val v.toNat)

/-- STREAM_RESET_WRITE (R361). -/
def execStreamResetWrite (n : Fin 16384) (s : State) : Host.Outcome State Fault Refusal := .next (s.resetCtx n.val)

/-- COUNTER_ARM (R352). -/
def execCounterArm (n : Fin 4096) (v : Word) (s : State) : Host.Outcome State Fault Refusal :=
  .next ((s.ccntArm n.val v.toNat).ccntLedger n.val)

/-- COUNTER_CLEAR (R352). -/
def execCounterClear (n : Fin 4096) (s : State) : Host.Outcome State Fault Refusal := .next (s.ccntClear n.val)

end Sys2Proof.Machine
end

