-- ==== Sys2Proof/Machine/Ports.lean ====
section
/-!
DEFINITION. The sending side of a port, which both planes share (12, 14): absolute frets, replay frets and fret maps,
link sequence numbers and the replay buffer, records of ports and links.
-/
namespace Sys2Proof.Machine

/-- The last instant of R225 of a port at or before `t` ns: NGT mod 64,000 = 8,000n. -/
def exchSlot (port t : Nat) : Nat := t - (t + 64000 - 8000 * port % 64000) % 64000

/-! ## Frets (R299 to R301) -/

/-- The absolute fret at the present instant. -/
def State.nowFret (s : State) : Nat := fretOf s.ngt.now
/-- Frets per transit. -/
def State.fretsPer (s : State) : Nat := s.period / 4
/-- Index of an absolute fret within its transit; itself while no meridians are generated. -/
def State.fretIdx (s : State) (f : Nat) : Nat := if s.fretsPer = 0 then f else f % s.fretsPer

/-- Q of a port: the spacing of replay frets (R300). -/
def State.replayQ (s : State) (p : Nat) : Nat := 2 ^ s.fget (R.fabCtl p) F.fabCtl_REPLAY_LOG2
/-- L of a port (R309). -/
def State.linkFrets (s : State) (p : Nat) : Nat := s.fget (R.fabCtl p) F.fabCtl_LINK_FRETS
/-- S of a port: frets within which a copy must be sent (R319). -/
def State.spanS (s : State) (p : Nat) : Nat := 2 * s.linkFrets p + 8 + s.replayQ p
/-- Whether the fret map of a port is in force (R25). -/
def State.mapOn (s : State) (p : Nat) : Bool := s.fget (R.fabCtl p) F.fabCtl_ENABLE == 1

/-- Whether an absolute fret is a replay fret of a port. -/
def State.isReplayFret (s : State) (p f : Nat) : Bool := s.fretIdx f % s.replayQ p == s.replayQ p - 1

/-- Entries of a port's fret map of a version. -/
def State.mapCount (s : State) (p : Nat) (v : Bool) : Nat :=
  s.fget (R.fabMapCount p) (if v then F.fabMapCount_COUNT_V1 else F.fabMapCount_COUNT_V0)
/-- One fret map entry. -/
def State.mapEntry (s : State) (p : Nat) (v : Bool) (k : Nat) : Nat := (s.reg (R.fabMapV p (2048 * b2n v + k))).toNat

/-- Whether a fret map entry covers a fret index (R301). -/
def entryCovers (e f : Nat) : Bool :=
  let first := field e 0 20
  let stride := field e 32 12
  first ≤ f && (if stride = 0 then f == first else (f - first) % stride == 0 && (f - first) / stride ≤ field e 20 12)

/-- The source a scheduled output fret expects, none if the fret is not scheduled (R301). -/
def State.mapSource (s : State) (p : Nat) (v : Bool) (f : Nat) : Option Nat :=
  if !s.mapOn p then none else
  (List.range (s.mapCount p v)).findSome? fun k =>
    let e := s.mapEntry p v k
    if entryCovers e (s.fretIdx f) then some (field e 44 4) else none

/-- Whether an absolute fret of a port is open: neither scheduled nor a replay fret (R23, R25). -/
def State.isOpen (s : State) (p f : Nat) : Bool :=
  !s.mapOn p || ((s.mapSource p s.version f).isNone && !s.isReplayFret p f)

/-- The first replay fret of a port at or after an absolute fret. Replay frets stand at the same indices in every transit, so that
their count starts anew at a meridian (R300). -/
def State.nextReplay (s : State) (p f : Nat) : Nat :=
  let q := s.replayQ p
  let i := s.fretIdx f
  let up := q - 1 - i % q
  if s.fretsPer = 0 ∨ i + up < s.fretsPer then f + up else f - i + s.fretsPer + (q - 1)

/-- The first fret that `next` gives from `f` on and that is not taken; `n` is the number of those taken. -/
def freeFret (next : Nat → Nat) (taken : List Nat) : Nat → Nat → Nat
  | 0, f => next f
  | n + 1, f => if taken.contains (next f) then freeFret next taken n (next f + 1) else next f

/-- The first replay fret of a port at or after an absolute fret that no copy has been given (R319, R320). -/
def State.replayFretFrom (s : State) (p f : Nat) : Nat :=
  let taken := ((s.link p).sent.filterMap (·.replayAt)) ++ (s.fab p).replayQ.map (·.1)
  freeFret (s.nextReplay p) taken taken.length f

/-! ## Fillers (R303) -/

/-- The header flit of a filler: PLANE 0, KIND FILLER, VOID 1, every other field 0, and a valid HCRC (R303). -/
def fillerFlit : Nat := sealed (putField (putField 0 2 2 3) 5 1 1)

/-- The header flit a port sends in an absolute fret its map schedules: that of the vector that took the fret, else a
filler (R303). -/
def State.scheduledHeader (s : State) (p fret : Nat) : Nat :=
  match (s.link p).sent.findSome? fun e => match e.what with
      | .vec v => if e.fret = fret then some v.header.toNat else none
      | .svc _ => none with
  | some f => f
  | none => fillerFlit

/-- A gate's code. -/
def Gate.code : Gate → Nat
  | .closed => 0 | .opened => 1 | .leaving => 2

/-! ## Records (R331, R390) -/

/-- Detail of a record of the scheduled plane (R331). -/
def vecDetail (f port reason fret : Nat) : Nat :=
  VH.src f + VH.dest f * 2 ^ 32 + port * 2 ^ 64 + reason * 2 ^ 72 + fret % 2 ^ 32 * 2 ^ 80 + VH.transit f * 2 ^ 112 +
  VH.seq f * 2 ^ 128 + VH.hop f * 2 ^ 160

/-- Record a fault of the scheduled plane at a port, with the port's error counts. -/
def State.vecFault (s : State) (code cls port reason fret f : Nat) : State :=
  let s1 := s.raise code cls { district := attach port } (vecDetail f port reason (s.fretIdx fret))
  if code = 0x0505 then s1.fbump (R.fabCountErr port) F.fabCountErr_LATE 1
  else if code = 0x0501 then s1.fbump (R.fabCountErr port) F.fabCountErr_CLASH 1
  else s1

/-- Detail of a link record (R390): port, reason, lane (0xFF none), direction, fret, sequence. -/
def lnkDetail (port reason lane dir fret seq : Nat) : Nat :=
  port + reason * 2 ^ 8 + lane * 2 ^ 16 + dir * 2 ^ 24 + fret % 2 ^ 32 * 2 ^ 32 + seq * 2 ^ 64

/-- Record a link event of a port. -/
def State.lnkRecord (s : State) (code cls port reason lane dir seq : Nat) : State :=
  s.raise code cls { district := attach port } (lnkDetail port reason lane dir s.nowFret seq)

/-! ## Sequence numbers and the replay buffer (R374, R378) -/

/-- Whether a sent packet is a vector. -/
def Sent.isVec (e : Sent) : Bool := match e.what with | .vec _ => true | .svc _ => false

/-- Whether a packet may still be replayed: a service packet until acknowledged, a vector while its span lasts (R378). -/
def State.sentLive (s : State) (p : Nat) (e : Sent) : Bool :=
  if e.isVec then e.kept && !e.late && (e.replayAt.isSome || s.nowFret ≤ e.fret + s.spanS p) else true

/-- FLOOR of a port: the lowest sequence that may still be sent or replayed (R374). -/
def State.ownFloor (s : State) (p : Nat) : Nat :=
  match (s.link p).sent.find? (s.sentLive p) with
  | some e => e.seq
  | none => (s.link p).txNext

/-- The packets the replay buffer holds: those kept, from FLOOR on (R378). -/
def State.buffered (s : State) (p : Nat) : List Sent :=
  ((s.link p).sent.dropWhile fun e => !s.sentLive p e).filter (·.kept)

/-- Flits in the replay buffer (LNK_REPLAY.OCCUPANCY). -/
def State.occupancy (s : State) (p : Nat) : Nat := (s.buffered p).foldl (fun n e => n + e.flits) 0
/-- Flits of service packets in the replay buffer. -/
def State.svcOccupancy (s : State) (p : Nat) : Nat := ((s.buffered p).filter (!·.isVec)).foldl (fun n e => n + e.flits) 0

/-- Slot the next packet ends in, in a fret (R371, R377). -/
def endSlot (l : Link) (fret : Nat) : Nat := (l.ended.filter (·.1 == fret)).length

/-- Where a packet stands on the wire: fret, first position and number of flits, for each fret it takes. -/
abbrev Places := List (Nat × Nat × Nat)

/-- The fret a packet ends in. -/
def endFret (ps : Places) : Nat := (ps.getLast?.map (·.1)).getD 0

/-- The flits of a packet at their places. -/
def wireParts (seq : Nat) : Nat → Places → List WirePart
  | _, [] => []
  | skip, (f, first, n) :: ps => { fret := f, first := first, seq := seq, skip := skip, n := n } :: wireParts seq (skip + n) ps

/-- Note a packet sent at some places; the last 256 frets are kept (R377). -/
def noteEnd (l : Link) (seq : Nat) (ps : Places) : Link :=
  let fret := endFret ps
  { l with ended := (l.ended.filter fun e => fret < e.1 + 256) ++ [(fret, endSlot l fret, seq)]
           wire := (l.wire.filter fun w => fret < w.fret + 256) ++ wireParts seq 0 ps }

/-- A packet leaves on a port: it takes the next sequence number and, if there is room, stays in the buffer. The ACK timer starts
where nothing was held (R379). -/
def State.linkSend (s : State) (p : Nat) (ps : Places) (flits : Nat) (what : Carried) (kept : Bool) : State :=
  let l := s.link p
  let fret := endFret ps
  let e : Sent := { seq := l.txNext, flits := flits, fret := fret, slot := endSlot l fret, what := what, kept := kept }
  let l1 := noteEnd l l.txNext ps
  s.setLink p { l1 with txNext := (l.txNext + 1) % 2 ^ 20, sent := l.sent ++ [e],
                        ackSince := if (s.buffered p).isEmpty then s.ngt.now else l.ackSince }

/-- A vector leaves on a port in its fret; one that finds the buffer full is not kept (R378). -/
def State.sendVec (s : State) (p fret : Nat) (v : Vec) (copy : Bool) : State :=
  let f := v.header.toNat
  let flits := if VH.void f then 1 else VH.len f + 1
  let s1 := s.linkSend p [(fret, 0, flits)] flits (.vec v) (s.occupancy p + flits ≤ 8192)
  let b := s1.fab p
  s1.setFab p { b with fig := if copy then { b.fig with replays := b.fig.replays ++ [fret] }
                              else { b.fig with voids := if VH.void f then b.fig.voids ++ [fret] else b.fig.voids
                                                vectors := b.fig.vectors ++ [fret] } }

/-! ## Draining of the old version (R327) -/

/-- Whether a vector's EPOCH differs from the active version. -/
def State.oldVec (s : State) (v : Vec) : Bool := VH.epoch v.header.toNat != s.version

/-- Vectors of the inactive version a port holds (FAB_STATUS.OLD_RESIDENT, R327). -/
def State.oldResident (s : State) (p : Nat) : Nat :=
  ((s.link p).rxVec.filter fun r => s.oldVec r.vec).length +
  ((s.fab p).replayQ.filter fun r => s.oldVec r.2).length +
  ((s.link p).sent.filter fun e => match e.what with | .vec v => s.oldVec v | .svc _ => false).length

/-- Whether DRAINED is 1 (R327): from fret 16 of the flip transit on, once no port holds a vector of the old version. -/
def State.drainedNow (s : State) : Bool :=
  s.fget R.fabEpoch F.fabEpoch_DRAINED == 1 ||
    (decide (s.fget R.fabEpoch F.fabEpoch_AT_TRANSIT * s.fretsPer + 16 ≤ s.nowFret) && (List.range 8).all fun p => s.oldResident p == 0)

/-- The register holds DRAINED as it is now; what is done here comes before anything that could bring a port an old vector. -/
def State.drainCheck (s : State) : State := if s.drainedNow then s.fset R.fabEpoch F.fabEpoch_DRAINED 1 else s

/-! ## Re-timing (R309, R310) -/

/-- E of a port in 2⁻¹⁶ ns: the flight from the start of a partner's fret to its arrival (R309). -/
def State.flight (s : State) (p : Nat) : Int :=
  (s.fget (R.ngtPortNDelay p) F.ngtPortNDelay_DELAY : Int) - signedOf 32 (s.fget (R.ngtPortNAsym p) F.ngtPortNAsym_ASYM) / 2 -
  signedOf 48 (s.fget (R.ngtPortNOffset p) F.ngtPortNOffset_THETA)

/-- The sender's absolute fret of an arrival at instant `ta` (2⁻¹⁶ ns), and the residue (2⁻¹⁶ ns) (R310). -/
def State.retime (s : State) (p ta : Nat) : Nat × Nat :=
  let x := (ta : Int) - s.flight p
  let fret := 4 * 2 ^ 16
  let g := (x + (fret / 2 : Nat)) / (fret : Nat)
  (g.toNat, (x - g * (fret : Nat)).natAbs)

/-- Whether DELAY_OK holds (R309). -/
def State.delayOk (s : State) (p : Nat) : Bool :=
  s.flight p ≤ (4 * s.linkFrets p * 2 ^ 16 : Nat) - (2 * 2 ^ 16 : Nat) &&
    s.fget (R.ngtPortNOffset p) F.ngtPortNOffset_VALID == 1

/-- DELAY_OK is evaluated again; its fall while the map is in force is recorded (R309). -/
def State.checkDelay (s : State) (p : Nat) : State :=
  let o := R.fabStatus p
  let ok := s.delayOk p
  let was := s.fget o F.fabStatus_DELAY_OK
  let s1 := s.fset o F.fabStatus_DELAY_OK (b2n ok)
  if was = 1 ∧ !ok ∧ s.mapOn p then
    (s1.raise 0x0506 1 { district := attach p } (vecDetail 0 p 2 0)).fbump (R.fabAlign p) F.fabAlign_MARGIN_EVENTS 1
  else s1

end Sys2Proof.Machine
end

