-- ==== Sys2Proof/Machine/Clocks.lean ====
section
/-!
DEFINITION. District clocks (10): droop and stretch, the period monitor, retunes and their halt form, crossing calibration,
and the stretch history.
-/
namespace Sys2Proof.Machine

/-- Whether any district is FAILED (R264). -/
def State.anyFailed (s : State) : Bool := (List.range 32).any fun d => s.clkState d == clkFailed

/-- A period of 2⁻⁴⁸ ns in whole ps. -/
def inPs (t : Nat) : Nat := t * 1000 / 2 ^ 48

/-- The period of the cycle of a district's clock in progress, in ps, as its monitor measures it. -/
def State.measuredPs (s : State) (d : Nat) : Nat := inPs (s.clkLen d (s.clk d).cyc s.ngt.now)

/-- Record of a district clock that names no tile (R263): setting and measured period in ps. -/
def State.clkRecord (s : State) (code cls d ps : Nat) : State :=
  s.raise code cls { district := d } (s.setting + ps % 2 ^ 32 * 2 ^ 8)

/-! ## Droop (R248) -/

/-- STEPS of a district. -/
def State.steps (s : State) (d : Nat) : Nat := s.fget (R.clkDroopCtl d) F.clkDroopCtl_STEPS

/-- CLK_STATUS.STRETCH_NOW: STEPS in force in the current cycle (R248, R259). -/
def State.stretchNow (s : State) (d : Nat) : Nat :=
  if s.clkState d = clkGated then 0 else (s.clk d).stepsAt s.ngt.now

/-- The stretch in force ends at an instant. -/
def Clk.endStretch (c : Clk) (t : Nat) : Clk :=
  { c with stretch := c.stretch.map fun x => if x.upto.isNone then { x with upto := some t } else x }

/-- The droop sensor of a powered district trips. While there are no meridians CLK_DROOP_COUNT does not change (R251). -/
def State.droopTrip (s : State) (d : Nat) : State :=
  let c := s.clk d
  if c.tripped.isSome ∨ s.clkState d = clkGated then s
  else
    let s1 := s.setClk d { c with tripped := some s.ngt.now, stretch := c.stretch ++ [{ since := s.ngt.now, steps := s.steps d }]
                                  droops := c.droops + b2n s.valid }
    if s.valid then s1.fbump (R.clkDroopCount d) F.clkDroopCount_EVENTS 1 else s1

/-- The droop sensor clears. -/
def State.droopClear (s : State) (d : Nat) : State :=
  let c := s.clk d
  match c.tripped with
  | none => s
  | some t =>
    let s1 := s.setClk d { c.endStretch s.ngt.now with tripped := none }
    if s.valid then s1.fmax (R.clkDroopCount d) F.clkDroopCount_LONGEST_NS ((s.ngt.now - t) >>> 48) else s1

/-- CLK_DROOP_CTL is written: a stretch in progress goes on with the new STEPS. -/
def State.droopCtlWrite (s : State) (d v : Nat) : State :=
  let s1 := s.setReg (R.clkDroopCtl d) (BitVec.ofNat 64 v)
  let c := s1.clk d
  if c.tripped.isNone ∨ s1.steps d = s.steps d then s1
  else
    let e := c.endStretch s.ngt.now
    s1.setClk d { e with stretch := e.stretch ++ [{ since := s.ngt.now, steps := s1.steps d }] }

/-! ## Faults and halts (R250, R257) -/

/-- Whether a measured period in ps is one the monitor faults: shorter than τ × (1 − 10⁻³), or, outside a halt, longer than
τ × (1 + 15/128) × (1 + 10⁻³) (R250). -/
def State.periodBad (s : State) (d ps : Nat) : Bool :=
  let v := max (s.fget (R.clkStatus d) F.clkStatus_SETTING) 20
  ps * v * 1000 < 40000 * 999 || (s.clkState d != clkHalted && 40000 * 143 * 1001 < ps * v * 128 * 1000)

/-- A district is FAILED, until a district reset calibrates it again (R250); a trial of R264 it was in has failed. -/
def State.clkFails (s : State) (d : Nat) : State :=
  let c := s.clk d
  (s.setClk d { c with trial := none, failedResets := c.failedResets + b2n c.trial.isSome, failed := true }).setClkState d clkFailed

/-- A district's period monitor raises CLOCK_FAULT on a period outside its limits or on loss of lock (R250). -/
def State.clockFault (s : State) (d ps : Nat) (lost : Bool) : State :=
  if s.clkState d = clkGated ∨ s.clkState d = clkFailed ∨ !(lost || s.periodBad d ps) then s
  else (s.clkFails d).clkRecord 0x0403 4 d ps

/-- A retune of a version 3 program halts every district whose clock runs, at its first cycle boundary at or after meridian instant
`m` (R257). -/
def State.haltDistricts (s : State) (m : Nat) : State :=
  (List.range 32).foldl (fun z d => if z.clkOn d then
      let z1 := z.anchorClk d m
      (z1.setClkState d clkHalted).setClk d { z1.clk d with halt := some (m, m + 2000 <<< 48) }
    else z) s

/-- Cycle 0 of a started block moves to the restart of its district's clock; an EMPTY block reaches TEND there (R257, R283). -/
def Tile.restartAt (t : Tile) (t0 : Nat) : Tile :=
  if t.issue.started && t.issue.cycle == 0 then
    { t with issue := { t.issue with start := t0, reached := t.issue.reached.map fun _ => t0 } }
  else t

/-- A halted district restarts at instant `t`, or fails if it has not locked; its tiles' cycle 0 begins there. -/
def State.restartDistrict (s : State) (d t ns : Nat) (locked : Bool) : State :=
  if s.clkState d ≠ clkHalted then s else
  let c := s.clk d
  let s1 := s.setClk d { c with halt := c.halt.map (fun h => (h.1, t)), at_ := t }
  let s2 := (s1.fset (R.clkHalt d) F.clkHalt_COUNT (s1.fget (R.clkHalt d) F.clkHalt_COUNT + 1)).fset (R.clkHalt d)
    F.clkHalt_LAST_NS ns
  let s3 := { s2 with tiles := s2.tiles.map fun (e : Nat × Tile) => (e.1, if e.1 / 17 == d then e.2.restartAt t else e.2) }
  if locked then s3.setClkState d (if c.trial.isSome then clkCal else clkRunning)
  else (s3.clkFails d).clkRecord 0x0403 4 d (s.measuredPs d)

/-- The time unit restarts all halted districts together, at most 2,000 ns after the meridian (R257). -/
def State.haltRestart (s : State) (ns : Nat) (notLocked : Nat) : State :=
  let halted := below 32 fun d => s.clkState d == clkHalted
  match halted.head?.bind fun d => (s.clk d).halt with
  | none => s
  | some (m, _) =>
    let n := if halted.any (bit notLocked) then 2000 else min ns 2000
    let s1 := s.reach (m + n <<< 48)
    halted.foldl (fun z d => z.restartDistrict d (m + n <<< 48) n (!bit notLocked d)) s1

/-! ## Retunes (R253 to R255) -/

/-- Whether R254 accepts a retune request. -/
def State.retuneOk (s : State) (v at' : Nat) : Bool :=
  20 ≤ v && v ≤ 42 && s.fget R.clkMinSetting F.clkMinSetting_MIN ≤ v && (!s.valid || s.transit + 4 ≤ at') &&
  !(s.fget R.clkRetune F.clkRetune_PENDING == 1 && s.valid &&
    s.fget R.clkRetune F.clkRetune_AT_TRANSIT < s.transit + 4)

/-- Hold an accepted retune. -/
def State.retuneAccept (s : State) (v at' : Nat) : State :=
  ((s.fset R.clkRetune F.clkRetune_AT_TRANSIT at').fset R.clkRetune F.clkRetune_SETTING v).fset R.clkRetune F.clkRetune_PENDING 1

/-- A retune request through the instance of district `d`, which records a refusal (R254, R263). -/
def State.retuneVia (s : State) (d v at' : Nat) : State :=
  if s.retuneOk v at' then s.retuneAccept v at'
  else (s.fset R.clkRetune F.clkRetune_REFUSED 1).clkRecord 0x0405 1 d (s.measuredPs d)

/-- A powered instance of CLK_RETUNE, through which firmware writes: that of the lowest district that is not gated. -/
def State.poweredClk (s : State) : Nat := ((List.range 32).find? fun d => s.clkState d != clkGated).getD 0

/-- A retune request of firmware (R254). -/
def State.retuneRequest (s : State) (v at' : Nat) : State := s.retuneVia s.poweredClk v at'

/-- A write of CLK_RETUNE through the instance of a powered district `d`: one with REFUSED = 1 only clears it (R254). -/
def State.retuneWrite (s : State) (d v : Nat) : State :=
  if bit v 14 then s.fset R.clkRetune F.clkRetune_REFUSED 0
  else s.retuneVia d (field v 0 6) (field v 16 48)

/-- A write through a CLK instance: one of a gated district answers with the error response (R265, R453). -/
def State.clkVia (s : State) (d : Nat) (f : State → State) : State :=
  if s.clkState d = clkGated then { s with stw := { s.stw with answer := { kind := .busError } } }
  else { f s with stw := { (f s).stw with answer := {} } }

/-- The setting in force, or that of a pending retune. -/
def State.settingNext (s : State) : Nat :=
  if s.fget R.clkRetune F.clkRetune_PENDING = 1 then s.fget R.clkRetune F.clkRetune_SETTING else s.setting

/-- The planner requests a setting at the earliest meridian R254 allows (R494). -/
def State.planTo (s : State) (v : Nat) : State := if s.settingNext = v then s else s.retuneRequest v (s.transit + 4)

/-- A write of CLK_MIN_SETTING (R255). -/
def State.minSettingWrite (s : State) (v : Nat) : State :=
  if v < 20 ∨ 42 < v ∨ v > s.setting ∨ (s.fget R.clkRetune F.clkRetune_PENDING = 1 ∧
      v > s.fget R.clkRetune F.clkRetune_SETTING) then s
  else s.fset R.clkMinSetting F.clkMinSetting_MIN v

/-! ## Crossing calibration (R259) -/

/-- While its crossings are calibrated a district is in the CAL state, at setting 20 with stretch forced to 15/128, and its
crossings are empty; a droop event in progress is over. -/
def State.beginCal (s : State) (d : Nat) : State :=
  let s1 := (s.setClkState d clkCal).fset (R.clkStatus d) F.clkStatus_SETTING 20
  s1.setClk d { s1.clk d with inFifo := [], outFifo := [], lastIn := none, lastOut := none, tripped := none,
                              stretch := [{ since := s.ngt.now, steps := 15 }] }

/-- Calibration ends: the latencies go to CLK_XCAL, and the clock goes on at the setting in force from a free phase. It runs, or runs
in for the transit of R264, unless a latency is outside 2 to 12 ns or the district failed and no district reset has
calibrated it since. -/
def State.endCal (s : State) (d i o : Nat) : State :=
  let s1 := (s.fset (R.clkXcal d) F.clkXcal_X_IN i).fset (R.clkXcal d) F.clkXcal_X_OUT o
  let ps := s.measuredPs d
  let s2 := s1.fset (R.clkStatus d) F.clkStatus_SETTING s.setting
  let c := s2.clk d
  let k := c.cyc + 1
  let s3 := s2.setClk d { c with cyc := k, at_ := s.ngt.now + Config.clkPhase d k % max (s2.clkLen d k s.ngt.now) 1, stretch := [] }
  if 2 ≤ i ∧ i ≤ 12 ∧ 2 ≤ o ∧ o ≤ 12 then
    s3.setClkState d (if c.failed then clkFailed else if c.trial.isSome then clkCal else clkRunning)
  else (s3.clkFails d).clkRecord 0x0404 4 d ps

/-- A district calibrates its crossings: `xin` and `xout` are the worst latencies observed, in 2⁻¹⁶ ns, to which 1 ns is added,
rounded up. It begins and ends within the step of the reset (log 86). -/
def State.calibrate (s : State) (d xin xout : Nat) : State := (s.beginCal d).endCal d (cdiv xin 65536 + 1) (cdiv xout 65536 + 1)

/-! ## Stretch history (R252) -/

/-- 30 days in ns. -/
def days30 : Nat := 30 * 86400 * 10 ^ 9

/-- Firmware reads CLK_STRETCH_MAX of every powered district and folds it into the history; the ratio is that of N_nom itself, which
the register may show cut. -/
def State.foldStretch (s : State) : State :=
  (List.range 32).foldl (fun z d =>
    if z.clkState d = clkGated then z else
    let o := R.clkStretchMax d
    let loss := z.fget o F.clkStretchMax_LOSS
    let nom := (z.clk d).worstNom
    let kept := (tget [] z.ras.stretch d).filter fun r => z.ns ≤ r.at30 + days30
    let new := if nom = 0 then kept else kept ++ [{ loss := loss, nom := nom, at30 := z.ns }]
    { (z.resetReg o).setClk d { z.clk d with worstNom := 0 } with ras := { z.ras with stretch := tset [] z.ras.stretch d new } }) s

/-- ⌈10,000 × H_d⌉: the worst LOSS / N_nom of a district's history in basis points (R276). -/
def State.stretchBp (s : State) (d : Nat) : Nat :=
  (tget [] s.ras.stretch d).foldl (fun m r => max m (cdiv (10000 * r.loss) r.nom)) 0

/-! ## Commands -/

/-- DROOP_TRIP (R248). -/
def execDroopTrip (d : District) (s : State) : Host.Outcome State Fault Refusal := .next (s.droopTrip d.val)

/-- DROOP_CLEAR (R248). -/
def execDroopClear (d : District) (s : State) : Host.Outcome State Fault Refusal := .next (s.droopClear d.val)

/-- HALT_RESTART (R257): ns after the meridian, and the districts that have not locked. -/
def execHaltRestart (ns : Nat) (notLocked : BitVec 32) (s : State) : Host.Outcome State Fault Refusal :=
  .next (s.haltRestart ns notLocked.toNat)

/-- RETUNE_IDLE_APPLY (R254). -/
def execRetuneIdleApply (s : State) : Host.Outcome State Fault Refusal :=
  .next (if !s.valid && s.fget R.clkRetune F.clkRetune_PENDING == 1 then s.applyRetune else s)

/-- CLK_RETUNE_WRITE (R254). -/
def execClkRetuneWrite (d : District) (v : Word) (s : State) : Host.Outcome State Fault Refusal :=
  .next (s.clkVia d.val fun z => z.retuneWrite d.val v.toNat)

/-- CLK_REFUSED_CLEAR (R254). -/
def execClkRefusedClear (d : District) (s : State) : Host.Outcome State Fault Refusal :=
  .next (s.clkVia d.val fun z => z.fset R.clkRetune F.clkRetune_REFUSED 0)

/-- CLK_MIN_SETTING_WRITE (R255). -/
def execClkMinSettingWrite (d : District) (v : BitVec 6) (s : State) : Host.Outcome State Fault Refusal :=
  .next (s.clkVia d.val fun z => z.minSettingWrite v.toNat)

/-- STRETCH_HISTORY_READ (R252). -/
def execStretchHistoryRead (s : State) : Host.Outcome State Fault Refusal := .next s.foldStretch

end Sys2Proof.Machine
end

