-- ==== Sys2Proof/Machine/Floats.lean ====
section
/-!
DEFINITION. Number formats (03): decoding of every element format, and the one rounding that every result takes.
-/
namespace Sys2Proof.Machine

/-- A floating-point format of R68: exponent and mantissa widths, bias, and how infinities and NaN are coded
(`0` none, `1` E4M3 style: only S.1111.111 is NaN, `2` IEEE style). -/
structure FFmt where
  eb : Nat
  mb : Nat
  bias : Int
  special : Nat
  deriving DecidableEq, Repr

namespace FFmt
def e4m3 : FFmt := ⟨4, 3, 7, 1⟩
def e5m2 : FFmt := ⟨5, 2, 15, 2⟩
def e3m2 : FFmt := ⟨3, 2, 3, 0⟩
def e2m3 : FFmt := ⟨2, 3, 1, 0⟩
def e2m1 : FFmt := ⟨2, 1, 1, 0⟩
def bf16 : FFmt := ⟨8, 7, 127, 2⟩
def fp16 : FFmt := ⟨5, 10, 15, 2⟩
def fp32 : FFmt := ⟨8, 23, 127, 2⟩

/-- Bits of an element. -/
def width (f : FFmt) : Nat := 1 + f.eb + f.mb

/-- Exponent of the smallest normal number (R68). -/
def emin (f : FFmt) : Int := 1 - f.bias

/-- Exponent of the unit in the last place of the smallest numbers. -/
def ulpMin (f : FFmt) : Int := f.emin - f.mb

/-- Significand and exponent of the largest finite value (R68). -/
def maxFin (f : FFmt) : Nat × Int :=
  match f.special with
  | 2 => (2 ^ (f.mb + 1) - 1, (2 ^ f.eb - 2 : Nat) - f.bias - f.mb)
  | 1 => (2 ^ (f.mb + 1) - 2, (2 ^ f.eb - 1 : Nat) - f.bias - f.mb)
  | _ => (2 ^ (f.mb + 1) - 1, (2 ^ f.eb - 1 : Nat) - f.bias - f.mb)

/-- The canonical NaN of the format (R69). -/
def nanBits (f : FFmt) : Nat :=
  match f.special with
  | 2 => if f.eb = 5 ∧ f.mb = 2 then 0x7F else (2 ^ f.eb - 1) * 2 ^ f.mb + 2 ^ (f.mb - 1)
  | 1 => 0x7F
  | _ => 0

/-- Sign bit of the format. -/
def signBit (f : FFmt) (neg : Bool) : Nat := if neg then 2 ^ (f.eb + f.mb) else 0

/-- Encoding of the largest finite magnitude. -/
def maxBits (f : FFmt) : Nat :=
  match f.special with
  | 2 => (2 ^ f.eb - 1) * 2 ^ f.mb - 1
  | 1 => 2 ^ (f.eb + f.mb) - 2
  | _ => 2 ^ (f.eb + f.mb) - 1

/-- What an overflow becomes without SATFINITE (R86): infinity, or the canonical NaN in E4M3; a format with neither
saturates. -/
def infBits (f : FFmt) (neg : Bool) : Nat :=
  match f.special with
  | 2 => f.signBit neg + (2 ^ f.eb - 1) * 2 ^ f.mb
  | 1 => f.nanBits
  | _ => f.signBit neg + f.maxBits
end FFmt

/-- The value of an element: NaN, an infinity, or `(-1)^neg * m * 2^e` (R70). -/
inductive FVal where
  | nan
  | inf (neg : Bool)
  | fin (neg : Bool) (m : Nat) (e : Int)
  deriving DecidableEq, Repr

/-- Decode an element (R68, R70). -/
def decodeF (f : FFmt) (w : Nat) : FVal :=
  let frac := field w 0 f.mb
  let x := field w f.mb f.eb
  let neg := bit w (f.eb + f.mb)
  if f.special = 2 ∧ x = 2 ^ f.eb - 1 then (if frac = 0 then .inf neg else .nan)
  else if f.special = 1 ∧ x = 2 ^ f.eb - 1 ∧ frac = 2 ^ f.mb - 1 then .nan
  else if x = 0 then .fin neg frac f.ulpMin
  else .fin neg (2 ^ f.mb + frac) ((x : Int) - f.bias - f.mb)

/-- Floor of the base-2 logarithm of a positive number. -/
def log2 (m : Nat) : Nat := Nat.log2 m

/-- `m * 2^e` compared with `n * 2^g`: at least as large. -/
def geScaled (m : Nat) (e : Int) (n : Nat) (g : Int) : Bool :=
  if e ≥ g then m * 2 ^ (e - g).toNat ≥ n else m ≥ n * 2 ^ (g - e).toNat

/-- How a remainder is rounded: to nearest even (R84), or up when `r < floor(rem * 2^32 / 2^sh)` (R85). -/
inductive Rounding where
  | nearest
  | stochastic (r : Nat)
  deriving DecidableEq, Repr

/-- Round `m / 2^sh` to an integer. -/
def roundShift (rd : Rounding) (m sh : Nat) : Nat :=
  let hi := m >>> sh
  let rem := m % 2 ^ sh
  match rd with
  | .nearest =>
    if sh = 0 then hi
    else if rem > 2 ^ (sh - 1) ∨ (rem = 2 ^ (sh - 1) ∧ hi % 2 = 1) then hi + 1 else hi
  | .stochastic r => if r < rem * 2 ^ 32 / 2 ^ sh then hi + 1 else hi

/-- The bits of a magnitude `mag * 2^u` that the format represents exactly. -/
def packF (f : FFmt) (neg : Bool) (mag : Nat) (u : Int) : Nat :=
  if mag = 0 then f.signBit neg
  else if mag < 2 ^ f.mb then f.signBit neg + mag
  else
    let extra := log2 mag - f.mb
    let sig := mag >>> extra
    let x := (u + extra + f.mb + f.bias).toNat
    f.signBit neg + x * 2 ^ f.mb + sig % 2 ^ f.mb

/-- Whether a rounded magnitude overflows (R86). Nearest-even overflows from the maximum finite value plus half its
ULP on, stochastic rounding when the rounded value exceeds the maximum. -/
def overflows (f : FFmt) (rd : Rounding) (m : Nat) (e : Int) (mag : Nat) (u : Int) : Bool :=
  let (mx, ex) := f.maxFin
  match rd with
  | .nearest => geScaled m e (2 * mx + 1) (ex - 1)
  | .stochastic _ => !(geScaled mx ex mag u)

/-- Round the magnitude `m * 2^e` once to the format (R84 to R86); `satf` is SATFINITE. -/
def roundF (f : FFmt) (rd : Rounding) (satf : Bool) (neg : Bool) (m : Nat) (e : Int) : Nat :=
  if m = 0 then f.signBit neg
  else
    let t : Int := (log2 m : Nat) + e
    let u := (if t ≥ f.emin then t else f.emin) - f.mb
    let sh := u - e
    let mag := if sh ≤ 0 then m * 2 ^ (-sh).toNat else roundShift rd m sh.toNat
    if overflows f rd m e mag u then
      (if satf then f.signBit neg + f.maxBits else f.infBits neg)
    else packF f neg mag u

/-- Round a value of any kind to the format, as a narrowing conversion does (R83, R88). For an infinity with SATFINITE the spec speaks of
overflow only: formats with infinities keep it, E4M3 takes its largest finite value, as R83 has ACRD do (DESIGN CHOICE, log 99). -/
def encodeF (f : FFmt) (rd : Rounding) (satf : Bool) : FVal → Nat
  | .nan => f.nanBits
  | .inf neg => if f.special = 2 then f.infBits neg
                else if satf then f.signBit neg + f.maxBits else f.infBits neg
  | .fin neg m e => roundF f rd satf neg m e

/-- The exact integer `x * 2^160` of a finite value of a lane format; infinities are beyond every finite value. -/
def scaled : FVal → Int
  | .nan => 0
  | .inf neg => if neg then -(2 ^ 400 : Nat) else (2 ^ 400 : Nat)
  | .fin neg m e =>
    let v : Int := (m * 2 ^ (e + 160).toNat : Nat)
    if neg then -v else v

/-- Whether a value is a NaN. -/
def FVal.isNan : FVal → Bool
  | .nan => true
  | _ => false

/-- Sign of a value. -/
def FVal.neg : FVal → Bool
  | .nan => false
  | .inf n => n
  | .fin n _ _ => n

/-- Whether a value is a zero of either sign. -/
def FVal.isZero : FVal → Bool
  | .fin _ 0 _ => true
  | _ => false

/-- The value with its sign reversed. -/
def FVal.negate : FVal → FVal
  | .nan => .nan
  | .inf n => .inf (!n)
  | .fin n m e => .fin (!n) m e

/-- Round an exact integer multiple of `2^e`; `negZero` is the sign of an exact zero. -/
def roundInt (f : FFmt) (negZero : Bool) (v : Int) (e : Int) : Nat :=
  if v = 0 then f.signBit negZero else roundF f .nearest false (decide (v < 0)) v.natAbs e

/-- Sum of two values, rounded once (R87, R101). -/
def addF (f : FFmt) (a b : FVal) : Nat :=
  match a, b with
  | .nan, _ => f.nanBits
  | _, .nan => f.nanBits
  | .inf s, .inf t => if s = t then f.infBits s else f.nanBits
  | .inf s, _ => f.infBits s
  | _, .inf t => f.infBits t
  | a, b => roundInt f (a.neg && b.neg) (scaled a + scaled b) (-160)

/-- Product of two values as a value (R79, R101). -/
def mulV (a b : FVal) : FVal :=
  match a, b with
  | .nan, _ => .nan
  | _, .nan => .nan
  | .inf s, .inf t => .inf (s != t)
  | .inf s, .fin t m _ => if m = 0 then .nan else .inf (s != t)
  | .fin s m _, .inf t => if m = 0 then .nan else .inf (s != t)
  | .fin s m e, .fin t n g => .fin (s != t) (m * n) (e + g)

/-- Product, rounded once. -/
def mulF (f : FFmt) (a b : FVal) : Nat := encodeF f .nearest false (mulV a b)

/-- Exact integer `x * 2^320` of a product or addend. -/
def scaled2 : FVal → Int
  | .fin neg m e =>
    let v : Int := (m * 2 ^ (e + 320).toNat : Nat)
    if neg then -v else v
  | _ => 0

/-- `a * b + c`, rounded once (R87, R101). -/
def fmaF (f : FFmt) (a b c : FVal) : Nat :=
  match mulV a b, c with
  | .nan, _ => f.nanBits
  | _, .nan => f.nanBits
  | .inf s, .inf t => if s = t then f.infBits s else f.nanBits
  | .inf s, _ => f.infBits s
  | _, .inf t => f.infBits t
  | p, c => roundInt f (p.neg && c.neg) (scaled2 p + scaled2 c) (-320)

/-- Numeric order with `-0 < +0`, for values that are not NaN. -/
def leTotal (a b : FVal) : Bool :=
  let x := scaled a
  let y := scaled b
  if x = y then a.neg || !b.neg else x < y

/-- Integer conversion: nearest even, saturating to a signed width; NaN gives 0 (R88). -/
def toIntF (w : Nat) : FVal → Int
  | .nan => 0
  | .inf neg => if neg then -(2 ^ (w - 1) : Nat) else (2 ^ (w - 1) : Nat) - 1
  | .fin neg m e =>
    let mag : Nat := if e ≥ 0 then (if e > 200 ∧ m ≠ 0 then 2 ^ 64 else m * 2 ^ e.toNat)
                     else roundShift .nearest m (-e).toNat
    let v : Int := if neg then -(mag : Int) else mag
    clampI (-(2 ^ (w - 1) : Nat)) ((2 ^ (w - 1) : Nat) - 1) v

/-- Generator of stochastic rounding (R85): the 32-bit value for a seed, transit, ordinal and lane term. -/
def stochasticR (seed transit16 ordinal laneTerm : Nat) : Nat :=
  let q := 2 ^ 64
  let g := 0x9E3779B97F4A7C15
  let x0 := (((seed % 2 ^ 32) <<< 32) ||| ((transit16 % 2 ^ 16) <<< 16)) ||| (ordinal % 2 ^ 16)
  let x := x0 ^^^ ((laneTerm * g) % q)
  let z := (x + g) % q
  let z := ((z ^^^ (z >>> 30)) * 0xBF58476D1CE4E5B9) % q
  let z := ((z ^^^ (z >>> 27)) * 0x94D049BB133111EB) % q
  let z := z ^^^ (z >>> 31)
  z >>> 32

end Sys2Proof.Machine
end

