-- ==== Sys2Proof/Machine/Transcendental.lean ====
section
/-!
DEFINITION. The transcendental path (04, R106): each function to 256 fraction bits, then one rounding to FP32.
VRCP and VRSQRT are exact algebra with a sticky bit. PRESUMED (log 24): no FP32 operand of the other five lies so near
a rounding boundary that 2^-240 decides its rounding.
-/
namespace Sys2Proof.Machine

/-- Fraction bits of the fixed-point work. -/
def fxBits : Nat := 256

/-- 1.0 in fixed point. -/
def fxOne : Nat := 2 ^ fxBits

/-- Round toward minus infinity of `i / 2^n`. -/
def ishr (i : Int) (n : Nat) : Int := i / ((2 ^ n : Nat) : Int)

/-- Sum of `z^(2k+1) / (2k+1)`, `n` terms, for a power `p` of `z` and the square `z2`, both in fixed point. -/
def atanhSeries (z2 : Int) : Nat → Nat → Int → Int
  | 0, _, _ => 0
  | n + 1, k, p => p / ((2 * k + 1 : Nat) : Int) + atanhSeries z2 n (k + 1) (ishr (p * z2) fxBits)

/-- ln 2 in fixed point, from 2 atanh(1/3). -/
def ln2Fx : Int :=
  let z : Int := ((fxOne / 3 : Nat) : Int)
  2 * atanhSeries (ishr (z * z) fxBits) 90 0 z

/-- Taylor sum of e^r: `n` more terms from the `k`-th, whose value is `t`. -/
def expSeries (r : Int) : Nat → Nat → Int → Int
  | 0, _, _ => 0
  | n + 1, k, t => t + expSeries r n (k + 1) (ishr (t * r) fxBits / ((k + 1 : Nat) : Int))

/-- A finite value in fixed point, truncated toward minus infinity; only for |x| below 2^12. -/
def toFx : FVal → Int
  | .fin neg m e =>
    let s := e + fxBits
    let v : Int := if s ≥ 0 then ((m * 2 ^ s.toNat : Nat) : Int) else ((m / 2 ^ (-s).toNat : Nat) : Int)
    if neg then -v else v
  | _ => 0

/-- e^x for |x| ≤ 200 in fixed point: `(T, n)` with value `T * 2^(n - 256)` and `T` near 1. -/
def expFx (x : Int) : Int × Int :=
  let n := (2 * x + ln2Fx) / (2 * ln2Fx)
  let r := x - n * ln2Fx
  (expSeries r 70 0 fxOne, n)

/-- Whether |x| exceeds 200, so that every function of R106 but VLOG2 is at its limit. -/
def bigArg : FVal → Bool
  | .fin _ m e => geScaled m e 200 0
  | _ => true

/-- Round a positive fixed-point value `t * 2^e` that stands for an inexact result: a sticky bit is appended. -/
def roundSticky (f : FFmt) (neg : Bool) (t : Nat) (e : Int) : Nat := roundF f .nearest false neg (2 * t + 1) (e - 1)

/-- eˣ (R106). -/
def expF (f : FFmt) : FVal → Nat
  | .nan => f.nanBits
  | .inf neg => if neg then 0 else f.infBits false
  | .fin neg m e =>
    if m = 0 then roundF f .nearest false false 1 0
    else if bigArg (.fin neg m e) then (if neg then roundSticky f false 1 (-400) else f.infBits false)
    else
      let (t, n) := expFx (toFx (.fin neg m e))
      roundSticky f false t.toNat (n - fxBits)

/-- 2ˣ (R106). -/
def exp2F (f : FFmt) : FVal → Nat
  | .nan => f.nanBits
  | .inf neg => if neg then 0 else f.infBits false
  | .fin neg m e =>
    if bigArg (.fin neg m e) then (if neg then roundSticky f false 1 (-400) else f.infBits false)
    else
      let x := toFx (.fin neg m e)
      let n := x / (fxOne : Int)
      let fr := x - n * fxOne
      if fr = 0 then roundF f .nearest false false 1 n
      else roundSticky f false (expSeries (ishr (fr * ln2Fx) fxBits) 90 0 fxOne).toNat (n - fxBits)

/-- log₂ x (R106). -/
def log2F (f : FFmt) : FVal → Nat
  | .nan => f.nanBits
  | .inf neg => if neg then f.nanBits else f.infBits false
  | .fin neg m e =>
    if m = 0 then f.infBits true
    else if neg then f.nanBits
    else
      let k := log2 m
      let E : Int := (k : Int) + e
      if m = 2 ^ k then roundInt f false E 0
      else
        let z : Int := ((fxOne * (m - 2 ^ k) / (m + 2 ^ k) : Nat) : Int)
        let l := 2 * atanhSeries (ishr (z * z) fxBits) 90 0 z * fxOne / ln2Fx
        let v := E * fxOne + l
        roundSticky f (decide (v < 0)) v.natAbs (-(fxBits : Int))

/-- 1 / x (R106), exact with a sticky bit. -/
def rcpF (f : FFmt) : FVal → Nat
  | .nan => f.nanBits
  | .inf neg => f.signBit neg
  | .fin neg m e =>
    if m = 0 then f.infBits neg
    else
      let k := log2 m + 64
      let q := 2 ^ k / m
      let sticky := b2n (q * m != 2 ^ k)
      roundF f .nearest false neg (2 * q + sticky) (-(k : Int) - e - 1)

/-- Integer square root by bits, from bit `n - 1` down. -/
def isqrtGo (v : Nat) : Nat → Nat → Nat
  | 0, r => r
  | n + 1, r => if (r + 2 ^ n) * (r + 2 ^ n) ≤ v then isqrtGo v n (r + 2 ^ n) else isqrtGo v n r

/-- Floor of the square root of a number below 2^256. -/
def isqrt (v : Nat) : Nat := isqrtGo v 128 0

/-- 1 / √x (R106), exact with a sticky bit. -/
def rsqrtF (f : FFmt) : FVal → Nat
  | .nan => f.nanBits
  | .inf neg => if neg then f.nanBits else 0
  | .fin neg m e =>
    if m = 0 then f.infBits neg
    else if neg then f.nanBits
    else
      let (m', e') := if e % 2 = 0 then (m, e) else (2 * m, e - 1)
      let r := isqrt (2 ^ 200 / m')
      let sticky := b2n (r * r * m' != 2 ^ 200)
      roundF f .nearest false false (2 * r + sticky) (-100 - e' / 2 - 1)

/-- Round a positive quotient `a / b * 2^e`, sticky. -/
def roundQuot (f : FFmt) (neg : Bool) (a b : Nat) (e : Int) : Nat :=
  roundSticky f neg (a * 2 ^ 200 / b) (e - 200)

/-- tanh x (R106). -/
def tanhF (f : FFmt) : FVal → Nat
  | .nan => f.nanBits
  | .inf neg => roundF f .nearest false neg 1 0
  | .fin neg m e =>
    if m = 0 then f.signBit neg
    else if geScaled m e 100 0 then roundF f .nearest false neg 1 0
    else
      let (t, n) := expFx (2 * toFx (.fin false m e))
      let y := t.toNat * 2 ^ n.toNat
      if y ≤ fxOne then roundF f .nearest false neg m e
      else if geScaled m e 1 (-60) then roundQuot f neg (y - fxOne) (y + fxOne) 0
      else roundF f .nearest false neg m e

/-- 1 / (1 + e⁻ˣ) (R106). -/
def sigmF (f : FFmt) : FVal → Nat
  | .nan => f.nanBits
  | .inf neg => if neg then 0 else roundF f .nearest false false 1 0
  | .fin neg m e =>
    if m = 0 then roundF f .nearest false false 1 (-1)
    else if bigArg (.fin neg m e) then
      (if neg then roundSticky f false 1 (-400) else roundF f .nearest false false 1 0)
    else
      let (t, n) := expFx (-(toFx (.fin false m e)))
      let d := fxOne * 2 ^ (-n).toNat
      if neg then roundQuot f false t.toNat (d + t.toNat) 0 else roundQuot f false d (d + t.toNat) 0

/-- The seven functions of R106. -/
inductive TransOp where
  | exp | exp2 | log2 | rcp | rsqrt | tanh | sigm
  deriving DecidableEq, Repr

/-- The FP32 result of a transcendental on an FP32 value. -/
def trans32 : TransOp → FVal → Nat
  | .exp => expF .fp32
  | .exp2 => exp2F .fp32
  | .log2 => log2F .fp32
  | .rcp => rcpF .fp32
  | .rsqrt => rsqrtF .fp32
  | .tanh => tanhF .fp32
  | .sigm => sigmF .fp32

/-- A lane of format `f`: the input widened exactly, the FP32 result, and one more rounding for a 16-bit lane (R106). -/
def transF (op : TransOp) (f : FFmt) (w : Nat) : Nat :=
  let r := trans32 op (decodeF f w)
  if f = .fp32 then r else encodeF f .nearest false (decodeF .fp32 r)

end Sys2Proof.Machine
end

