-- ==== Sys2Proof/Machine/Vector.lean ====
section
/-!
DEFINITION. What the vector operations compute (04, R90 to R108): lanes, predicates, conversions, MX quantisation,
reductions, permutes and the gate unit, as functions of register contents.
-/
namespace Sys2Proof.Machine

/-- Lane width of a type (R90). -/
def laneBits : LaneTy → Nat
  | .f32 => 32 | .i32 => 32 | .bf16 => 16 | .f16 => 16 | .i16 => 16 | .i8 => 8

/-- The float format of a float lane type. -/
def laneFmt : LaneTy → FFmt
  | .bf16 => .bf16 | .f16 => .fp16 | _ => .fp32

/-- Lane `i` of `w` bits (R39). -/
def lane (v : BitVec 8192) (w i : Nat) : Nat := field v.toNat (w * i) w

/-- Whether lane `i` of `w` bits lies in a poisoned 32-bit lane (R93). -/
def lanePois (v : VReg) (w i : Nat) : Bool := bit v.poison.toNat (w * i / 32)

/-- Whether predicate `pm` makes lane `i` of `w` bits active (R39, R91). -/
def laneActive (pm : BitVec 256) (w i : Nat) : Bool := bit pm.toNat (w * i / 32)

/-- Lanes of `w` bits given as value and poison; lanes without a value are not written. -/
def writeLanes (w n : Nat) (f : Nat → Option (Nat × Bool)) : BitVec 8192 × BitVec 8192 × BitVec 256 :=
  let r := (List.range n).foldl (fun (acc : Nat × Nat × Nat) i =>
    match f i with
    | none => acc
    | some (x, p) =>
      (acc.1 + ((2 ^ w - 1) <<< (w * i)), acc.2.1 + ((x % 2 ^ w) <<< (w * i)),
       if p then acc.2.2 ||| (1 <<< (w * i / 32)) else acc.2.2)) (0, 0, 0)
  (BitVec.ofNat 8192 r.1, BitVec.ofNat 8192 r.2.1, BitVec.ofNat 256 r.2.2)

/-- The landing that writes lanes of vector register `vd`. -/
def landLanes (vd w n : Nat) (f : Nat → Option (Nat × Bool)) : Landing :=
  let (m, v, p) := writeLanes w n f
  .vreg vd m v p

/-- A register after a landing: masked bits replaced; a 32-bit lane written whole takes the written poison, one written
in part the union (R92, R93). -/
def mergeVReg (r : VReg) (mask val : BitVec 8192) (pois : BitVec 256) : VReg :=
  let full := (List.range 256).foldl (fun acc i => if lane mask 32 i = 2 ^ 32 - 1 then acc ||| (1 <<< i) else acc) 0
  { data := (r.data &&& ~~~mask) ||| (val &&& mask)
    poison := (r.poison &&& ~~~(BitVec.ofNat 256 full)) ||| pois }

/-- Signed or unsigned reading of a lane. -/
def laneInt (u : Bool) (w x : Nat) : Int := if u then (x : Int) else signedOf w x

/-- minimumNumber and maximumNumber with `-0 < +0` (R101). -/
def minmaxF (f : FFmt) (isMax : Bool) (a b : Nat) : Nat :=
  let va := decodeF f a
  let vb := decodeF f b
  if va.isNan && vb.isNan then f.nanBits
  else if va.isNan then b
  else if vb.isNan then a
  else if leTotal va vb then (if isMax then b else a) else (if isMax then a else b)

/-- Result of a lane-wise two-source operation (R101). -/
def binLane (op : VBinOp) (ty : LaneTy) (u : Bool) (a b : Nat) : Nat :=
  let w := laneBits ty
  let f := laneFmt ty
  let fl := LaneTyIsFloat ty
  let sat (v : Int) : Nat :=
    if u then (clampI 0 ((2 ^ w : Nat) - 1) v).toNat
    else ofSigned w (clampI (-(2 ^ (w - 1) : Nat)) ((2 ^ (w - 1) : Nat) - 1) v)
  match op with
  | .vadd => if fl then addF f (decodeF f a) (decodeF f b) else (a + b) % 2 ^ w
  | .vsub => if fl then addF f (decodeF f a) (decodeF f b).negate else (a + 2 ^ w - b) % 2 ^ w
  | .vmul => if fl then mulF f (decodeF f a) (decodeF f b) else (a * b) % 2 ^ w
  | .vadds => sat (laneInt u w a + laneInt u w b)
  | .vsubs => sat (laneInt u w a - laneInt u w b)
  | .vmin => if fl then minmaxF f false a b else if laneInt u w a ≤ laneInt u w b then a else b
  | .vmax => if fl then minmaxF f true a b else if laneInt u w a ≤ laneInt u w b then b else a
  | .vand => a &&& b
  | .vor => a ||| b
  | .vxor => a ^^^ b
  | .vshl => (a <<< (b % w)) % 2 ^ w
  | .vshr => a >>> (b % w)
  | .vsra => ofSigned w (signedOf w a / ((2 ^ (b % w) : Nat) : Int))

/-- Result of a lane-wise one-source operation (R101, R106). -/
def unLane (op : VUnOp) (ty : LaneTy) (a : Nat) : Nat :=
  let w := laneBits ty
  let f := laneFmt ty
  let fl := LaneTyIsFloat ty
  match op with
  | .vabs => if fl then (if (decodeF f a).isNan then f.nanBits else a % 2 ^ (w - 1))
             else if a ≥ 2 ^ (w - 1) then (2 ^ w - a) % 2 ^ w else a
  | .vneg => if fl then (if (decodeF f a).isNan then f.nanBits else a ^^^ 2 ^ (w - 1)) else (2 ^ w - a) % 2 ^ w
  | .vnot => 2 ^ w - 1 - a
  | .vmov => a
  | .vexp => transF .exp f a
  | .vexp2 => transF .exp2 f a
  | .vlog2 => transF .log2 f a
  | .vrcp => transF .rcp f a
  | .vrsqrt => transF .rsqrt f a
  | .vtanh => transF .tanh f a
  | .vsigm => transF .sigm f a

/-- The landing of an operation that gives each active lane a value, with merging or zeroing (R91). -/
def lanewise (vd : Nat) (ty : LaneTy) (z : Bool) (pm : BitVec 256) (f : Nat → Nat × Bool) : Landing :=
  let w := laneBits ty
  landLanes vd w (laneCount ty) fun i =>
    if laneActive pm w i then some (f i) else if z then some (0, false) else none

/-- Two-source lane-wise operation. -/
def vbinLanding (op : VBinOp) (a : VArgs) (pm : BitVec 256) (x y : VReg) : Landing :=
  let w := laneBits a.ty
  lanewise a.vd.toNat a.ty a.z pm fun i =>
    (binLane op a.ty a.u (lane x.data w i) (lane y.data w i), lanePois x w i || lanePois y w i)

/-- One-source lane-wise operation. -/
def vunLanding (op : VUnOp) (a : VArgs) (pm : BitVec 256) (x : VReg) : Landing :=
  let w := laneBits a.ty
  lanewise a.vd.toNat a.ty a.z pm fun i => (unLane op a.ty (lane x.data w i), lanePois x w i)

/-- VFMA (R101). -/
def vfmaLanding (a : VArgs) (pm : BitVec 256) (x y c : VReg) : Landing :=
  let w := laneBits a.ty
  let f := laneFmt a.ty
  lanewise a.vd.toNat a.ty a.z pm fun i =>
    (fmaF f (decodeF f (lane x.data w i)) (decodeF f (lane y.data w i)) (decodeF f (lane c.data w i)),
     lanePois x w i || lanePois y w i || lanePois c w i)

/-- Whether a condition holds between two lanes (R101); a NaN makes only NE true. -/
def condLane (c : Cond) (ty : LaneTy) (a b : Nat) : Bool :=
  let w := laneBits ty
  let f := laneFmt ty
  let fl := LaneTyIsFloat ty
  let va := decodeF f a
  let vb := decodeF f b
  if fl && (va.isNan || vb.isNan) then c == .ne
  else
    let x := if fl then scaled va else signedOf w a
    let y := if fl then scaled vb else signedOf w b
    match c with
    | .eq => x == y
    | .ne => x != y
    | .lt => x < y
    | .le => x ≤ y
    | .gt => x > y
    | .ge => x ≥ y

/-- VCMP (R93, R101): bit j holds in every active lane it governs; a bit governing only inactive lanes is 0; a poisoned
active lane poisons the whole predicate. -/
def vcmpResult (ty : LaneTy) (pm : BitVec 256) (x y : VReg) (c : Cond) : PReg :=
  let w := laneBits ty
  let k := 32 / w
  let bits := (List.range 256).foldl (fun acc j =>
    if bit pm.toNat j && (List.range k).all (fun t => condLane c ty (lane x.data w (k * j + t)) (lane y.data w (k * j + t)))
    then acc ||| (1 <<< j) else acc) 0
  { val := BitVec.ofNat 256 bits, poison := ((x.poison ||| y.poison) &&& pm) != 0 }

/-- VSEL (R101): pm selects a or b in every lane. -/
def vselLanding (a : VArgs) (pm : BitVec 256) (x y : VReg) : Landing :=
  landLanes a.vd.toNat 32 256 fun i =>
    let r := if bit pm.toNat i then x else y
    some (lane r.data 32 i, lanePois r 32 i)

/-- VBCAST (R101). -/
def vbcastLanding (a : VArgs) (pm : BitVec 256) (s : SReg) : Landing :=
  lanewise a.vd.toNat a.ty a.z pm fun _ => (s.val.toNat % 2 ^ laneBits a.ty, s.poison)

/-- VEXT (R101). -/
def vextResult (ty : LaneTy) (x : VReg) (s : SReg) : SReg :=
  let w := laneBits ty
  let i := s.val.toNat % laneCount ty
  { val := BitVec.ofNat 64 (lane x.data w i), poison := s.poison || lanePois x w i }

/-- VPERM (R105). -/
def vpermLanding (a : VArgs) (pm : BitVec 256) (x idx : VReg) : Landing :=
  let w := laneBits a.ty
  lanewise a.vd.toNat a.ty a.z pm fun i =>
    let j := lane idx.data w i % laneCount a.ty
    (lane x.data w j, lanePois x w j || lanePois idx w i)

/-! ### Reductions (R104) -/

/-- Exact float sum of values, rounded once; special cases of the VRED table. -/
def sumF (f : FFmt) (vs : List FVal) : Nat :=
  let pinf := vs.any fun v => v == .inf false
  let ninf := vs.any fun v => v == .inf true
  if vs.any FVal.isNan || (pinf && ninf) then f.nanBits
  else if pinf then f.infBits false
  else if ninf then f.infBits true
  else
    let allNegZero := !vs.isEmpty && vs.all fun v => v.isZero && v.neg
    roundInt f allNegZero (vs.foldl (fun s v => s + scaled v) 0) (-160)

/-- Float maximum or minimum of a group (VRED cases 1 and 2). -/
def foldMinMaxF (f : FFmt) (isMax : Bool) (xs : List Nat) : Nat :=
  match xs with
  | [] => f.infBits isMax
  | x :: rest =>
    let first := if (decodeF f x).isNan then f.nanBits else x
    rest.foldl (minmaxF f isMax) first

/-- One group of VRED. -/
def redGroup (op : RedOp) (ty : LaneTy) (u : Bool) (xs : List Nat) : Nat :=
  let w := laneBits ty
  let f := laneFmt ty
  let fl := LaneTyIsFloat ty
  match op with
  | .sum => if fl then sumF f (xs.map (decodeF f)) else xs.foldl (fun s x => (s + x) % 2 ^ w) 0
  | .max =>
    if fl then foldMinMaxF f true xs
    else xs.foldl (fun m x => if laneInt u w m ≤ laneInt u w x then x else m) (if u then 0 else 2 ^ (w - 1))
  | .min =>
    if fl then foldMinMaxF f false xs
    else xs.foldl (fun m x => if laneInt u w m ≤ laneInt u w x then m else x)
      (if u then 2 ^ w - 1 else 2 ^ (w - 1) - 1)

/-- VRED (R104). -/
def vredLanding (a : VArgs) (op : RedOp) (g : Nat) (pm : BitVec 256) (x : VReg) : Landing :=
  let w := laneBits a.ty
  let size := 8 * 2 ^ g
  landLanes a.vd.toNat w (laneCount a.ty / size) fun i =>
    let act := ((List.range size).map (fun t => size * i + t)).filter (laneActive pm w)
    some (redGroup op a.ty a.u (act.map (lane x.data w)), act.any (lanePois x w))

/-! ### Conversions (R88, R102, R138, R139) -/

/-- Element width of a VCVT type. -/
def cvtBits : CvtTy → Nat
  | .f32 => 32 | .i32 => 32 | .bf16 => 16 | .f16 => 16 | .i8 => 8 | .e4m3 => 8 | .e5m2 => 8 | .i4 => 4

/-- Float format of a VCVT float type. -/
def cvtFmt : CvtTy → Option FFmt
  | .f32 => some .fp32 | .bf16 => some .bf16 | .f16 => some .fp16 | .e4m3 => some .e4m3 | .e5m2 => some .e5m2
  | _ => none

/-- The largest H of a pair (R102, R139): parts of the narrower side. -/
def cvtParts (s d : CvtTy) : Nat :=
  let a := cvtBits s
  let b := cvtBits d
  if a ≥ b then a / b else b / a

/-- One converted element (R88). -/
def cvtElem (s d : CvtTy) (rd : Rounding) (satf : Bool) (x : Nat) : Nat :=
  match cvtFmt s, cvtFmt d with
  | some f, some g => encodeF g rd satf (decodeF f x)
  | some f, none => ofSigned (cvtBits d) (toIntF (cvtBits d) (decodeF f x))
  | none, some g => roundInt g false (signedOf (cvtBits s) x) 0
  | none, none => x

/-- VCVT (R102): `draw j` is the stochastic value of destination lane j. -/
def vcvtLanding (a : CvtArgs) (pm : BitVec 256) (x : VReg) (draw : Nat → Nat) : Landing :=
  let ws := cvtBits a.sty
  let wd := cvtBits a.dty
  let h := a.h.toNat
  let ns := 8192 / ws
  let nd := 8192 / wd
  landLanes a.vd.toNat wd nd fun j =>
    let src : Option Nat :=
      if wd < ws then (if ns * h ≤ j ∧ j < ns * h + ns then some (j - ns * h) else none)
      else if wd > ws then some (nd * h + j)
      else some j
    match src with
    | none => none
    | some i =>
      if laneActive pm wd j then
        let rd := if a.stochastic then Rounding.stochastic (draw j) else .nearest
        some (cvtElem a.sty a.dty rd a.satf (lane x.data ws i), lanePois x ws i)
      else none

/-! ### MX quantisation (R89, R103) -/

/-- Element format of VQMX. -/
def mxFmt : MxFmt → FFmt
  | .e4m3 => .e4m3 | .e5m2 => .e5m2 | .e3m2 => .e3m2 | .e2m3 => .e2m3 | .e2m1 => .e2m1

/-- emax of R89. -/
def mxEmax : MxFmt → Int
  | .e4m3 => 8 | .e5m2 => 15 | .e3m2 => 4 | .e2m3 => 2 | .e2m1 => 2

/-- Row length RL (R103, R140). -/
def mxRowLen (ef : MxFmt) (long : Bool) : Nat :=
  let base := if ef = .e2m1 then 128 else 64
  if long then 2 * base else base

/-- Row stride S for a row of so many bits (R95). -/
def rowStride (rowBits : Nat) : Nat := if rowBits ≤ 512 then 64 else 128

/-- Magnitude key of a finite value for comparing with powers of two: `floor(log2 |v|)`. -/
def floorLog2 : FVal → Int
  | .fin _ m e => (log2 m : Nat) + e
  | _ => 0

/-- One block of 32 values: scale byte, elements, and how many saturated (R89). -/
def mxBlock (ef : MxFmt) (vs : List FVal) : Nat × List Nat × Nat :=
  let f := mxFmt ef
  if vs.any fun v => match v with | .fin _ _ _ => false | _ => true then (0xFF, vs.map fun _ => 0, 0)
  else
    let nz := vs.filter fun v => !v.isZero
    let x : Int := match nz with
      | [] => -127
      | v :: rest => clampI (-127) 127 (rest.foldl (fun m w => max m (floorLog2 w)) (floorLog2 v) - mxEmax ef)
    let conv : FVal → Nat × Bool
      | .fin neg m e =>
        let (mx, ex) := f.maxFin
        (roundF f .nearest true neg m (e - x), m ≠ 0 && geScaled m (e - x) (2 * mx + 1) (ex - 1))
      | _ => (0, false)
    ((x + 127).toNat, vs.map fun v => (conv v).1, (vs.filter fun v => (conv v).2).length)

/-- The 256 lanes that VQMX quantises; masked lanes take part as +0 (R89). -/
def mxInputs (pm : BitVec 256) (x : VReg) (b : Nat) : List FVal :=
  (List.range 32).map fun t =>
    let i := 32 * b + t
    if bit pm.toNat i then decodeF .fp32 (lane x.data 32 i) else .fin false 0 0

/-- Whether block b has a poisoned active lane. -/
def mxPois (pm : BitVec 256) (x : VReg) (b : Nat) : Bool :=
  (List.range 32).any fun t => bit pm.toNat (32 * b + t) && lanePois x 32 (32 * b + t)

/-- Whether the start row of VQMX is legal (R103). -/
def mxRowOk (a : QmxArgs) : Bool :=
  let rl := mxRowLen a.ef a.rlLong
  let n := 256 / rl
  a.row.toNat % n == 0 && (a.row.toNat + n) * rowStride (rl * (mxFmt a.ef).width) ≤ 1024

/-- Result of VQMX: the vector landing and the scalar of scales; or of VQMXC: the saturation count (R103). -/
def mxResult (a : QmxArgs) (pm : BitVec 256) (x : VReg) : Landing × SReg × SReg :=
  let blocks := (List.range 8).map fun b => mxBlock a.ef (mxInputs pm x b)
  let pois := (List.range 8).map (mxPois pm x)
  let w := (mxFmt a.ef).width
  let rl := mxRowLen a.ef a.rlLong
  let stride := rowStride (rl * w)
  let r := (List.range 256).foldl (fun (acc : Nat × Nat × Nat) e =>
    let pos := (a.row.toNat + e / rl) * stride * 8 + (e % rl) * w
    let v := ((blocks.getD (e / 32) (0, [], 0)).2.1).getD (e % 32) 0
    let p := pois.getD (e / 32) false
    (acc.1 + ((2 ^ w - 1) <<< pos), acc.2.1 + ((v % 2 ^ w) <<< pos),
     if p then acc.2.2 ||| (1 <<< (pos / 32)) ||| (1 <<< ((pos + w - 1) / 32)) else acc.2.2)) (0, 0, 0)
  let scales := (List.range 8).foldl (fun s b => s + ((blocks.getD b (0, [], 0)).1 <<< (8 * b))) 0
  let count := blocks.foldl (fun s b => s + b.2.2) 0
  let anyP := pois.any id
  (.vreg a.vd.toNat (BitVec.ofNat 8192 r.1) (BitVec.ofNat 8192 r.2.1) (BitVec.ofNat 256 r.2.2),
   { val := BitVec.ofNat 64 scales, poison := anyP }, { val := BitVec.ofNat 64 count, poison := anyP })

/-! ### Gate unit (R107, R108, R163, R164) -/

/-- Insert an expert into a ranking: descending score, ascending index among equals (R163, R164). -/
def rankIns (score : Nat → Int) (e : Nat) : List Nat → List Nat
  | [] => [e]
  | j :: t => if score j < score e then e :: j :: t else j :: rankIns score e t

/-- The participating experts in rank order; equal ranks keep ascending index. -/
def gateRank (pm : BitVec 256) (x : VReg) : List Nat :=
  let score := fun i => scaled (decodeF .fp32 (lane x.data 32 i))
  (below 256 fun i => bit pm.toNat i && !(decodeF .fp32 (lane x.data 32 i)).isNan).foldl
    (fun r e => rankIns score e r) []

/-- GATE (R107). -/
def gateLanding (vd : Nat) (pm : BitVec 256) (x : VReg) (k : Nat) : Landing :=
  let top := (gateRank pm x).take k
  let p := (x.poison &&& pm) != 0
  landLanes vd 32 256 fun i =>
    let v :=
      if i < 8 then (match top[i]? with | some e => 2 ^ 31 + e | none => 0)
      else if i < 16 then (match top[i - 8]? with | some e => lane x.data 32 e | none => 0)
      else 0
    some (v, p)

/-- One entry of GPACK: the counters and the written lane (R108). -/
def gpackEntry (cap : Nat) (cnt : List (Nat × BitVec 16)) (x : Nat) :
    List (Nat × BitVec 16) × Nat × Bool × Bool :=
  if bit x 31 then
    let e := x % 256
    let c := (tget 0#16 cnt e).toNat
    if c < cap then (tset 0#16 cnt e (BitVec.ofNat 16 (c + 1)), 2 ^ 31 + e * 2 ^ 16 + c, true, false)
    else (cnt, 2 ^ 31 + 2 ^ 30 + e * 2 ^ 16 + 0xFFFF, false, true)
  else (cnt, 0, false, false)

/-- The 8 entries of GPACK in order: counters, lanes, entries placed, entries overflowed. -/
def gpackRun (cap : Nat) (x : VReg) : Nat → Nat → List (Nat × BitVec 16) → List (Nat × BitVec 16) × List Nat × Nat × Nat
  | 0, _, cnt => (cnt, [], 0, 0)
  | n + 1, j, cnt =>
    let (cnt1, l, placed, ovf) := gpackEntry cap cnt (lane x.data 32 j)
    let (cnt2, ls, p, o) := gpackRun cap x n (j + 1) cnt1
    (cnt2, l :: ls, b2n placed + p, b2n ovf + o)

/-- Lanes written by GPACK (R108). -/
def gpackLanding (vd : Nat) (x : VReg) (ls : List Nat) : Landing :=
  landLanes vd 32 256 fun i =>
    if i < 8 then some (ls.getD i 0, false)
    else if i < 16 then some (lane x.data 32 i, lanePois x 32 i)
    else some (0, false)

end Sys2Proof.Machine
end

