-- ==== Sys2Proof/Machine/Matrix.lean ====
section
/-!
DEFINITION. The matrix engine (02, 03, 06): latch images and metadata, operand rows, exact contributions, the
accumulator update and its readout.
-/
namespace Sys2Proof.Machine

/-- Bits of an element (R129, R70). -/
def elemBits : ElemFmt → Nat
  | .mx6e3m2 => 6 | .mx6e2m3 => 6 | .mx4 => 4 | .int4 => 4 | .bf16 => 16 | .fp16 => 16 | _ => 8

/-- Whether a format is MX (R72). -/
def isMx : ElemFmt → Bool
  | .mx8e4m3 => true | .mx8e5m2 => true | .mx6e3m2 => true | .mx6e2m3 => true | .mx4 => true | _ => false

/-- Effective K (R41). -/
def effK (f : ElemFmt) (sp : Sparsity) : Nat :=
  let k := match f with
    | .mx4 => 128 | .int4 => 128 | .bf16 => 16 | .fp16 => 16 | _ => 64
  if sp = .dense then k else 2 * k

/-- Bytes of the main array of an image (R41, R144). -/
def mainBytes : ElemFmt → Nat
  | .mx6e3m2 => 6144 | .mx6e2m3 => 6144 | .bf16 => 4096 | .fp16 => 4096 | _ => 8192

/-- Metadata bytes per column (R145). -/
def metaBytes (f : ElemFmt) : Sparsity → Nat
  | .dense => 0
  | .s24 => effK f .s24 / 8
  | .s48 => 24

/-- Bytes of the side array of an image (R41, R145). -/
def sideBytes (f : ElemFmt) (sp : Sparsity) : Nat :=
  128 * metaBytes f sp + (if isMx f then 128 * (effK f sp / 32) else 0)

/-- Bytes B of a latch image (R41). -/
def imageBytes (f : ElemFmt) (sp : Sparsity) : Nat := mainBytes f + sideBytes f sp

/-- Occupancy of an LDW in cycles (R41). -/
def ldwOccupancy (f : ElemFmt) (sp : Sparsity) : Nat := cdiv (imageBytes f sp) 2048

/-- The value of an element (R70, R71): floats, and two's-complement integers. -/
def elemVal (f : ElemFmt) (x : Nat) : FVal :=
  let int (n : Nat) : FVal := let v := signedOf n x; .fin (decide (v < 0)) v.natAbs 0
  match f with
  | .e4m3 => decodeF .e4m3 x
  | .mx8e4m3 => decodeF .e4m3 x
  | .e5m2 => decodeF .e5m2 x
  | .mx8e5m2 => decodeF .e5m2 x
  | .mx6e3m2 => decodeF .e3m2 x
  | .mx6e2m3 => decodeF .e2m3 x
  | .mx4 => decodeF .e2m1 x
  | .bf16 => decodeF .bf16 x
  | .fp16 => decodeF .fp16 x
  | .int8 => int 8
  | .int4 => int 4

/-! ### Metadata (R142, R143) -/

/-- The metadata group of a column: 4 bits for 2:4, 12 for 4:8. -/
def metaGroup (l : Latch) (f : ElemFmt) (sp : Sparsity) (c g : Nat) : Nat :=
  let base := c * metaBytes f sp * 8
  match sp with
  | .dense => 0
  | .s24 => field l.side.toNat (base + 4 * g) 4
  | .s48 => field l.side.toNat (base + 12 * g) 12

/-- Index i_t of a group (R143). -/
def metaIdx (sp : Sparsity) (v t : Nat) : Nat :=
  match sp with
  | .dense => 0
  | .s24 => field v (2 * t) 2
  | .s48 => field v (3 * t) 3

/-- Dense position of stored element t of column c (R142). -/
def densePos (l : Latch) (f : ElemFmt) (sp : Sparsity) (c t : Nat) : Nat :=
  match sp with
  | .dense => t
  | .s24 => 4 * (t / 2) + metaIdx sp (metaGroup l f sp c (t / 2)) (t % 2)
  | .s48 => 8 * (t / 4) + metaIdx sp (metaGroup l f sp c (t / 4)) (t % 4)

/-- Whether a group value is legal (R143). -/
def metaLegalGroup (sp : Sparsity) (v : Nat) : Bool :=
  match sp with
  | .dense => true
  | .s24 => metaIdx sp v 0 < metaIdx sp v 1
  | .s48 => metaIdx sp v 0 < metaIdx sp v 1 && metaIdx sp v 1 < metaIdx sp v 2 && metaIdx sp v 2 < metaIdx sp v 3

/-- Whether byte b of the side array is poisoned. -/
def sideBytePois (l : Latch) (b : Nat) : Bool := bit l.sidePoison.toNat (b / 8)

/-- Whether any metadata byte of column c is poisoned (R148). -/
def metaPois (l : Latch) (f : ElemFmt) (sp : Sparsity) (c : Nat) : Bool :=
  (List.range (metaBytes f sp)).any fun i => sideBytePois l (c * metaBytes f sp + i)

/-- Bytes of one metadata group, for the poison exemption of R146. -/
def groupBytes (f : ElemFmt) (sp : Sparsity) (c g : Nat) : List Nat :=
  let base := c * metaBytes f sp
  match sp with
  | .dense => []
  | .s24 => [base + g / 2]
  | .s48 => [base + 12 * g / 8, base + (12 * g + 11) / 8]

/-- Whether every checked metadata group of the image is legal (R146). -/
def metaAllLegal (l : Latch) (f : ElemFmt) (sp : Sparsity) : Bool :=
  let groups := match sp with
    | .dense => 0
    | .s24 => effK f sp / 4
    | .s48 => effK f sp / 8
  (List.range 128).all fun c => (List.range groups).all fun g =>
    (groupBytes f sp c g).any (sideBytePois l) || metaLegalGroup sp (metaGroup l f sp c g)

/-! ### Operands of a pass -/

/-- Stored element t of column c, with its poison (R144). -/
def weightElem (l : Latch) (f : ElemFmt) (c t : Nat) : Nat × Bool :=
  let b := elemBits f
  let pos := c * (mainBytes f / 128) * 8 + t * b
  (field l.main.toNat pos b, bit l.mainPoison.toNat (pos / 64) || bit l.mainPoison.toNat ((pos + b - 1) / 64))

/-- Weight scale of block j of column c (R145); 127 for a format without scales. -/
def weightScale (l : Latch) (f : ElemFmt) (sp : Sparsity) (c j : Nat) : Nat × Bool :=
  if isMx f then
    let b := 128 * metaBytes f sp + c * (effK f sp / 32) + j
    (field l.side.toNat (8 * b) 8, sideBytePois l b)
  else (127, false)

/-- Bits of an activation row (R95). -/
def rowBits (f : ElemFmt) (sp : Sparsity) : Nat := effK f sp * elemBits f

/-- Rows per register (R95). -/
def rowsPerReg (f : ElemFmt) (sp : Sparsity) : Nat := 1024 / rowStride (rowBits f sp)

/-- Activation element k of row r, with its poison (R95). -/
def actElem (x : VReg) (f : ElemFmt) (sp : Sparsity) (r k : Nat) : Nat × Bool :=
  let b := elemBits f
  let pos := r * rowStride (rowBits f sp) * 8 + k * b
  (field x.data.toNat pos b, bit x.poison.toNat (pos / 32) || bit x.poison.toNat ((pos + b - 1) / 32))

/-- Activation scale of block j of row r (R96). -/
def actScale (sx : SReg) (f : ElemFmt) (sp : Sparsity) (r j : Nat) : Nat × Bool :=
  if isMx f then
    let b := (r * (effK f sp / 32) + j) % 8
    (field sx.val.toNat (8 * b) 8, sx.poison)
  else (127, false)

/-- Flags of a contribution: bit 0 sticky, 1 sat, 2 nan, 3 pinf, 4 ninf, 5 poison. -/
abbrev CFlags := BitVec 6

/-- One product turned into a contribution (R75, R79, R80). -/
def contribution (a b : FVal) (xa xb : Nat) (anchor : Int) (pois : Bool) : Int × CFlags :=
  let pf : CFlags := if pois then 0b100000 else 0
  if xa = 0xFF ∨ xb = 0xFF then (0, 0b000100 ||| pf)
  else
    match mulV a b with
    | .nan => (0, 0b000100 ||| pf)
    | .inf neg => (0, (if neg then 0b010000 else 0b001000) ||| pf)
    | .fin neg m e0 =>
      if m = 0 then (0, pf)
      else
        let e := e0 + ((xa : Int) - 127) + ((xb : Int) - 127)
        let shift := e - anchor
        let q0 := if shift ≥ 0 then m * 2 ^ shift.toNat else roundShift .nearest m (-shift).toNat
        let sticky := shift < 0 && m % 2 ^ (-shift).toNat != 0
        let sat := q0 > 2 ^ 67 - 1
        let q := if sat then 2 ^ 67 - 1 else q0
        let v : Int := if neg then -(q : Int) else q
        (v, (if sticky then 1 else 0) ||| (if sat then 2 else 0) ||| pf)

/-- Products of column c in a pass (R97, R142, R149): the positions below the active K. With KQ = 0 there is none, and a column with
poisoned metadata gains no flag either: R81, R98 and R118 keep every flag, where R148 alone would set POISON (DEDUCED, log 98). -/
def colContribs (a : MmaArgs) (l : Latch) (x : VReg) (sx : SReg) (anchor : Int) (c : Nat) : List (Int × CFlags) :=
  let K := effK a.wf a.sp
  let active := K * a.kq.val / 4
  let stored := if a.sp = .dense then K else K / 2
  if active = 0 then []
  else if a.sp ≠ .dense && metaPois l a.wf a.sp c then [(0, 0b100000)]
  else
    (List.range stored).filterMap fun t =>
      let k := densePos l a.wf a.sp c t
      if k < active then
        let j := k / 32
        let (ae, ap) := actElem x a.af a.sp a.row.toNat k
        let (asc, asp) := actScale sx a.af a.sp a.row.toNat j
        let (we, wp) := weightElem l a.wf c t
        let (wsc, wsp) := weightScale l a.wf a.sp c j
        some (contribution (elemVal a.af ae) (elemVal a.wf we) asc wsc anchor (ap || asp || wp || wsp))
      else none

/-- The landing of an MMA or MMAS (R43, R97 to R99): contributions of the active columns, and the rise of COUNT. -/
def mmaLanding (a : MmaArgs) (l : Latch) (x : VReg) (sx : SReg) (pm : BitVec 256) (anchor : Int) : Landing :=
  let cols := below 128 fun c => bit pm.toNat c
  .acc a.set.toNat (cols.map fun c => (c, colContribs a l x sx anchor c))
    (if cols.isEmpty then 0 else effK a.wf a.sp * a.kq.val / 4)

/-- Activation elements presented and gated by a pass (R153, R161). -/
def gateCounts (a : MmaArgs) (x : VReg) (sx : SReg) (pm : BitVec 256) : Nat × Nat :=
  let active := effK a.wf a.sp * a.kq.val / 4
  if pm.toNat % 2 ^ 128 = 0 then (0, 0)
  else
    (active, ((List.range active).filter fun k =>
      (elemVal a.af (actElem x a.af a.sp a.row.toNat k).1).isZero &&
        (actScale sx a.af a.sp a.row.toNat (k / 32)).1 != 0xFF).length)

/-! ### The accumulator (R74 to R81) -/

/-- Add one contribution to a column; once LIMIT is set the sum is clamped (R76, R78, R79). -/
def addContrib (limit : Bool) (col : AccCol) (k : Int × CFlags) : AccCol :=
  let s := col.val.toInt + k.1
  let hi : Int := (2 ^ 87 : Nat) - 1
  let out := limit && (s > hi || s < -hi)
  let v := if limit then clampI (-hi) hi s else s
  let f := k.2.toNat
  { val := BitVec.ofInt 88 v
    sticky := col.sticky || bit f 0
    sat := col.sat || bit f 1 || out
    nan := col.nan || bit f 2
    pinf := col.pinf || bit f 3
    ninf := col.ninf || bit f 4
    poison := col.poison || bit f 5 }

/-- Place a keyed element in a list, before the first of a greater key. -/
def placeKey {α : Type} (e : Nat × α) : List (Nat × α) → List (Nat × α)
  | [] => [e]
  | f :: rest => if e.1 ≤ f.1 then e :: f :: rest else f :: placeKey e rest

/-- A list in the order of keys given by position. -/
def orderBy {α : Type} (key : Nat → Nat) (l : List α) : List α :=
  ((l.zipIdx.map fun e => (key e.2, e.1)).foldr placeKey []).map (·.2)

/-- An accumulator set after a pass completes (R44, R76, R78, R81). Once LIMIT is set the order of the additions counts, which is
left open: it is a free one. -/
def landAcc (s : AccSet) (cols : List (Nat × List (Int × CFlags))) (k : Nat) : AccSet :=
  let limit := s.limit || s.count + k > 2 ^ 20
  { s with
    count := min (s.count + k) 0x1FFFFF
    limit := limit
    cols := cols.foldl (fun t p => tmod {} t p.1 fun c =>
      (if limit then orderBy (Config.landOrder s.count) p.2 else p.2).foldl (addContrib limit) c) s.cols }

/-- A set cleared, its anchor kept (R45, R74). -/
def clearAcc (s : AccSet) : AccSet := { anchor := s.anchor }

/-- Float format of a readout. -/
def readFFmt : ReadFmt → FFmt
  | .fp32 => .fp32 | .bf16 => .bf16 | .fp16 => .fp16 | .e4m3 => .e4m3 | .e5m2 => .e5m2

/-- Readout of a column (R83 to R86). -/
def readCol (f : FFmt) (rd : Rounding) (satf : Bool) (anchor : Int) (c : AccCol) : Nat :=
  if c.nan || (c.pinf && c.ninf) then f.nanBits
  else if c.pinf then encodeF f rd satf (.inf false)
  else if c.ninf then encodeF f rd satf (.inf true)
  else
    let v := c.val.toInt
    if v = 0 then 0 else roundF f rd satf (decide (v < 0)) v.natAbs anchor

/-- Largest H of ACRD (R100). -/
def readParts : ReadFmt → Nat
  | .fp32 => 2 | .bf16 => 4 | .fp16 => 4 | .e4m3 => 8 | .e5m2 => 8

/-- The vector landing of ACRD (R100); `draw c` is the stochastic value of column c (R85). -/
def acrdLanding (a : AcrdArgs) (s : AccSet) (draw : Nat → Nat) : Landing :=
  let f := readFFmt a.rf
  let w := f.width
  let h := a.h.toNat
  landLanes a.vd.toNat w (8192 / w) fun i =>
    if 128 * h ≤ i ∧ i < 128 * h + 128 then
      let c := i - 128 * h
      let col := tget {} s.cols c
      let rd := if a.stochastic then Rounding.stochastic (draw c) else .nearest
      some (readCol f rd a.satf s.anchor.toInt col, col.poison)
    else none

/-- The flag predicate of ACRD (R100); a poisoned column poisons it as a whole (DEDUCED from R93, log 25). -/
def acrdFlags (s : AccSet) : PReg :=
  { val := BitVec.ofNat 256 (s.cols.foldl (fun v p =>
      v + ((b2n p.2.sticky + 2 * b2n p.2.sat) <<< (2 * p.1))) 0)
    poison := s.cols.any fun p => p.2.poison }

end Sys2Proof.Machine
end

