-- ==== Sys2Proof/Machine/Issue.lean ====
section
/-!
DEFINITION. Issue of tile operations (02, 04): the hazard watch, the operand cases of every operation in their order,
and the passing of cycles. A tile's issue is a function of the tile and of what it sees of the device.
-/
namespace Sys2Proof.Machine

/-- A fault a tile raises at issue: code, class of R519 (3 transit-fatal, 4 program-fatal), detail bytes as a number. -/
structure TFault where
  code : Nat
  cls : Nat
  detail : Nat := 0
  deriving DecidableEq, Repr

namespace TFault
def hazardRead : TFault := ⟨0x0101, 4, 0⟩
def hazardWrite : TFault := ⟨0x0102, 4, 0⟩
def slotWriteConflict : TFault := ⟨0x0103, 4, 0⟩
def bankConflict : TFault := ⟨0x0104, 4, 0⟩
def alignment : TFault := ⟨0x0105, 4, 0⟩
def overlayBusy : TFault := ⟨0x0106, 4, 0⟩
def bundleAddress : TFault := ⟨0x0107, 4, 0⟩
def queueUnderflow : TFault := ⟨0x0108, 4, 0⟩
def operandRange : TFault := ⟨0x0109, 4, 0⟩
def exchangeRange : TFault := ⟨0x010A, 4, 0⟩
def latchMismatch : TFault := ⟨0x010B, 4, 0⟩
def loopStructure : TFault := ⟨0x010C, 4, 0⟩
def mcastMaskZero : TFault := ⟨0x010D, 4, 0⟩
def poisonConsumed : TFault := ⟨0x010E, 3, 0⟩
def illegalEncoding : TFault := ⟨0x010F, 4, 0⟩
def overrun : TFault := ⟨0x0110, 3, 0⟩
def metadataInvalid : TFault := ⟨0x0111, 4, 0⟩
def queueOverflow : TFault := ⟨0x0112, 4, 0⟩
def queueTier : TFault := ⟨0x0113, 4, 0⟩
def missedFret (detail : Nat) : TFault := ⟨0x0114, 3, detail⟩
def earlyRead (detail : Nat) : TFault := ⟨0x0115, 3, detail⟩
def generationMismatch (detail : Nat) : TFault := ⟨0x0116, 3, detail⟩
def segmentViolation (detail : Nat) : TFault := ⟨0x0117, 4, detail⟩
def lateVector : TFault := ⟨0x0505, 3, 0⟩
end TFault

/-- What a tile sees of the device as it issues: transit number, logical tile, phase, active table version, own board
slot, segment table, mode, depth and outstanding count of a queue, whether an arrival for an inbox slot waits in the
inbound crossing, the meridian that began the transit in whole ns, and X_OUT. -/
structure TileCtx where
  ptile : Nat
  transit : Nat
  ltile : Nat
  phase : Nat
  version : Bool
  ownSlot : Nat
  segs : List Segment
  queue : Nat → Nat × Nat × Nat
  crossing : Nat → Bool
  meridianNs : Nat
  xOut : Nat

/-- Release point of a departure, whole ns of NGT (R270). -/
def TileCtx.releaseNs (c : TileCtx) (fret : Nat) : Nat := c.meridianNs + 4 * fret - c.xOut - 4

/-- Where issue goes after a bundle (R61, R114, R115). -/
inductive Ctl where
  | seq
  | taken (target : Nat)
  | loopSkip (last : Nat)
  deriving DecidableEq, Repr

/-- The result of issuing an operation: the tile, operations passed to the MQE, control, and whether a QWAIT stalls (R56). -/
structure Issued where
  tile : Tile
  ops : List MqeOp := []
  ctl : Ctl := .seq
  wait : Bool := false

/-- An issue ends in a fault or goes on. -/
abbrev IssueR := Except TFault Issued

/-! ### Registers and the hazard watch (R35, R36, R38, R59) -/

/-- The register a landing writes: kind and number; none for s0, p0 and what is not a register. -/
def target : Landing → Option (Nat × Nat)
  | .sreg n _ => if n = 0 then none else some (0, n)
  | .vreg n _ _ _ => some (1, n)
  | .preg n _ => if n = 0 then none else some (2, n)
  | .latch n _ => some (3, n)
  | .acc n _ _ => some (4, n)
  | .anchor n _ => some (4, n)
  | _ => none

/-- A write to the register issued in an earlier cycle is in flight. -/
def inFlightTo (t : Tile) (d : Nat × Nat) : Bool :=
  t.issue.inflight.any fun f => target f.what == some d && (f.issued < t.issue.cycle || d.1 == 3)

/-- Scalar register (s0 reads 0). -/
def rdS (t : Tile) (n : BitVec 5) : SReg := if n = 0 then {} else tget {} t.sregs n.toNat
/-- Vector register. -/
def rdV (t : Tile) (n : BitVec 6) : VReg := tget {} t.vregs n.toNat
/-- Predicate register (p0 reads all ones). -/
def rdP (t : Tile) (n : BitVec 4) : PReg := if n = 0 then { val := BitVec.allOnes 256 } else tget {} t.pregs n.toNat
/-- Weight latch. -/
def rdW (t : Tile) (n : BitVec 1) : Latch := tget {} t.latches n.toNat
/-- Accumulator set. -/
def rdA (t : Tile) (n : BitVec 3) : AccSet := tget {} t.accs n.toNat
/-- Queue tag. -/
def rdTag (t : Tile) (n : BitVec 6) : Tag := tget {} t.tags n.toNat

/-- Fail with `f` if `b`, else go on. -/
def check (b : Bool) (f : TFault) (k : IssueR) : IssueR := if b then .error f else k

/-- HAZARD_READ unless every listed register is readable now (R59). -/
def ready (t : Tile) (ss : List (BitVec 5)) (vs : List (BitVec 6)) (ps : List (BitVec 4)) (k : IssueR) : IssueR :=
  check (ss.any (fun n => inFlightTo t (0, n.toNat)) || vs.any (fun n => inFlightTo t (1, n.toNat)) ||
         ps.any (fun n => inFlightTo t (2, n.toNat))) .hazardRead k

/-- Record an operation of latency `lat` that will write `w` (R34); the write rules of R36 and R59. For two writes of one bundle
that complete in different cycles the spec gives no order of issue: they are taken in the order of the slots C, L, X, M, V0, V1, so
that a short write of a later slot under a long one of an earlier slot is HAZARD_WRITE and the reverse is permitted (DESIGN
CHOICE, log 11). -/
def launch (t : Tile) (lat : Nat) (w : Landing) : Except TFault Tile :=
  let done := t.issue.cycle + lat
  let same := t.issue.inflight.filter fun f => target w != none && target f.what == target w
  let isAcc := match w with | .acc _ _ _ => true | _ => false
  if !isAcc && same.any (fun f => f.done > done) then .error .hazardWrite
  else if !isAcc && same.any (fun f => f.done == done) then .error .slotWriteConflict
  else .ok { t with issue := { t.issue with
    inflight := t.issue.inflight ++ [{ issued := t.issue.cycle, done := done, what := w }] } }

/-- Issue an operation that only writes `w` after `lat` cycles. -/
def emit (t : Tile) (lat : Nat) (w : Landing) : IssueR :=
  match launch t lat w with
  | .ok t' => .ok { tile := t' }
  | .error f => .error f

/-- Two landings of one operation. -/
def emit2 (t : Tile) (lat : Nat) (w1 w2 : Landing) : IssueR :=
  match launch t lat w1 with
  | .error f => .error f
  | .ok t1 => emit t1 lat w2

/-! ### C slot (R113 to R117) -/

/-- Scalar result (R113). -/
def aluResult (op : AluOp) (a b : Word) : Word :=
  match op with
  | .add => a + b
  | .sub => a - b
  | .mul => a * b
  | .mulhs => BitVec.ofInt 64 (a.toInt * b.toInt / ((2 ^ 64 : Nat) : Int))
  | .mulhu => BitVec.ofNat 64 (a.toNat * b.toNat / 2 ^ 64)
  | .and => a &&& b
  | .or => a ||| b
  | .xor => a ^^^ b
  | .shl => a <<< (b.toNat % 64)
  | .shr => a >>> (b.toNat % 64)
  | .sra => a.sshiftRight (b.toNat % 64)
  | .min => if a.toInt ≤ b.toInt then a else b
  | .max => if a.toInt ≤ b.toInt then b else a
  | .minu => if a.toNat ≤ b.toNat then a else b
  | .maxu => if a.toNat ≤ b.toNat then b else a
  | .seq => if a = b then 1 else 0
  | .slt => if a.toInt < b.toInt then 1 else 0
  | .sltu => if a.toNat < b.toNat then 1 else 0

/-- Registers a second operand reads. -/
def Src2regs : Src2 → List (BitVec 5)
  | .reg n => [n]
  | .imm _ => []

/-- Value of a second operand: a register, or the sign-extended immediate (R127). -/
def src2Val (t : Tile) : Src2 → SReg
  | .reg n => rdS t n
  | .imm v => { val := v.signExtend 64 }

/-- Two-operand scalar operation (R113). -/
def issueAlu (t : Tile) (op : AluOp) (sd sa : BitVec 5) (b : Src2) : IssueR :=
  ready t (sa :: Src2regs b) [] [] <|
    let x := rdS t sa
    let y := src2Val t b
    emit t 1 (.sreg sd.toNat { val := aluResult op x.val y.val, poison := x.poison || y.poison })

/-- Whether an address lies in the body of every active loop. -/
def inBodies (ls : List LoopFrame) (a : Nat) : Bool := ls.all fun l => l.start ≤ a && a ≤ l.last

/-- Case 3 of R114 for a branch at `pc`, and where it goes. -/
def branchTo (t : Tile) (taken : Bool) (tgt : Nat) : IssueR :=
  check ((t.issue.loops.any fun l => l.last == t.issue.pc) || (taken && !inBodies t.issue.loops tgt)) .loopStructure <|
    .ok { tile := t, ctl := if taken then .taken tgt else .seq }

/-- BZ and BNZ. -/
def issueCondBr (t : Tile) (zero : Bool) (ss : BitVec 5) (tgt : BitVec 13) : IssueR :=
  ready t [ss] [] [] <| check (rdS t ss).poison .poisonConsumed <|
    branchTo t (((rdS t ss).val == 0) == zero) tgt.toNat

/-- LOOP (R115). -/
def issueLoop (t : Tile) (count : LoopCount) (endAddr : BitVec 13) : IssueR :=
  let regs := match count with | .reg n => [n] | .imm _ => []
  ready t regs [] [] <|
    let (n, p) := match count with
      | .imm c => (c.toNat, false)
      | .reg r => ((rdS t r).val.toNat % 2 ^ 32, (rdS t r).poison)
    let e := endAddr.toNat
    let outer := match t.issue.loops with | [] => 0x1FFF | l :: _ => l.last
    check p .poisonConsumed <|
    check (t.issue.loops.length ≥ 4 || e ≤ t.issue.pc || e > outer) .loopStructure <|
    if n = 0 then .ok { tile := t, ctl := .loopSkip e }
    else .ok { tile := { t with issue := { t.issue with
      loops := { start := t.issue.pc + 1, last := e, left := n - 1 } :: t.issue.loops } } }

/-- TEND (R63, R117): the block ends once everything issued has completed; active loops end. -/
def issueTend (t : Tile) : IssueR :=
  .ok { tile := { t with issue := { t.issue with ended := .tend, tendCycle := t.issue.cycle + 1, loops := [] } } }

/-! ### L slot (R109) -/

/-- Bytes of an access size. -/
def sizeBytes : MemSize → Nat
  | .b1 => 1 | .b2 => 2 | .b4 => 4 | .b8 => 8

/-- Whether a tile-store word holding byte `a` is poisoned. -/
def storePois (t : Tile) (a : Nat) : Bool := shas t.storePoison (a / 8)

/-- Bytes of the tile store as a number. -/
def storeNat (t : Tile) (a n : Nat) : Nat := Mem.rdNat t.store a n

/-- Poison bits of `n` units of `u` bytes from address `a`: a unit is poisoned if any of its words is. -/
def storePoisBits (t : Tile) (a u n : Nat) : Nat :=
  (List.range n).foldl (fun v i =>
    if (List.range (cdiv u 8)).any (fun j => storePois t (a + u * i + 8 * j)) then v + 2 ^ i else v) 0

/-- Store bytes; a word written whole with clean data loses its poison, a word written in part keeps it, a word written
with a poisoned value gains it (R51, R93). `pw` says which words (index from address / 8) carry poison. -/
def storeBytes (t : Tile) (a : Nat) (bs : List Byte) (pw : Nat → Bool) : Tile :=
  let first := a / 8
  let n := cdiv (a % 8 + bs.length) 8
  let p := (List.range n).foldl (fun s i =>
    let w := first + i
    if pw w then sins s w
    else if a ≤ 8 * w ∧ 8 * w + 8 ≤ a + bs.length then sdel s w else s) t.storePoison
  { t with store := Mem.wrBytes t.store a bs, storePoison := p }

/-- What a store of `n` bytes at `a` replaces (R64). -/
def storeUndo (t : Tile) (a n : Nat) : Landing :=
  .store a (Mem.rdBytes t.store a n) (t.storePoison.filter fun w => a / 8 ≤ w && 8 * w < a + n)

/-- Cases 1 to 5 of R109 for an access of `n` bytes aligned to `al`, then go on with the address. -/
def tileAddr (t : Tile) (ss : BitVec 5) (vs : List (BitVec 6)) (sa : List (BitVec 5)) (imm : Word) (n al : Nat)
    (k : Nat → IssueR) : IssueR :=
  ready t (ss :: sa) vs [] <|
    let r := rdS t ss
    let a := (r.val + imm).toNat
    check r.poison .poisonConsumed <|
    check (a + n > 2 ^ 21) .operandRange <|
    check (a % al ≠ 0) .alignment <|
    check (t.issue.cycle < t.issue.ldwUntil) .bankConflict <| k a

/-- LD.V. -/
def issueLdv (t : Tile) (vd : BitVec 6) (ss : BitVec 5) (imm : BitVec 24) : IssueR :=
  tileAddr t ss [] [] (imm.signExtend 64) 1024 128 fun a =>
    emit t 3 (.vreg vd.toNat (BitVec.allOnes 8192) (BitVec.ofNat 8192 (storeNat t a 1024))
      (BitVec.ofNat 256 (storePoisBits t a 4 256)))

/-- LD.S. -/
def issueLds (t : Tile) (sd ss : BitVec 5) (size : MemSize) (signed : Bool) (imm : BitVec 22) : IssueR :=
  let n := sizeBytes size
  tileAddr t ss [] [] (imm.signExtend 64) n n fun a =>
    let v := storeNat t a n
    emit t 3 (.sreg sd.toNat { val := if signed then BitVec.ofInt 64 (signedOf (8 * n) v) else BitVec.ofNat 64 v,
                               poison := storePois t a })

/-- ST.V. -/
def issueStv (t : Tile) (vs : BitVec 6) (ss : BitVec 5) (imm : BitVec 24) : IssueR :=
  tileAddr t ss [vs] [] (imm.signExtend 64) 1024 128 fun a =>
    let r := rdV t vs
    let pw := fun w => field r.poison.toNat (2 * (w - a / 8)) 2 != 0
    emit (storeBytes t a (leBytes 1024 r.data.toNat) pw) 3 (storeUndo t a 1024)

/-- ST.S. -/
def issueSts (t : Tile) (sa ss : BitVec 5) (size : MemSize) (imm : BitVec 22) : IssueR :=
  let n := sizeBytes size
  tileAddr t ss [] [sa] (imm.signExtend 64) n n fun a =>
    let r := rdS t sa
    emit (storeBytes t a (leBytes n r.val.toNat) (fun _ => r.poison)) 3 (storeUndo t a n)

/-- LDW (R41, R98): occupies the store, and lands the image with its tag; the metadata record of R146 is made as it
completes. -/
def issueLdw (t : Tile) (w : BitVec 1) (sp : Sparsity) (wf : ElemFmt) (ss : BitVec 5) (imm : BitVec 23) : IssueR :=
  tileAddr t ss [] [] (imm.signExtend 64) (imageBytes wf sp) 128 fun a =>
    let m := mainBytes wf
    let s := sideBytes wf sp
    let occ := ldwOccupancy wf sp
    let l : Latch := { main := BitVec.ofNat 65536 (storeNat t a m), side := BitVec.ofNat 40960 (storeNat t (a + m) s),
                       mainPoison := BitVec.ofNat 1024 (storePoisBits t a 8 (m / 8)),
                       sidePoison := BitVec.ofNat 640 (storePoisBits t (a + m) 8 (s / 8)), tag := some (wf, sp) }
    emit { t with issue := { t.issue with ldwUntil := t.issue.cycle + occ }, ldwBusy := t.ldwBusy + occ } (occ + 1)
      (.latch w.toNat { l with metaLegal := metaAllLegal l wf sp })

/-! ### Outbox and inbox (R110, R272, R273) -/

/-- The departure table of a version. -/
def outTable (t : Tile) (v : Bool) : OutTable := if v then t.tables.out1 else t.tables.out0

/-- Departures of a slot in a phase, in order (R284). -/
def slotDeps (t : Tile) (v : Bool) (phase slot : Nat) : List Departure :=
  (outTable t v).deps.filter fun d => d.slot == slot && (d.phase == phase || d.phase == 0xFFFF)

/-- The slot once a departure has left: the next enters void and empty if conditional (R169). -/
def reenter (o : OutSlot) (cond : Bool) : OutSlot :=
  { o with payload := if cond then 0 else o.payload, poison := if cond then 0 else o.poison, void := cond, written := false,
           released := o.released + 1 }

/-- Whether a slot's first departure from `phase` on, over a block cycle, is conditional; one with no departure counts as such. -/
def firstConditional (t : Tile) (v : Bool) (phase cycle slot : Nat) : Bool :=
  match (List.range cycle).findSome? fun k => (slotDeps t v ((phase + k) % cycle) slot).head? with
  | some d => d.cond
  | none => true

/-- The outbox at arm (R169): every slot enters its first departure, that of `phase` or later. -/
def armOutbox (t : Tile) (v : Bool) (phase cycle : Nat) : Tile :=
  { t with outbox := (List.range 32).foldl (fun l k =>
      tset {} l k { reenter (tget {} l k) (firstConditional t v phase cycle k) with released := 0 }) t.outbox }

/-- The header template of a departure. -/
def depTemplate (t : Tile) (v : Bool) (d : Departure) : Nat := (((outTable t v).templates)[d.template]?.getD 0#512).toNat

/-- Payload flits of a header (R304). -/
def hdrLen (h : Nat) : Nat := field h 8 5
/-- Multicast kind of a header. -/
def hdrMulticast (h : Nat) : Bool := field h 2 2 == 1
/-- Multicast mask of a header. -/
def hdrMask (h : Nat) : Nat := field h (8 * 34) 64

/-- Detail of MISSED_FRET (R275). -/
def missedDetail (slot idx fret releaseNs : Nat) : Nat :=
  slot + idx * 2 ^ 16 + fret * 2 ^ 32 + (releaseNs % 2 ^ 64) * 2 ^ 64

/-- SEND (R54, R110, R116, R272). -/
def issueSend (c : TileCtx) (t : Tile) (vs : BitVec 6) (ob fo : BitVec 5) (nm1 : BitVec 4) : IssueR :=
  ready t [] [vs] [] <|
    let n := nm1.toNat + 1
    let s := tget {} t.outbox ob.toNat
    let deps := slotDeps t c.version c.phase ob.toNat
    let cur := deps[s.released]?.getD (deps.getLastD ⟨0, 0, 0, false, 0⟩)
    let h := depTemplate t c.version cur
    check (deps.isEmpty || fo.toNat + n > hdrLen h) .exchangeRange <|
    check (hdrMulticast h && hdrMask h == 0) .mcastMaskZero <|
    if !t.issue.tp then
      .ok { tile := { t with outbox := tset {} t.outbox ob.toNat { s with void := true } } }
    else
      check (s.released ≥ deps.length) (.missedFret (missedDetail ob.toNat (deps.length - 1) cur.fret (c.releaseNs cur.fret))) <|
        let r := rdV t vs
        let t1 := { t with outbox := tset {} t.outbox ob.toNat { s with void := false, written := true, sender := t.issue.pc } }
        emit t1 2 (.outbox ob.toNat fo.toNat n (BitVec.ofNat 12800 (field r.data.toNat 0 (512 * n)))
          (BitVec.ofNat 400 (field r.poison.toNat 0 (16 * n))))

/-- NGT instant in 2^-16 ns at which the current cycle begins. -/
def cycleInstant (t : Tile) : Nat := t.issue.start >>> 32

/-- RECV (R55, R110, R273, R322). -/
def issueRecv (c : TileCtx) (t : Tile) (vd : BitVec 6) (ib : BitVec 6) (fo : BitVec 5) (nm1 : BitVec 4) : IssueR :=
  let n := nm1.toNat + 1
  let s := tget {} t.inbox ib.toNat
  let lag := t.tables.lag.getD ib.toNat 0
  let expect := (c.transit + 2 ^ 16 - lag) % 2 ^ 16
  let early (ready : Nat) : TFault := .earlyRead (ib.toNat + lag * 2 ^ 8 + (ready >>> 16) * 2 ^ 64 + (ready % 2 ^ 16) * 2 ^ 128)
  check (fo.toNat + n > 25) .exchangeRange <|
  check s.replayPending .lateVector <|
  check (c.crossing ib.toNat) (.earlyRead (ib.toNat + lag * 2 ^ 8 + (2 ^ 64 - 1) * 2 ^ 64)) <|
  check (s.gen != some expect) (.generationMismatch (ib.toNat + lag * 2 ^ 8 + (s.gen.getD 0) * 2 ^ 16 +
    expect * 2 ^ 32 + b2n s.gen.isNone * 2 ^ 48)) <|
  check (cycleInstant t < s.ready) (early s.ready) <|
    let w := 512 * n
    let data := if s.void then 0 else field (field s.payload.toNat 0 (512 * s.len)) (512 * fo.toNat) w
    let pois := if s.void then 0 else field (field s.poison.toNat 0 (16 * s.len)) (16 * fo.toNat) (16 * n)
    emit t 3 (.vreg vd.toNat (BitVec.ofNat 8192 (2 ^ w - 1)) (BitVec.ofNat 8192 data) (BitVec.ofNat 256 pois))

/-! ### Memory queues (R111, R112, R288, R195, R552) -/

/-- Whether an access of `len` bytes (0: one byte) at `a` passes the segment tests of R288. -/
def segOk (segs : List Segment) (code write : Bool) (a len : Nat) : Bool :=
  let n := if len = 0 then 1 else len
  segs.any fun s => s.base ≤ a && a + n ≤ s.base + s.size && (s.kind == 4) == code &&
    bit s.access (if write then 1 else 0)

/-- Detail of SEGMENT_VIOLATION (R275). -/
def segDetail (a len tag access : Nat) : Nat :=
  a % 2 ^ 48 + (len % 2 ^ 32) * 2 ^ 64 + tag * 2 ^ 96 + access * 2 ^ 104

/-- The checks of R552 from the range on, and the issue: a length of 0 completes the tag at once (R111). -/
def issueQueue (c : TileCtx) (t : Tile) (tag : BitVec 6) (kind : QKind) (range misaligned : Bool) (a len access : Nat) :
    IssueR :=
  let q := t.tables.queueOf.getD tag.toNat 0xFF
  let (mode, depth, outst) := if q = 0xFF then (0, 0, 0) else c.queue q
  let isLoadV := match kind with | .ldqv _ => true | _ => false
  let doneTag : Tag := if isLoadV then { st := .data } else
    { st := match kind with | .stqv _ _ _ => .done | .stqt _ => .done | .ldqt _ => .done | _ => .free }
  check range .operandRange <|
  check misaligned .alignment <|
  check (!segOk c.segs (access == 2) (access == 1) a len) (.segmentViolation (segDetail a len tag.toNat access)) <|
  check (mode == 0 || outst ≥ depth) .queueOverflow <|
  check (mode == 1 && a / 2 ^ 40 ≠ c.ownSlot) .queueTier <|
    .ok { tile := { t with tags := tset {} t.tags tag.toNat (if len = 0 then doneTag else { st := .outstanding }) },
          ops := [{ tile := c.ptile, tag := tag.toNat, queue := q, kind := kind, addr := a, len := len,
                    issued := t.issue.start, bundle := t.issue.pc,
                    ldw := t.ldwBusy - (t.issue.ldwUntil - t.issue.cycle) }] }

/-- Checks 1 to 3 of R552. -/
def queueHead (t : Tile) (tag : BitVec 6) (ss : List (BitVec 5)) (vs : List (BitVec 6)) (k : IssueR) : IssueR :=
  ready t ss vs [] <|
  check ((rdTag t tag).st == .outstanding || (rdTag t tag).st == .data) .hazardWrite <|
  check (ss.any fun n => (rdS t n).poison) .poisonConsumed k

/-- LDQ.V. -/
def issueLdqv (c : TileCtx) (t : Tile) (tag : BitVec 6) (ss n : BitVec 5) (imm : BitVec 19) : IssueR :=
  queueHead t tag [ss] [] <|
    let a := ((rdS t ss).val + imm.signExtend 64).toNat
    issueQueue c t tag (.ldqv n.toNat) (n.toNat > 16) (a % 64 ≠ 0) a (64 * n.toNat) 0

/-- LDQ.T and STQ.T. -/
def issueQt (c : TileCtx) (t : Tile) (store : Bool) (tag : BitVec 6) (st sm sl : BitVec 5) : IssueR :=
  queueHead t tag [st, sm, sl] [] <|
    let ta := (rdS t st).val.toNat
    let a := (rdS t sm).val.toNat
    let len := (rdS t sl).val.toNat
    issueQueue c t tag (if store then .stqt ta else .ldqt ta) (len % 128 ≠ 0 || ta + len > 2 ^ 21)
      (a % 64 ≠ 0 || ta % 128 ≠ 0) a len (if store then 1 else 0)

/-- LDQ.I: the offset counts from the base of the CODE segment (R288). -/
def issueLdqi (c : TileCtx) (t : Tile) (tag : BitVec 6) (first : BitVec 4) (cnt so : BitVec 5) : IssueR :=
  queueHead t tag [so] [] <|
    let base := match c.segs.find? (fun s => s.kind == 4) with | some s => s.base | none => 0
    let off := (rdS t so).val.toNat
    issueQueue c t tag (.ldqi first.toNat cnt.toNat) (first.toNat + cnt.toNat > 16) (off % 64 ≠ 0) (base + off)
      (16384 * cnt.toNat) 2

/-- STQ.V: flits captured at issue. -/
def issueStqv (c : TileCtx) (t : Tile) (tag vs : BitVec 6) (ss n : BitVec 5) (imm : BitVec 13) : IssueR :=
  queueHead t tag [ss] [vs] <|
    let a := ((rdS t ss).val + imm.signExtend 64).toNat
    let r := rdV t vs
    issueQueue c t tag (.stqv n.toNat r.data r.poison) (n.toNat > 16) (a % 64 ≠ 0) a (64 * n.toNat) 1

/-- The mask of tags that are OUTSTANDING among those of a mask (R56, R111). -/
def outstandingOf (t : Tile) (m : BitVec 64) : BitVec 64 :=
  BitVec.ofNat 64 (t.tags.foldl (fun v p => if p.2.st == .outstanding && bit m.toNat p.1 then v + 2 ^ p.1 else v) 0)

/-- QWAIT (R56): it stalls if a named tag is outstanding. -/
def issueQwait (t : Tile) (w : WaitSet) : IssueR :=
  let regs := match w with | .mask ss => [ss] | .tag _ => []
  ready t regs [] [] <|
    let (m, p) := match w with
      | .mask ss => ((rdS t ss).val, (rdS t ss).poison)
      | .tag q => (BitVec.ofNat 64 (2 ^ q.toNat), false)
    check p .poisonConsumed <|
      let out := outstandingOf t m
      .ok { tile := { t with issue := { t.issue with wait := out } }, wait := out ≠ 0 }

/-- QPOP (the QPOP operand cases): data beyond the loaded flits is 0; a failed access poisons every lane. -/
def issueQpop (t : Tile) (vd tag : BitVec 6) : IssueR :=
  let q := rdTag t tag
  match q.st with
  | .outstanding => .error .hazardRead
  | .free => .error .queueUnderflow
  | .done => .error .queueUnderflow
  | .data =>
    emit { t with tags := tset {} t.tags tag.toNat {} } 3
      (.vreg vd.toNat (BitVec.allOnes 8192) q.data (if q.failed then BitVec.allOnes 256 else q.poison))

/-! ### M slot (R98 to R100, R146 to R149) -/

/-- Count a pass and its activation elements (R160, R161), saturating. -/
def countPass (t : Tile) (a : MmaArgs) (el : Nat × Nat) : Tile :=
  { t with fig := { t.fig with
      mma := t.fig.mma + b2n (a.sp == .dense), mmas := t.fig.mmas + b2n (a.sp != .dense),
      elements := t.fig.elements + el.1, gated := t.fig.gated + el.2 } }

/-- MMA and MMAS: the operand cases of R98 in order, the metadata check of R147 after case 2. -/
def issueMma (t : Tile) (a : MmaArgs) : IssueR :=
  let l := rdW t a.w
  check (inFlightTo t (3, a.w.toNat)) .hazardRead <|
  ready t (if isMx a.af then [a.sx] else []) [a.va] [a.pm] <|
  check (rdP t a.pm).poison .poisonConsumed <|
  check (l.tag != some (a.wf, a.sp)) .latchMismatch <|
  check (a.sp != .dense && !l.metaLegal) .metadataInvalid <|
  check (a.row.toNat ≥ rowsPerReg a.af a.sp) .operandRange <|
    let x := rdV t a.va
    let sx := rdS t a.sx
    let pm := (rdP t a.pm).val
    emit (countPass t a (gateCounts a x sx pm)) 12 (mmaLanding a l x sx pm (rdA t a.set).anchor.toInt)

/-- ACRD (R45, R85, R100). -/
def issueAcrd (c : TileCtx) (t : Tile) (a : AcrdArgs) : IssueR :=
  check (inFlightTo t (4, a.set.toNat)) .hazardRead <|
  ready t (if a.stochastic then [a.ss] else []) [] [] <|
  check (a.h.toNat ≥ readParts a.rf) .operandRange <|
    let s := rdA t a.set
    let seed := (rdS t a.ss).val.toNat
    let draw := fun col => stochasticR seed c.transit t.issue.ordAcrd (c.ltile * 128 ||| col)
    let land := acrdLanding a s draw
    let land := if a.stochastic && (rdS t a.ss).poison then
        (match land with | .vreg n m v p => .vreg n m v (p ||| (BitVec.ofNat 256 (below 256 (fun i => lane m 32 i != 0) |>.foldl (fun z i => z + 2 ^ i) 0))) | w => w)
      else land
    let t1 := { t with
      accs := if a.clr then tset {} t.accs a.set.toNat (clearAcc s) else t.accs
      issue := { t.issue with ordAcrd := (t.issue.ordAcrd + b2n a.stochastic) % 2 ^ 16 } }
    if a.pf = 0 then emit t1 6 land else emit2 t1 6 land (.preg a.pf.toNat (acrdFlags s))

/-- ACSET (R99): the set is cleared and takes its anchor as the operation completes. The spec places no case for a poisoned
anchor register among those of ACSET; POISON_CONSUMED is raised after the hazard case and before OPERAND_RANGE (DESIGN CHOICE, log
14). -/
def issueAcset (t : Tile) (set : BitVec 3) (anchor : AnchorSrc) : IssueR :=
  let regs := match anchor with | .reg n => [n] | .imm _ => []
  check (inFlightTo t (4, set.toNat)) .hazardRead <|
  ready t regs [] [] <|
    let (v, p) : Int × Bool := match anchor with
      | .imm x => (x.toInt, false)
      | .reg n => ((rdS t n).val.toInt, (rdS t n).poison)
    check p .poisonConsumed <|
    check (v < -512 || v > 511) .operandRange <|
      emit t 1 (.anchor set.toNat (BitVec.ofInt 10 v))

/-! ### V slots (R91 to R108) -/

/-- Ready sources and a clean predicate, then go on. -/
def vready (t : Tile) (ss : List (BitVec 5)) (vs : List (BitVec 6)) (pm : BitVec 4) (k : BitVec 256 → IssueR) : IssueR :=
  ready t ss vs [pm] <| check (rdP t pm).poison .poisonConsumed <| k (rdP t pm).val

/-- Latency of a one-source operation (R61). -/
def unLat : VUnOp → Nat
  | .vabs => 2 | .vneg => 2 | .vnot => 2 | .vmov => 2 | _ => 10

/-- VCVT (R102): the H range, the stochastic draw and its ordinal (R88). A poisoned pm raises POISON_CONSUMED before the H range
is checked; the spec gives no order of the two (DESIGN CHOICE, log 14). -/
def issueCvt (c : TileCtx) (t : Tile) (a : CvtArgs) : IssueR :=
  vready t (if a.stochastic then [a.ss] else []) [a.va] a.pm fun pm =>
    check (a.h.toNat ≥ cvtParts a.sty a.dty) .operandRange <|
      let seed := rdS t a.ss
      let x := rdV t a.va
      let x := if a.stochastic && seed.poison then { x with poison := BitVec.allOnes 256 } else x
      let draw := fun j => stochasticR seed.val.toNat c.transit t.issue.ordCvt (c.ltile * 2048 ||| j)
      emit { t with issue := { t.issue with ordCvt := (t.issue.ordCvt + b2n a.stochastic) % 2 ^ 16 } } 2
        (vcvtLanding a pm x draw)

/-- VQMX and VQMXC (R103). A poisoned pm raises POISON_CONSUMED before the start row is checked; the spec gives no order of the
two (DESIGN CHOICE, log 14). -/
def issueQmx (t : Tile) (a : QmxArgs) (count : Bool) : IssueR :=
  vready t [] [a.va] a.pm fun pm =>
    check (!mxRowOk a) .operandRange <|
      let (land, scales, n) := mxResult a pm (rdV t a.va)
      if count then emit t 2 (.sreg a.sd.toNat n) else emit2 t 2 land (.sreg a.sd.toNat scales)

/-- GATE (R107). -/
def issueGate (t : Tile) (pm : BitVec 4) (vd va : BitVec 6) (k : Fin 9) : IssueR :=
  vready t [] [va] pm fun p => emit t 16 (gateLanding vd.toNat p (rdV t va) k.val)

/-- GPACK (R108, R183). -/
def issueGpack (t : Tile) (vd va : BitVec 6) (ss : BitVec 5) : IssueR :=
  ready t [ss] [va] [] <|
    let x := rdV t va
    check ((rdS t ss).poison || field x.poison.toNat 0 8 ≠ 0) .poisonConsumed <|
      let (cnt, ls, placed, ovf) := gpackRun ((rdS t ss).val.toNat % 2 ^ 16) x 8 0 t.gateCnt
      emit { t with gateCnt := cnt, fig := { t.fig with placed := t.fig.placed + placed, overflow := t.fig.overflow + ovf } }
        4 (gpackLanding vd.toNat x ls)

/-! ### Every operation -/

/-- Whether an operation belongs to the M or V slots, which issue as no-ops while TP = 0 (R116). -/
def isMV : SlotOp → Bool
  | .mma _ | .mmas _ | .acrd _ | .acset _ _ | .vbin _ _ | .vun _ _ | .vfma _ | .vcmp .. | .vsel _ | .vbcast _ _
  | .vext .. | .vperm _ | .vred .. | .pbin .. | .pnot .. | .ppop .. | .vcvt _ | .vqmx _ | .vqmxc _ | .gate ..
  | .gpack .. => true
  | _ => false

/-- Whether a vector predicate operation poisons its result. -/
def predPair (t : Tile) (f : BitVec 256 → BitVec 256 → BitVec 256) (pa pb : BitVec 4) : PReg :=
  { val := f (rdP t pa).val (rdP t pb).val, poison := (rdP t pa).poison || (rdP t pb).poison }

/-- Issue one operation in the current cycle (04). -/
def issueOp (c : TileCtx) (t : Tile) (op : SlotOp) : IssueR :=
  if isMV op && !t.issue.tp then .ok { tile := { t with fig := { t.fig with noops := t.fig.noops + 1 } } } else
  match op with
  | .alu op sd sa b => issueAlu t op sd sa b
  | .movi sd imm => emit t 1 (.sreg sd.toNat { val := imm.signExtend 64 })
  | .movk sd h imm =>
    ready t [sd] [] [] <|
      let r := rdS t sd
      emit t 1 (.sreg sd.toNat { r with val := BitVec.ofNat 64 (putField r.val.toNat (16 * h.toNat) 16 imm.toNat) })
  | .rdt sd => emit t 1 (.sreg sd.toNat { val := BitVec.ofNat 64 c.transit })
  | .rdl sd => emit t 1 (.sreg sd.toNat { val := BitVec.ofNat 64 c.ltile })
  | .br tgt => branchTo t true tgt.toNat
  | .bz ss tgt => issueCondBr t true ss tgt
  | .bnz ss tgt => issueCondBr t false ss tgt
  | .bri ss =>
    ready t [ss] [] [] <| check (rdS t ss).poison .poisonConsumed <|
    check ((rdS t ss).val.toNat > 0x1FFF) .bundleAddress <| branchTo t true ((rdS t ss).val.toNat % 2 ^ 13)
  | .loop count e => issueLoop t count e
  | .pred ss =>
    ready t [ss] [] [] <| check (rdS t ss).poison .poisonConsumed <| emit t 1 (.tp ((rdS t ss).val != 0))
  | .tend => issueTend t
  | .ldv vd ss imm => issueLdv t vd ss imm
  | .lds sd ss size sg imm => issueLds t sd ss size sg imm
  | .stv vs ss imm => issueStv t vs ss imm
  | .sts sa ss size imm => issueSts t sa ss size imm
  | .ldw w sp wf ss imm => issueLdw t w sp wf ss imm
  | .send vs ob fo nm1 => issueSend c t vs ob fo nm1
  | .recv vd ib fo nm1 => issueRecv c t vd ib fo nm1
  | .ldqv tag ss n imm => issueLdqv c t tag ss n imm
  | .ldqt tag st sm sl => issueQt c t false tag st sm sl
  | .ldqi tag first cnt so => issueLdqi c t tag first cnt so
  | .stqv tag vs ss n imm => issueStqv c t tag vs ss n imm
  | .stqt tag st sm sl => issueQt c t true tag st sm sl
  | .qwait w => issueQwait t w
  | .qpop vd tag => issueQpop t vd tag
  | .mma a => issueMma t a
  | .mmas a => issueMma t a
  | .acrd a => issueAcrd c t a
  | .acset set anchor => issueAcset t set anchor
  | .vbin op a => vready t [] [a.va, a.vb] a.pm fun pm => emit t 2 (vbinLanding op a pm (rdV t a.va) (rdV t a.vb))
  | .vun op a => vready t [] [a.va] a.pm fun pm => emit t (unLat op) (vunLanding op a pm (rdV t a.va))
  | .vfma a => vready t [] [a.va, a.vb, a.vc] a.pm fun pm =>
      emit t 4 (vfmaLanding a pm (rdV t a.va) (rdV t a.vb) (rdV t a.vc))
  | .vcmp _ ty pm pd va vb c => vready t [] [va, vb] pm fun p =>
      emit t 2 (.preg pd.toNat (vcmpResult ty p (rdV t va) (rdV t vb) c))
  | .vsel a => vready t [] [a.va, a.vb] a.pm fun pm => emit t 2 (vselLanding a pm (rdV t a.va) (rdV t a.vb))
  | .vbcast a ss => vready t [ss] [] a.pm fun pm => emit t 2 (vbcastLanding a pm (rdS t ss))
  | .vext _ ty sd va ss => ready t [ss] [va] [] <| emit t 2 (.sreg sd.toNat (vextResult ty (rdV t va) (rdS t ss)))
  | .vperm a => vready t [] [a.va, a.vb] a.pm fun pm => emit t 4 (vpermLanding a pm (rdV t a.va) (rdV t a.vb))
  | .vred a op g => vready t [] [a.va] a.pm fun pm => emit t 4 (vredLanding a op g.toNat pm (rdV t a.va))
  | .pbin op _ pd pa pb => ready t [] [] [pa, pb] <| emit t 2 (.preg pd.toNat (predPair t
      (fun x y => match op with | .pand => x &&& y | .por => x ||| y | .pxor => x ^^^ y) pa pb))
  | .pnot _ pd pa => ready t [] [] [pa] <| emit t 2 (.preg pd.toNat { val := ~~~(rdP t pa).val, poison := (rdP t pa).poison })
  | .ppop _ sd pa => ready t [] [] [pa] <| emit t 2 (.sreg sd.toNat
      { val := BitVec.ofNat 64 (below 256 (bit (rdP t pa).val.toNat)).length, poison := (rdP t pa).poison })
  | .vcvt a => issueCvt c t a
  | .vqmx a => issueQmx t a false
  | .vqmxc a => issueQmx t a true
  | .gate pm vd va k => issueGate t pm vd va k
  | .gpack vd va ss => issueGpack t vd va ss

/-! ### Landing and the passing of cycles (R34, R61) -/

/-- A landing takes effect. -/
def land (t : Tile) : Landing → Tile
  | .sreg n v => if n = 0 then t else { t with sregs := tset {} t.sregs n v }
  | .vreg n mask val pois => { t with vregs := tmod {} t.vregs n fun r => mergeVReg r mask val pois }
  | .preg n v => if n = 0 then t else { t with pregs := tset {} t.pregs n v }
  | .latch n v => { t with latches := tset {} t.latches n v }
  | .acc n cols k => { t with accs := tmod {} t.accs n fun s => landAcc s cols k }
  | .outbox n fo flits payload poison => { t with outbox := tmod {} t.outbox n fun s =>
      { s with payload := BitVec.ofNat 12800 (putField s.payload.toNat (512 * fo) (512 * flits) payload.toNat)
               poison := BitVec.ofNat 400 (putField s.poison.toNat (16 * fo) (16 * flits) poison.toNat) } }
  | .tp v => { t with issue := { t.issue with tp := v } }
  | .anchor n a => { t with accs := tset {} t.accs n { anchor := a } }
  | .store _ _ _ => t
  | .nothing => t

/-- Everything due by the current cycle lands and leaves the hazard watch. -/
def landDue (t : Tile) : Tile :=
  let due := t.issue.inflight.filter fun f => f.done ≤ t.issue.cycle
  let rest := t.issue.inflight.filter fun f => f.done > t.issue.cycle
  due.foldl (fun s f => land s f.what) { t with issue := { t.issue with inflight := rest } }

/-- What the passing of cycles needs: the length of the cycle of a number that begins at an instant, and the meridian
that ends the block (R246 to R248, R64). -/
structure Beat where
  len : Nat → Nat → Nat
  stop : Nat

/-- Start of the cycle after the present one, in 2^-48 ns. -/
def Beat.next (b : Beat) (t : Tile) : Nat := t.issue.start + b.len (t.issue.cyc0 + t.issue.cycle) t.issue.start

/-- One cycle passes, unless it would begin at or after the meridian. Cycles with TP = 0 before TEND is reached are counted
(R185), and so are cycles stalled at QWAIT (R203). What completes after the meridian does not land: OVERRUN cancels it (R64). -/
def tick (b : Beat) (t : Tile) : Tile :=
  if b.stop ≤ t.issue.start then t else
  let t' : Tile := { t with
    issue := { t.issue with cycle := t.issue.cycle + 1, start := b.next t }
    fig := { t.fig with tpOff := t.fig.tpOff + b2n (!t.issue.tp && t.issue.reached.isNone),
                        stall := t.fig.stall + b2n (t.issue.status == .qwaitStall) } }
  if b.next t ≤ b.stop then landDue t' else t'

/-- `n` cycles pass. -/
def ticks (b : Beat) : Nat → Tile → Tile
  | 0, t => t
  | n + 1, t => ticks b n (tick b t)

/-- At most `fuel` cycles pass, until one begins at or after `instant`. -/
def ticksPast (b : Beat) (instant : Nat) : Nat → Tile → Tile
  | 0, t => t
  | n + 1, t => if instant ≤ t.issue.start then t else ticksPast b instant n (tick b t)

/-- What is in flight is cancelled: its destinations keep their previous values, a store's bytes come back (R64). -/
def cancelInFlight (t : Tile) : Tile :=
  t.issue.inflight.reverse.foldl (fun z f => match f.what with
    | .store a old poisoned =>
      { z with store := Mem.wrBytes z.store a old
               storePoison := sinsAll (z.storePoison.filter fun w => w < a / 8 || a + old.length ≤ 8 * w) poisoned }
    | _ => z) { t with issue := { t.issue with inflight := [] } }

/-- The bundle that follows the end of `a`: loops that end there, innermost first (R115). -/
def afterBundle (a : Nat) : List LoopFrame → Nat × List LoopFrame
  | [] => (a + 1, [])
  | l :: ls =>
    if l.last = a then
      if l.left > 0 then (l.start, { l with left := l.left - 1 } :: ls) else afterBundle a ls
    else (a + 1, l :: ls)

/-- Issue moves on after a bundle: the next address and the cycles until it may issue (R61). A QWAIT stall begins with the next
cycle; a branch taken beside it keeps its target and its pause (R33, R56). -/
def moveOn (b : Beat) (t : Tile) (ctl : Ctl) (wait : Bool) : Tile :=
  let go (pc : Nat) (ls : List LoopFrame) (pause : Nat) : Tile :=
    let t1 : Tile := { t with issue := { t.issue with last := t.issue.pc, pc := pc, loops := ls } }
    if wait then
      let t2 := tick b t1
      { t2 with issue := { t2.issue with status := .qwaitStall, hold := t.issue.cycle + pause } }
    else ticks b pause t1
  match ctl with
  | .taken tgt => go tgt t.issue.loops 3
  | .loopSkip e => let r := afterBundle e t.issue.loops; go r.1 r.2 1
  | .seq => let r := afterBundle t.issue.pc t.issue.loops; go r.1 r.2 1

/-- Outcome of issuing the operations of one bundle: the tile, MQE operations, control, a stall at QWAIT, and the faults by
slot. -/
structure BundleOut where
  tile : Tile
  ops : List MqeOp := []
  ctl : Ctl := .seq
  wait : Bool := false
  faults : List (Slot × TFault) := []

/-- Issue the operations of a bundle slot by slot; a faulting operation does not execute (R60). -/
def issueAll (c : TileCtx) (t : Tile) (ops : List (Slot × SlotOp)) : BundleOut :=
  ops.foldl (fun b p =>
    match issueOp c b.tile p.2 with
    | .ok r => { tile := r.tile, ops := b.ops ++ r.ops, ctl := if r.ctl = .seq then b.ctl else r.ctl, wait := b.wait || r.wait,
                 faults := b.faults }
    | .error f => { b with faults := b.faults ++ [(p.1, f)] }) { tile := t }

end Sys2Proof.Machine
end

