-- ==== Sys2Proof/Machine/Tiles.lean ====
section
/-!
DEFINITION. The tiles at work (02, 04, 05): issue of a bundle, what the tile does with the faults of a cycle, waiting at
QWAIT and at TEND, and completion of the operations in flight. The commands of the single operations issue, at the tile's
bundle address, a bundle that holds that operation alone.
-/
namespace Sys2Proof.Machine

/-! ## What a tile sees of the device -/

/-- Phase of a transit in the block cycle (R283). -/
def State.phaseOf (s : State) (t : Nat) : Nat := (t - s.prog.startAt) % (if s.prog.hdr.cycle = 0 then 1 else s.prog.hdr.cycle)

/-- What tile `p` sees as it issues. -/
def State.tileCtx (s : State) (p : Nat) : TileCtx :=
  let d := districtOf p
  let t := s.tile p
  { ptile := p, transit := t.issue.transit, ltile := s.ltileOf p, phase := s.phaseOf t.issue.transit, version := s.version,
    ownSlot := s.ownSlot, segs := s.prog.segs,
    queue := fun q => let c := s.qcfg d q; (c.1, c.2.1, ((s.mqe d).ops.filter (·.queue == q)).length),
    crossing := fun ib => (s.clk d).inFifo.any fun c => c.tile == p && c.slot == ib,
    meridianNs := t.issue.transit * s.period, xOut := s.fget (R.clkXcal d) F.clkXcal_X_OUT }

/-! ## Cycles (R246 to R248) -/

/-- The instant at which a tile's block must have ended (R18). -/
def State.deadline (s : State) (t : Tile) : Nat := ((t.issue.transit + 1) * s.period) <<< 48

/-- What the passing of a tile's cycles needs: the cycles of its district's clock, which all its tiles share, and the meridian that
ends the block. -/
def State.beat (s : State) (p : Nat) : Beat := { len := s.clkLen (districtOf p), stop := s.deadline (s.tile p) }

/-- Whether the tile may issue its next bundle: running, its block open, its cycle before the meridian, its district clock
running (R250, R257). -/
def State.mayIssue (s : State) (p : Nat) : Bool :=
  let t := s.tile p
  t.issue.status == .running && t.issue.ended == .open && t.issue.start < s.deadline t && s.clkOn (districtOf p)

/-! ## Faults of a cycle (R60, R274) -/

/-- Number of a slot in a fault record (R519). -/
def slotNo : Slot → Nat
  | .c => 0 | .l => 1 | .x => 2 | .m => 3 | .v0 => 4 | .v1 => 5 | .bundle => 6

/-- Everything in flight completes. -/
def landAll (t : Tile) : Tile :=
  let fuel := (t.issue.inflight.map (·.done)).foldl max t.issue.cycle
  landDue { t with issue := { t.issue with cycle := fuel } }

/-- TIL_FAULT_SUMMARY takes a recorded fault, and TIL_FAULT_EXTRA the others of its cycle (R60). -/
def State.summary (s : State) (p slot bundle transit : Nat) (f : TFault) (extra : Nat) : State :=
  let o := R.tilFaultSummary p
  let s1 := s.fset o F.tilFaultSummary_TRANSIT transit
  let s2 := s1.fset o F.tilFaultSummary_CLASS f.cls
  let s3 := s2.fset o F.tilFaultSummary_BUNDLE_ADDR bundle
  let s4 := s3.fset o F.tilFaultSummary_SLOT slot
  let s5 := s4.fset o F.tilFaultSummary_CODE f.code
  s5.fbump (R.tilFaultExtra p) F.tilFaultExtra_COUNT extra

/-- The faults of one cycle of tile `p`, the recorded one first: the record, the tile's own state by the most severe class,
and containment. `bundle` is the bundle address recorded. After a transit-fatal fault a stall at QWAIT is over, and what the tile
has outstanding completes (R274). -/
def State.tileFaults (s : State) (p bundle : Nat) (slot : Nat) (f : TFault) (others : List TFault) : State :=
  let worst := others.foldl (fun c g => max c g.cls) f.cls
  let t := s.tile p
  let t' := if worst ≥ 4 then landAll { t with issue := { t.issue with status := .faulted } }
    else { t with issue := { t.issue with
      status := if t.issue.status == .qwaitStall then .running else t.issue.status
      ended := .fatal, voidRest := true, loops := [], wait := 0 } }
  let s1 := (s.setTile p t').summary p slot bundle t.issue.transit f others.length
  (s1.recordIn t.issue.transit f.code f.cls (s1.tilePlace p slot bundle) f.detail).contain f.code worst t.issue.transit

/-! ## Issue of a bundle (R61, R124) -/

/-- Whether operation `e` comes before one of tile `p` issued at `t` (R194): by the instant of issue, then by physical slot. -/
def MqeOp.beforeOp (e : MqeOp) (t p : Nat) : Bool := e.issued < t || (e.issued == t && e.tile ≤ p)

/-- One operation goes to the MQE: one of length 0 completes at once and counts (R111); one on another board slot is carried
by the service plane (R189), one of the host tier by a DMA channel (R191). It takes its place in the order of issue (R194). -/
def State.queueOp (s : State) (d : Nat) (o : MqeOp) : State :=
  let m := s.mqe d
  if o.len = 0 then s.setMqe d { m with figs := tmod {} m.figs o.queue fun g => { g with ops := g.ops + 1 } }
  else
    let (ahead, behind) := m.ops.partition fun e => e.beforeOp o.issued o.tile
    let o' := { o with before := (ahead.filter (·.queue == o.queue)).map fun e => (e.addr, e.len) }
    let later := behind.map fun e => if e.queue == o.queue then { e with before := e.before ++ [(o.addr, o.len)] } else e
    let s1 := s.setMqe d { m with ops := ahead ++ o' :: later }
    match tierOf o.addr with
    | .board b => if b = s.ownSlot then s1 else s1.submitRemote d o'
    | .host w _ =>
      let x : Xfer := { toDevice := o.kind.loads, host := o.addr, dev := 0, len := o.len, copy := none, op := some (o.tile, o.tag) }
      { s1 with stw := { s1.stw with dma := tset [] s1.stw.dma (hostChan w) (tget [] s1.stw.dma (hostChan w) ++ [x]) } }
    | .none => s1

/-- Operations go to the MQE in order. -/
def State.queueOps (s : State) (d : Nat) (ops : List MqeOp) : State := ops.foldl (fun z o => z.queueOp d o) s

/-- The bytes of the tile's arrays an operation reads as it issues: array, first byte, number (R51). A store of a part of a word reads it. -/
def opReads (t : Tile) : SlotOp → Option (Nat × Nat × Nat)
  | .ldv _ ss imm => some (0, ((rdS t ss).val + imm.signExtend 64).toNat, 1024)
  | .lds _ ss size _ imm => some (0, ((rdS t ss).val + imm.signExtend 64).toNat, sizeBytes size)
  | .ldw _ sp wf ss imm => some (0, ((rdS t ss).val + imm.signExtend 64).toNat, imageBytes wf sp)
  | .sts _ ss size imm => if sizeBytes size = 8 then none else some (0, ((rdS t ss).val + imm.signExtend 64).toNat, sizeBytes size)
  | .recv _ ib fo nm1 => some (2, 1600 * ib.toNat + 64 * fo.toNat, 64 * (nm1.toNat + 1))
  | _ => none

/-- The bytes an operation writes whole as it issues. -/
def opWrites (t : Tile) : SlotOp → Option (Nat × Nat × Nat)
  | .stv _ ss imm => some (0, ((rdS t ss).val + imm.signExtend 64).toNat, 1024)
  | .sts _ ss size imm => if sizeBytes size = 8 then some (0, ((rdS t ss).val + imm.signExtend 64).toNat, 8) else none
  | .send _ ob fo nm1 => some (3, 1600 * ob.toNat + 64 * fo.toNat, 64 * (nm1.toNat + 1))
  | _ => none

/-- The operations of a bundle that issue find the errors of the words they read, and replace those they write (R51). -/
def State.bundleSram (s : State) (p : Nat) (ops : List (Slot × SlotOp)) : State :=
  if s.ras.latent.isEmpty then s else
  let t := s.tile p
  (ops.filter fun o => (issueOp (s.tileCtx p) t o.2).isOk).foldl (fun z o =>
    let z1 := match opReads t o.2 with | some (arr, lo, n) => z.sramRead arr p lo n | none => z
    match opWrites t o.2 with | some (arr, lo, n) => z1.sramWritten arr p lo n | none => z1) s

/-- The operations of one bundle issue in the tile's present cycle. -/
def State.issueBundle (s0 : State) (p : Nat) (ops : List (Slot × SlotOp)) (noops : Nat) : State :=
  let s := s0.bundleSram p ops
  let t := s.tile p
  let out := issueAll (s.tileCtx p) { t with fig := { t.fig with noops := t.fig.noops + noops } } ops
  let s2 := s.reach t.issue.start
  match out.faults with
  | [] => (s2.setTile p (moveOn (s.beat p) out.tile out.ctl out.wait)).queueOps (districtOf p) out.ops
  | (sl, f) :: fs =>
    ((s2.setTile p { out.tile with issue := { out.tile.issue with last := t.issue.pc } }).queueOps (districtOf p) out.ops).tileFaults p t.issue.pc (slotNo sl) f (fs.map Prod.snd)

/-- A fault of the bundle as a whole: nothing of it issues. -/
def State.bundleFault (s : State) (p bundle slot : Nat) (f : TFault) (extra : List TFault) : State :=
  (s.reach (s.tile p).issue.start).tileFaults p bundle slot f extra

/-- Whether an overlay load into the page of a bundle is outstanding (R52). -/
def State.overlayBusy (s : State) (p pc : Nat) : Bool :=
  (s.mqe (districtOf p)).ops.any fun o => o.tile == p && (match o.kind with
    | .ldqi first cnt => first ≤ pc / 512 && pc / 512 < first + cnt
    | _ => false)

/-- Checks of the bundle address before issue: R53, then R52. -/
def State.addressFault (s : State) (p : Nat) : Option (Nat × TFault) :=
  let t := s.tile p
  if t.issue.pc ≥ 0x2000 then some (0x1FFF, .bundleAddress)
  else if s.overlayBusy p t.issue.pc then some (t.issue.pc, .overlayBusy)
  else none

/-- ILLEGAL_ENCODING of a failed part (R125). -/
def illegalOf (f : DecodeFail) : TFault :=
  { TFault.illegalEncoding with detail := f.bits % 2 ^ 48 + f.reason * 2 ^ 48 + slotNo f.slot * 2 ^ 56 }

/-- Issue of the next bundle of a tile: address, poison, decode check, then its operations (R52, R53, R124, R125, R197). -/
def State.issueNext (s0 : State) (p : Nat) : State :=
  if !s0.mayIssue p then s0 else
  match s0.addressFault p with
  | some (b, f) => s0.bundleFault p b 6 f []
  | none =>
    let s := s0.sramRead 1 p (32 * (s0.tile p).issue.pc) 32
    let t := s.tile p
    if shas t.imemPoison t.issue.pc then s.bundleFault p t.issue.pc 6 .poisonConsumed []
    else
      let w := (tget 0 t.imem t.issue.pc).toNat
      let parts := decodeBundle t.issue.tp w
      match decodeFails parts with
      | f :: fs => s.bundleFault p t.issue.pc (slotNo f.slot) (illegalOf f) (fs.map illegalOf)
      | [] => s.issueBundle p (decodeOps parts) (if t.issue.tp then 0 else enabledMV w)

/-- Issue of one operation alone in its bundle; the decode check comes first (R124, R125). -/
def State.issueOne (s : State) (p : Nat) (op : SlotOp) : State :=
  if !s.mayIssue p then s else
  match s.addressFault p with
  | some (b, f) => s.bundleFault p b 6 f []
  | none =>
    match (if isMV op && !(s.tile p).issue.tp then none else opFail op) with
    | some f => s.bundleFault p (s.tile p).issue.pc (slotNo f.slot) (illegalOf f) []
    | none => s.issueBundle p [(slotOf op, op)] 0

/-! ## Waiting and completing (R34, R56, R63) -/

/-- The tile passes cycles until cycle `c`. -/
def State.tickTo (s : State) (p c : Nat) : State :=
  let t := s.tile p
  if c ≤ t.issue.cycle then s
  else
    let t' := ticks (s.beat p) (c - t.issue.cycle) t
    (s.setTile p t').reach t'.issue.start

/-- The tile passes cycles until one begins at or after `instant` (2⁻⁴⁸ ns); cycles last more than 2⁴⁷. -/
def State.tickPast (s : State) (p instant : Nat) : State :=
  let t := s.tile p
  if instant ≤ t.issue.start then s
  else
    let t' := ticksPast (s.beat p) instant ((instant - t.issue.start) / 2 ^ 47 + 1) t
    (s.setTile p t').reach t'.issue.start

/-- Whether a tile's clock still carries its block: running, waiting, or stalled. -/
def Tile.active (t : Tile) : Bool :=
  t.issue.status == .running || t.issue.status == .qwaitStall || t.issue.status == .tendWait

/-- The earliest completion among the operations in flight that satisfy `q`. -/
def nextDone (t : Tile) (q : InFlight → Bool) : Option Nat :=
  match (t.issue.inflight.filter q).map (·.done) with
  | [] => none
  | c :: cs => some (cs.foldl min c)

/-- The tile passes cycles until the first operation in flight that satisfies `q` has completed (R34). -/
def State.completeNext (s : State) (p : Nat) (q : InFlight → Bool) : State :=
  let t := s.tile p
  if !t.active then s else
  match nextDone t q with
  | some c => s.tickTo p c
  | none => s

/-- A QWAIT stall ends in the first cycle after the last of its tags has completed, and not before a taken branch of its bundle lets
its target issue (R33, R56). -/
def State.resumeTile (s : State) (p : Nat) : State :=
  let t := s.tile p
  if t.issue.status ≠ .qwaitStall ∨ outstandingOf t t.issue.wait ≠ 0 then s
  else
    let s1 := (s.tickPast p (t.issue.waitDone + 1)).tickTo p t.issue.hold
    let t1 := s1.tile p
    s1.setTile p { t1 with issue := { t1.issue with status := .running, wait := 0 } }

/-- Whether a SEND of the block waits for its departure: a slot written and not wholly released (R63). -/
def State.sendPending (s : State) (p : Nat) : Bool :=
  let c := s.tileCtx p
  let t := s.tile p
  t.outbox.any fun e => e.2.written && e.2.released < (slotDeps t c.version c.phase e.1).length

/-- TEND is reached at the first cycle at which it and everything issued before it has completed and every SEND has
departed; after a transit-fatal fault, at the first cycle with nothing in flight (R63, R274, R553). The cycle in which the faulting
bundle would have issued is the first in which issue has stopped, so that with nothing in flight it is the end point (DESIGN CHOICE,
log 55). -/
def State.reachTend (s : State) (p : Nat) : State :=
  let t := s.tile p
  if t.issue.status ≠ .running ∨ t.issue.ended = .open then s
  else if t.issue.ended = .tend ∧ s.sendPending p then s
  else
    let c0 := t.issue.inflight.foldl (fun c f => max c f.done) t.issue.cycle
    let c := if t.issue.ended = .tend then max c0 t.issue.tendCycle else c0
    let s1 := s.tickTo p c
    let t1 := s1.tile p
    if t1.issue.start > s.deadline t ∨ t1.issue.cycle < c then s
    else s1.setTile p { t1 with issue := { t1.issue with status := .tendWait, reached := some t1.issue.start,
                                                         tendCycle := c } }

end Sys2Proof.Machine
end

