-- ==== Sys2Proof/Machine/Fabric.lean ====
section
/-!
DEFINITION. The scheduled plane (10 R258 to R263, 11 R270 to R272, 12): release of departures, crossings, the die mesh,
the checks and forwarding of vectors at ports, multicast, replay copies, and the table versions.
-/
namespace Sys2Proof.Machine

/-! ## Instants ahead -/

/-- Whether an instant (2⁻⁴⁸ ns) lies at or past a meridian that has not been taken: what falls there is not yet due. -/
def State.beyond (s : State) (t : Nat) : Bool := match s.nextMeridian with | some m => decide (m ≤ t) | none => false

/-! ## Departures (R169, R270, R272, R306) -/

/-- Whether the departure that follows entry `idx` of a slot is conditional: the next of this phase, or the first of the next
phase that has one (R169). -/
def nextConditional (t : Tile) (v : Bool) (phase cycle slot idx : Nat) : Bool :=
  match (slotDeps t v phase slot)[idx + 1]? with
  | some d => d.cond
  | none => firstConditional t v (phase + 1) cycle slot

/-- POISON bits of the flits of a payload: any lane of the flit (R307). -/
def flitBits (poison len : Nat) : Nat :=
  (List.range len).foldl (fun v j => if field poison (16 * j) 16 ≠ 0 then v + 2 ^ j else v) 0

/-- The header of a departure, filled from its template (R306, R325). -/
def State.fillHeader (s : State) (tmpl : Nat) (void : Bool) (fret transit ltile poison : Nat) : Nat :=
  let ns := transit * s.period + 4 * fret
  let f0 := putField (putField (putField tmpl 4 1 (b2n s.version)) 5 1 (b2n void)) 6 1 0
  let f1 := putField (putField f0 16 4 0) (8 * 12) 32 ns
  let f2 := putField (putField (putField f1 (8 * 16) 16 transit) (8 * 24) 32 fret) (8 * 30) 32 (s.unitAddr ltile)
  sealed (putField f2 (8 * 42) 32 (if void then 0 else flitBits poison (VH.len tmpl)))

/-- Detail of a slip record (R263). -/
def State.slipDetail (_ : State) (tag dir occ slot : Nat) : Nat :=
  (tag >>> 16) % 2 ^ 64 + tag % 2 ^ 16 * 2 ^ 64 + dir * 2 ^ 80 + occ * 2 ^ 88 + slot * 2 ^ 96

/-- A vector is discarded on the die mesh: two claim one link, or one crossing, in the same fret (R313, R261). -/
def State.meshClash (s : State) (d fret f : Nat) : State :=
  s.raise 0x0501 4 { district := d } (vecDetail f 0xFF 4 (s.fretIdx fret))

/-- A crossing as the links of the die mesh are named: the inbound one of district `d` leads from its stop to it, the outbound one
back, the district being end 32 + `d`. At most one packet enters each in a fret (R261); a second is treated as a second claim of a
mesh link (DESIGN CHOICE, log 87). -/
def inLink (d fret : Nat) : Nat × Nat × Nat := (d, 32 + d, fret)
/-- The outbound crossing. -/
def outLink (d fret : Nat) : Nat × Nat × Nat := (32 + d, d, fret)

/-- A packet enters the outbound crossing of a district for departure fret `fret` (R260 to R262). -/
def State.enterOut (s : State) (d fret : Nat) (pk : CrossPkt) : State :=
  let c := s.clk d
  let occ := c.outFifo.length
  if s.meshClaims.contains (outLink d fret) then s.meshClash d fret pk.header.toNat
  else
  let s := { s with meshClaims := s.meshClaims ++ [outLink d fret] }
  if occ ≥ 8 then
    (s.raise 0x0401 3 (s.tilePlace pk.tile 2 pk.bundle) (s.slipDetail pk.tag 1 occ pk.slot)).fbump (R.clkXstat d)
      F.clkXstat_SLIP_OUT 1
  else (s.setClk d { c with outFifo := c.outFifo ++ [pk] }).fmax (R.clkXstat d) F.clkXstat_MAX_OCC_OUT (occ + 1)

/-- All 16 lanes of every flit whose POISON bit is set (R307). -/
def lanesOfBits (bits : Nat) : Nat := (List.range 25).foldl (fun v j => if bit bits j then v + 65535 * 2 ^ (16 * j) else v) 0

/-- Transit of an instant in 2⁻⁴⁸ ns. -/
def State.transitOf (s : State) (t : Nat) : Nat := if s.valid && s.period ≠ 0 then (t >>> 48) / s.period else 0

/-- An arrival is released at instant `rel` (2⁻⁴⁸ ns) into its inbox slot (R55, R170, R260, R318, R323). -/
def State.intoInbox (s : State) (pk : CrossPkt) (ready rel : Nat) : State :=
  let t := s.tile pk.tile
  let f := pk.header.toNat
  let old := tget {} t.inbox pk.slot
  if pk.stomped then s.setTile pk.tile { t with inbox := tset {} t.inbox pk.slot { old with replayPending := true } }
  else
    let void := VH.void f
    let slot : InSlot :=
      { payload := if void then 0 else BitVec.ofNat 12800 (field pk.payload.toNat 0 (512 * VH.len f))
        poison := if void then 0 else BitVec.ofNat 400 (lanesOfBits (VH.poison f))
        len := VH.len f, void := void, gen := some (s.transitOf rel % 2 ^ 16), ready := ready, replayPending := false }
    (s.setTile pk.tile { t with inbox := tset {} t.inbox pk.slot slot }).sramWritten 2 pk.tile (1600 * pk.slot) (64 * VH.len f)

/-- TIL_VOIDS counts an arrival in the transit of its fret (R184); a stomped one is none (R318). -/
def State.countArrival (s : State) (p : Nat) (v : Vec) : State :=
  if v.stomped then s else
  let t := s.tile p
  s.setTile p { t with fig := { t.fig with arrs := t.fig.arrs + 1, voidArrs := t.fig.voidArrs + b2n (VH.void v.header.toNat) } }

/-- The tile of the same district a header's vector stays in, if any: its first route entry is LOCAL, and DEST names a tile of
district `d` of this device (R15, R258). Such a template passes no load (R306, log 88). -/
def State.stays (s : State) (d f : Nat) : Option Nat :=
  if hRoute f 0 = 8 ∧ VH.kind f = 0 ∧ deviceOf (VH.dest f) = deviceOf s.coord ∧ unitOf (VH.dest f) < 512 then
    (s.ptileOf (unitOf (VH.dest f))).filter fun q => districtOf q == d
  else none

/-- A departure of tile `p` from `slot` leaves at cycle start `edge`: missed-fret checks, header, void, and entry into the crossing; a
vector for a tile of the same district passes through the district exchange and is ready at its departure fret (R258, log 88). -/
def State.depart (s : State) (p slot : Nat) (cur : Departure) (edge : Nat) : State :=
  let t := s.tile p
  let d := districtOf p
  let c := { s.tileCtx p with transit := s.transit, phase := s.phaseOf s.transit, meridianNs := s.transit * s.period }
  let o := tget {} t.outbox slot
  let tmpl := depTemplate t c.version cur
  let unwritten := !cur.cond && !o.written && !t.issue.voidRest
  let flying := t.issue.inflight.any fun f => f.issued < f.done && (match f.what with | .outbox n _ _ _ _ => n == slot | _ => false)
  let void := o.void || t.issue.voidRest || unwritten
  let hdr := s.fillHeader tmpl void cur.fret s.transit c.ltile o.poison.toNat
  let fret := s.transit * s.fretsPer + cur.fret
  let pk : CrossPkt :=
    { tag := (edge >>> 32) + c.xOut * 2 ^ 16, tile := p, slot := slot, bundle := o.sender, header := BitVec.ofNat 512 hdr,
      payload := if void then 0 else BitVec.ofNat 12800 (field o.payload.toNat 0 (512 * VH.len tmpl)),
      poison := if void then 0 else o.poison, stomped := false, gen := 0 }
  let o' := reenter o (nextConditional t c.version c.phase (if s.prog.hdr.cycle = 0 then 1 else s.prog.hdr.cycle) slot o.released)
  let t' := { t with outbox := tset {} t.outbox slot o'
                     fig := { t.fig with deps := t.fig.deps + 1, voidDeps := t.fig.voidDeps + b2n void } }
  let s0 := s.setTile p t'
  let s1 := match s0.stays d hdr with
    | some q => (s0.countArrival q { header := pk.header }).intoInbox { pk with tile := q, slot := VH.buf hdr }
        (fretStart fret >>> 32) (fretStart fret)
    | none => s0.enterOut d fret pk
  let detail := missedDetail slot o.released cur.fret (c.releaseNs cur.fret)
  if unwritten then s1.tileFaults p t.issue.last 6 (.missedFret detail) []
  else if flying && o.written then s1.tileFaults p o.sender 2 (.missedFret detail) []
  else s1

/-- Whether tile `p` has departures to release: the program runs, the device is not contained (R505, R523), and the
tile is bound and powered. -/
def State.releasing (s : State) (p : Nat) : Bool :=
  s.valid && !s.ras.contained && (s.prog.st == .running || s.prog.st == .stopping) && s.transit ≥ s.prog.startAt &&
  (s.ltileOf p) ≠ 0xFFFF && (s.tile p).issue.status != .powerGated

/-- The outbox releases the next departure of a slot at the first cycle start at or after its release point (R270). A tile
that still issues before that instant has it not yet due; one that waits passes the cycles. -/
def State.outboxRelease (s : State) (p slot : Nat) : State :=
  if !s.releasing p then s else
  let c := { s.tileCtx p with transit := s.transit, phase := s.phaseOf s.transit, meridianNs := s.transit * s.period }
  let t := s.tile p
  let o := tget {} t.outbox slot
  match (slotDeps t c.version c.phase slot)[o.released]? with
  | none => s
  | some cur =>
    let due := c.releaseNs cur.fret <<< 48
    if t.issue.status = .running ∧ t.issue.ended = .open ∧ t.issue.start < due then s
    else
      let s1 := (if t.active && t.issue.started then s.tickPast p due else s).sramRead 3 p (1600 * slot) 1600
      let edge := (s1.clkEdge (districtOf p) due).2
      let s3 := s1.reach edge
      let tmpl := depTemplate t c.version cur
      let o := tget {} (s3.tile p).outbox slot
      if hdrMulticast tmpl && hdrMask tmpl == 0 && !o.written then
        s3.setTile p { s3.tile p with outbox := tset {} (s3.tile p).outbox slot { o with released := o.released + 1 } }
      else s3.depart p slot cur edge

/-! ## Checks of R312 -/

/-- The instant a 32-bit STAMP names, near `now` (R222). -/
def stampNs (now stamp : Nat) : Int := (now : Int) + diffMod 32 stamp (now % 2 ^ 32)

/-- Check 2: header fields, read at instant `ns` with the largest age of port `p` (R312). -/
def State.headerBad (s : State) (p ns f : Nat) : Bool :=
  let full := stampNs ns (VH.stamp f)
  let age := (ns : Int) - full
  VH.reserved f || VH.len f = 0 || VH.len f > 25 || isFlat (VH.dest f) || isFlat (VH.src f) || unitOf (VH.dest f) ≥ 512 || age < 0 ||
  age > (s.fget (R.fabCtl p) F.fabCtl_MAX_FLIGHT_US * 1000 : Nat) ||
  (if s.period = 0 then false else VH.transit f ≠ (full.toNat / s.period) % 2 ^ 16)

/-- What the route entry asks of the device. -/
inductive Hop where
  | out (p : Nat)
  | here
  | tree
  | bad
  deriving DecidableEq, Repr

/-- Check 3: the route entry of a vector from `src` (a port, or 8 from the mesh) (R305, R308, R312, R315). A vector that stays on the
device has LOCAL as its first entry (R311). -/
def State.hopOf (s : State) (src f : Nat) : Hop :=
  let e := hRoute f (VH.hop f)
  if e < 8 then (if e = src ∨ VH.hop f = 15 then .bad else .out e)
  else if e = 8 then (if s.isOwn (VH.dest f) ∧ unitOf (VH.dest f) < 512 ∧ VH.kind f = 0 then .here else .bad)
  else if e = 10 then (if VH.kind f = 1 ∧ VH.hop f ≥ 1 then .tree else .bad)
  else .bad

/-- What stands against sending a vector on a port (R312 checks 4 and 5): a fault code, its class and reason; code 0 for a
port in RECOVER, whose discard has no record (R386). -/
def State.outBar (s : State) (p src fret : Nat) (epoch copy : Bool) : Option (Nat × Nat × Nat) :=
  let st := (s.link p).st
  if st = .recover then some (0, 0, 0)
  else if st = .down ∨ st = .training then some (0x0504, 3, 0)
  else if !s.portOpen p || !s.portUp p then some (0x0503, 4, 0)
  else if copy then none
  else match s.mapSource p epoch fret with
    | none => some (0x0501, 4, 1)
    | some x => if x ≠ src then some (0x0501, 4, 2)
      else if (s.fab p).claims.contains fret then some (0x0501, 4, 3) else none

/-- A vector is discarded for what bars it (R312, R386). -/
def State.barred (s : State) (p fret f : Nat) (b : Nat × Nat × Nat) : State :=
  if b.1 = 0 then s.fbump (R.lnkDupCount p) F.lnkDupCount_DISCARD_RECOVER 1 else s.vecFault b.1 b.2.1 p b.2.2 fret f

/-- Claim an output fret. -/
def State.claim (s : State) (p fret : Nat) : State :=
  let b := s.fab p
  s.setFab p { b with claims := sins b.claims fret }

/-! ## The die mesh (R10, R15, R313) -/

/-- The next stop on the way: along the row, then along the column. -/
def meshNext (d dst : Nat) : Nat :=
  if d % 8 < dst % 8 then d + 1 else if d % 8 > dst % 8 then d - 1
  else if d / 8 < dst / 8 then d + 8 else if d / 8 > dst / 8 then d - 8 else d

/-- Hops between two stops. -/
def meshHops (a b : Nat) : Nat := ((a % 8 : Int) - (b % 8 : Nat)).natAbs + ((a / 8 : Int) - (b / 8 : Nat)).natAbs

/-- District a mesh vector travels to. -/
def MeshVec.target (m : MeshVec) : Nat := match m.dest with | .port p => attach p | .tile p => districtOf p

/-- The vector with the poison bits of damaged payload flits set (R307). -/
def damage (v : Vec) (bad : BitVec 25) : Vec :=
  let f := v.header.toNat
  if VH.void f || bad = 0 then v
  else { v with header := BitVec.ofNat 512 (sealed (putField f (8 * 42) 32 (VH.poison f ||| bad.toNat % 2 ^ VH.len f))) }

/-- The header as it leaves on a port: HOP increased by 1 (R312). -/
def hopped (v : Vec) : Vec :=
  let f := v.header.toNat
  { v with header := BitVec.ofNat 512 (sealed (putField f 16 4 (VH.hop f + 1))) }

/-- A mesh vector at the stop of its port goes out 6 frets later (R308); another joins the mesh. -/
def State.placeMesh (s : State) (m : MeshVec) : State :=
  match m.dest with
  | .port p =>
    if m.stop = attach p then
      if !s.portUp p then
        (if (s.link p).st = .recover then s.fbump (R.lnkDupCount p) F.lnkDupCount_DISCARD_RECOVER 1
         else s.vecFault 0x0504 3 p 0 (m.fret + 6) m.vec.header.toNat)
      else s.sendVec p (m.fret + 6) (hopped m.vec) false
    else { s with mesh := s.mesh ++ [m] }
  | .tile _ => { s with mesh := s.mesh ++ [m] }

/-- A vector on the die mesh moves one stop, which takes one fret (R15, R313). -/
def State.meshHop (s : State) (i : Nat) (bad : BitVec 25) : State :=
  match s.mesh[i]? with
  | none => s
  | some m =>
    let dst := m.target
    if m.stop = dst then s
    else
      let nxt := meshNext m.stop dst
      let link := (m.stop, nxt, m.fret)
      let s1 := ({ s with mesh := s.mesh.eraseIdx i }).reach (fretStart (m.fret + 1))
      if s.meshClaims.contains link then s1.meshClash m.stop m.fret m.vec.header.toNat
      else
        ({ s1 with meshClaims := s1.meshClaims ++ [link] }).placeMesh
          { m with vec := damage m.vec bad, stop := nxt, fret := m.fret + 1 }

/-! ## Crossings (R260 to R263) -/

/-- The earliest packet of a FIFO. -/
def firstTag : List CrossPkt → Option CrossPkt
  | [] => none
  | p :: ps => some (ps.foldl (fun a b => if b.tag < a.tag then b else a) p)

/-- The longest delay of a release after its tag, in 2⁻¹⁶ ns: τ × (1 + 15/128) × (1 + 10⁻³) (R262). -/
def State.slipLimit (s : State) (d : Nat) : Nat :=
  let set := s.fget (R.clkStatus d) F.clkStatus_SETTING
  40 * 2 ^ 16 * 143 * 1001 / (128 * 1000 * (if set = 0 then 40 else set))

/-- The first 1 GHz tick at or after a tag at which the outbound crossing has not passed a packet (R260, R261). -/
def Clk.outTick (c : Clk) (tag : Nat) : Nat :=
  let n := cdiv tag (2 ^ 16)
  2 ^ 16 * (match c.lastOut with | some u => max n (u / 2 ^ 16 + 1) | none => n)

/-- A departing packet leaves the outbound crossing at the first free 1 GHz tick at or after its tag, `late` beyond it, and is
checked as it is injected at the mesh stop (R260 to R262, R312). One that would leave after a meridian not yet taken is not due. -/
def State.outboundRelease (s : State) (d late : Nat) : State :=
  let c := s.clk d
  match firstTag c.outFifo with
  | none => s
  | some pk =>
    let rel := c.outTick pk.tag + late
    if s.beyond (rel <<< 32) then s else
    let occ := c.outFifo.length
    let s1 := ((s.setClk d { c with outFifo := c.outFifo.erase pk, lastOut := some rel }).reach (rel <<< 32)).drainCheck
    let s2 := if rel > pk.tag + s.slipLimit d then
        (s1.raise 0x0402 3 (s.tilePlace pk.tile 2 pk.bundle) (s.slipDetail pk.tag 1 occ pk.slot)).fbump (R.clkXstat d)
          F.clkXstat_SLIP_OUT 1
      else s1
    let f := pk.header.toNat
    let ns := (stampNs s2.ns (VH.stamp f)).toNat
    let fret := ns / 4
    let v : Vec := { header := pk.header, payload := pk.payload }
    let bad := s2.raise 0x0502 4 { district := d } (vecDetail f 0xFF 0 (s2.fretIdx fret))
    match s2.hopOf 8 f with
    | .out p =>
      let h := meshHops d (attach p)
      if s2.headerBad p ns f then s2.vecFault 0x0502 4 p 0 (fret + h + 6) f
      else
        match s2.outBar p 8 (fret + h + 6) (VH.epoch f) false with
        | some b => s2.barred p (fret + h + 6) f b
        | none => ((s2.claim p (fret + h + 6)).placeMesh { vec := v, dest := .port p, stop := d, fret := fret }).drainCheck
    | .here =>
      if s2.headerBad 8 ns f then bad
      else match s2.ptileOf (unitOf (VH.dest f)) with
        | none => s2
        | some q => s2.placeMesh { vec := v, dest := .tile q, stop := d, fret := fret }
    | _ => bad

/-- A vector that has reached its destination district's mesh stop enters the inbound crossing (R260 to R262); its fret is that of
its arrival (R184). -/
def State.crossingEntry (s : State) (d : Nat) : State :=
  match s.mesh.find? fun m => m.stop == d && (match m.dest with | .tile p => districtOf p == d | .port _ => false) with
  | none => s
  | some m =>
    let p := match m.dest with | .tile p => p | .port _ => 0
    let f := m.vec.header.toNat
    if s.beyond (fretStart m.fret) then s else
    let s0 := ({ s with mesh := s.mesh.erase m }).reach (fretStart m.fret)
    if s.meshClaims.contains (inLink d m.fret) then s0.meshClash d m.fret f
    else
    let s1 := ({ s0 with meshClaims := s0.meshClaims ++ [inLink d m.fret] }).countArrival p m.vec
    let c := s1.clk d
    let occ := c.inFifo.length
    let tag := (fretStart m.fret >>> 32) + s1.fget (R.clkXcal d) F.clkXcal_X_IN * 2 ^ 16
    if occ ≥ 8 then
      (s1.raise 0x0401 3 (s1.tilePlace p 6 0) (s1.slipDetail tag 0 occ (VH.buf f))).fbump (R.clkXstat d) F.clkXstat_SLIP_IN 1
    else
      let pk : CrossPkt := { tag := tag, tile := p, slot := VH.buf f, bundle := 0, header := m.vec.header,
                             payload := m.vec.payload, poison := 0, stomped := m.vec.stomped, gen := 0 }
      (s1.setClk d { c with inFifo := c.inFifo ++ [pk] }).fmax (R.clkXstat d) F.clkXstat_MAX_OCC_IN (occ + 1)

/-- Whether an instant falls in the last halt of a district (R262). -/
def Clk.inHalt (c : Clk) (t : Nat) : Bool := match c.halt with | some (a, b) => a ≤ t && t < b | none => false

/-- The cycle start at which the inbound crossing of district `d` passes a packet with a tag (2⁻¹⁶ ns): the first at or after
the tag that has passed none (R260, R261), after a halt the first after the restart. The cycles before the last meridian are not held
any more: a tag among them has taken effect by then. -/
def State.inEdge (s : State) (d tag : Nat) : Nat :=
  let c := s.clk d
  let x := match c.lastIn with | some u => max (tag <<< 32) (u + 1) | none => tag <<< 32
  if x < c.at_ then (if c.inHalt x then c.at_ else x) else (s.clkEdge d x).2

/-- An arrival leaves the inbound crossing at the first free cycle start at or after its tag, `late` beyond it (R260 to R262). It is not
yet due while the district is halted, before the tile that still issues has come so far, or past a meridian not yet taken. -/
def State.inboundRelease (s : State) (d late : Nat) : State :=
  let c := s.clk d
  match firstTag c.inFifo with
  | none => s
  | some pk =>
    let rel := s.inEdge d pk.tag + late <<< 32
    let t := s.tile pk.tile
    if s.clkState d = clkHalted ∨ s.beyond rel ∨ (t.issue.status = .running ∧ t.issue.ended = .open ∧ t.issue.start < rel) then s
    else
      let occ := c.inFifo.length
      let s2 := (s.setClk d { c with inFifo := c.inFifo.erase pk, lastIn := some rel }).reach rel
      let slip := (rel >>> 32) > pk.tag + s.slipLimit d && !c.inHalt (pk.tag <<< 32)
      let s3 := s2.intoInbox pk (if slip then rel >>> 32 else pk.tag) rel
      if slip then
        (s3.raise 0x0402 3 (s3.tilePlace pk.tile 6 0) (s3.slipDetail pk.tag 0 occ pk.slot)).fbump (R.clkXstat d)
          F.clkXstat_SLIP_IN 1
      else s3

/-! ## Vectors at ports (R310 to R322) -/

/-- A replay copy joins the replay queue of its output port (R320). -/
def State.queueCopy (s : State) (p due f : Nat) (v : Vec) : State :=
  let b := s.fab p
  let fret := s.replayFretFrom p due
  if b.replayQ.length ≥ 4 ∨ fret > due + s.replayQ p then s.vecFault 0x0505 3 p 0 fret f
  else s.setFab p { b with replayQ := b.replayQ ++ [(fret, v)] }

/-- A vector goes on on port `p` in absolute fret `fret`, having come from `src` (R312, R320). -/
def State.forwardVec (s : State) (p src fret : Nat) (v out : Vec) : State :=
  let f := v.header.toNat
  let copy := VH.replay f
  match s.outBar p src fret (VH.epoch f) copy with
  | some b => s.barred p fret f b
  | none => if copy then s.queueCopy p fret f out else (s.claim p fret).sendVec p fret out false

/-- A vector is delivered to its tile through the mesh stop of the port it came in on; one for an unbound index is discarded
(R314). -/
def State.deliverVec (s : State) (port fret : Nat) (v : Vec) : State :=
  match s.ptileOf (unitOf (VH.dest v.header.toNat)) with
  | none => s
  | some p => s.placeMesh { vec := v, dest := .tile p, stop := attach port, fret := fret }

/-- Rack-local index of this device (R315). -/
def State.rackIndex (s : State) : Nat := coordX s.coord + 4 * coordY s.coord + 16 * coordZ s.coord

/-- Reach mask of a version, tree shape and port (R316). -/
def State.reachMask (s : State) (v : Bool) (t p : Nat) : Nat := (s.reg (R.fabReachVT p (16 * b2n v + t))).toNat

/-- Multicast replication of a vector that came in on `port` (R315); `g` is its absolute departure fret at the sender. -/
def State.multicast (s : State) (port g : Nat) (v : Vec) : State :=
  let f := v.header.toNat
  let l := s.linkFrets port
  let m := VH.mask f
  let c := s.rackIndex
  if coordRack (VH.dest f) ≠ coordRack s.coord ∨ m = 0 then s.vecFault 0x0502 4 port 0 (g + l + 12) f
  else
    let own := bit m c
    let s1 := if own then s.deliverVec port (g + l + 6) v else s
    let (s2, cov) := (List.range 8).foldl (fun (z : State × Nat) p =>
      let mp := Nat.land m (z.1.reachMask (VH.epoch f) (VH.tree f) p)
      if mp = 0 then z
      else
        let out : Vec := { v with header := BitVec.ofNat 512 (sealed (putField f (8 * 34) 64 mp)) }
        (z.1.forwardVec p port (g + l + 12) v out, Nat.lor z.2 mp)) (s1, if own then 2 ^ c else 0)
    if Nat.lor m cov ≠ cov then s2.vecFault 0x0502 4 port 0 (g + l + 12) f else s2

/-- The output fret a header asks for on port `port`'s device from departure fret `g`: 12 frets after the link to another port, 6 to the
mesh (R308). -/
def State.outFret (s : State) (port g f : Nat) : Nat :=
  g + s.linkFrets port + (if hRoute f (VH.hop f) = 8 then 6 else 12)

/-- FAB_ALIGN takes the residue of an arrival, in 2⁻¹⁶ ns (R310, R331). -/
def State.noteResidue (s : State) (port res g : Nat) (f : Nat) : State :=
  let ps := res * 1000 / 2 ^ 16
  let o := R.fabAlign port
  let s1 := (s.fset o F.fabAlign_LAST_RESIDUE_PS (satN 16 ps)).fmax o F.fabAlign_MAX_RESIDUE_PS ps
  if res * 1000 > 1500 * 2 ^ 16 then
    (s1.raise 0x0506 1 { district := attach port } (vecDetail f port 1 (s.fretIdx (s.outFret port g f)))).fbump o
      F.fabAlign_MARGIN_EVENTS 1
  else s1

/-- A port takes the next settled vector: it re-times it, checks it, and forwards, replicates or delivers it (R310, R312). -/
def State.vectorArrival (s : State) (port : Nat) (bad : BitVec 25) : State :=
  let l := s.link port
  match l.rxVec with
  | [] => s
  | r :: rs =>
    let s1 := ((s.drainCheck).setLink port { l with rxVec := rs }).reach (r.at_ <<< 32)
    let v := damage r.vec bad
    let f := v.header.toNat
    if VH.kind f = 3 then s1
    else
      let (g, res) := s1.retime port r.at_
      let s2 := s1.noteResidue port res g f
      let s3 := if v.stomped && !r.own then s2.fbump (R.fabCountErr port) F.fabCountErr_STOMPED_IN 1 else s2
      let lf := s3.linkFrets port
      if s3.headerBad port (r.at_ >>> 16) f then s3.vecFault 0x0502 4 port 0 (g + lf + 12) f
      else
        (match s3.hopOf port f with
        | .out p => s3.forwardVec p port (g + lf + 12) v (hopped v)
        | .here => s3.deliverVec port (g + lf + 6) v
        | .tree => s3.multicast port g v
        | .bad => s3.vecFault 0x0502 4 port 0 (g + lf + 12) f).drainCheck

/-! ## Replay copies (R319, R320) -/

/-- A NAK names a sent vector: a replay fret is set aside for its copy, or it is late (R319). -/
def State.nakVector (s : State) (p : Nat) (e : Sent) : State :=
  let f := match e.what with | .vec v => v.header.toNat | .svc _ => 0
  let l := s.link p
  let upd (g : Sent → Sent) : State := s.setLink p { l with sent := l.sent.map fun x => if x.seq = e.seq then g x else x }
  let fret := s.replayFretFrom p s.nowFret
  if e.replay || VH.replay f || !e.kept || e.late || fret > e.fret + s.spanS p then
    (upd fun x => { x with late := true, nakd := true }).vecFault 0x0505 3 p 0 fret f
  else upd fun x => { x with nakd := true, replayAt := some fret }

/-- The copy of a NAKed vector leaves in its replay fret, under its own sequence number (R319, R374). -/
def State.replaySend (s : State) (p : Nat) : State :=
  match (s.link p).sent.find? fun e => e.isVec && e.replayAt.isSome with
  | none => s
  | some e =>
    let fret := e.replayAt.getD 0
    let s1 := s.reach (fretStart fret)
    let l := s1.link p
    if l.st ≠ .up ∨ !s1.portOpen p then s1
    else
      let copy (c : Carried) : Carried := match c with
        | .vec v => .vec { v with header := BitVec.ofNat 512 (sealed (putField v.header.toNat 6 1 1)) }
        | x => x
      let l1 := noteEnd { l with sent := l.sent.map fun x =>
        if x.seq = e.seq then { x with replayAt := none, replay := true, what := copy x.what } else x } e.seq [(fret, 0, e.flits)]
      let b := s1.fab p
      ((s1.setLink p l1).setFab p { b with fig := { b.fig with replays := b.fig.replays ++ [fret] } }).fbump (R.lnkReplay p)
        F.lnkReplay_REPLAYED 1

/-- A replay copy waiting at a port departs in its replay fret, as a new packet of the link (R320, R375). -/
def State.copyDeparture (s : State) (p : Nat) : State :=
  let b := s.fab p
  match b.replayQ with
  | [] => s
  | (fret, v) :: rest =>
    let s1 := (s.setFab p { b with replayQ := rest }).reach (fretStart fret)
    if s1.portUp p && s1.portOpen p then (s1.sendVec p fret v true).drainCheck
    else if (s1.link p).st = .recover then s1.fbump (R.lnkDupCount p) F.lnkDupCount_DISCARD_RECOVER 1
    else s1

/-! ## Table versions (R324 to R326) -/

/-- Whether a port's instance of the shared register answers: the port is powered (R332). -/
def State.fabOn (s : State) (port : Nat) : Bool := (s.link port).st != .disabled

/-- A write of FAB_EPOCH that requests a flip (R326). -/
def State.epochRequest (s : State) (port at' : Nat) : State :=
  if !s.fabOn port then s else
  let s := s.drainCheck
  if s.valid ∧ at' ≥ s.transit + 4 ∧ s.drainedNow ∧ s.fget R.fabEpoch F.fabEpoch_PENDING = 0 then
    (s.fset R.fabEpoch F.fabEpoch_AT_TRANSIT at').fset R.fabEpoch F.fabEpoch_PENDING 1
  else s.fset R.fabEpoch F.fabEpoch_REFUSED 1

/-- A write of FAB_EPOCH with CANCEL = 1, and with REFUSED = 1 if `refused` (R326). -/
def State.epochCancel (s : State) (port : Nat) (refused : Bool) : State :=
  if !s.fabOn port then s else
  let s1 := s.fset R.fabEpoch F.fabEpoch_PENDING 0
  if refused then s1.fset R.fabEpoch F.fabEpoch_REFUSED 0 else s1

/-- A write of FAB_EPOCH with REFUSED = 1 alone (R326). -/
def State.epochClear (s : State) (port : Nat) : State :=
  if !s.fabOn port then s else s.fset R.fabEpoch F.fabEpoch_REFUSED 0

/-! ## Commands -/

/-- OUTBOX_RELEASE (R270). -/
def execOutboxRelease (p : PTile) (slot : BitVec 5) (s : State) : Host.Outcome State Fault Refusal := .next (s.outboxRelease p.val slot.toNat)
/-- OUTBOUND_CROSSING_RELEASE (R260). -/
def execOutboundCrossingRelease (d : District) (late : Nat) (s : State) : Host.Outcome State Fault Refusal := .next (s.outboundRelease d.val late)
/-- MESH_HOP (R15). -/
def execMeshHop (i : Nat) (badFlits : BitVec 25) (s : State) : Host.Outcome State Fault Refusal := .next (s.meshHop i badFlits)
/-- CROSSING_ENTRY (R261). -/
def execCrossingEntry (d : District) (s : State) : Host.Outcome State Fault Refusal := .next (s.crossingEntry d.val)
/-- INBOUND_CROSSING_RELEASE (R260). -/
def execInboundCrossingRelease (d : District) (late : Nat) (s : State) : Host.Outcome State Fault Refusal := .next (s.inboundRelease d.val late)
/-- VECTOR_ARRIVAL_PORT (R310). -/
def execVectorArrivalPort (port : Port) (badFlits : BitVec 25) (s : State) : Host.Outcome State Fault Refusal := .next (s.vectorArrival port.val badFlits)
/-- VECTOR_REPLAY_SEND (R319). -/
def execVectorReplaySend (port : Port) (s : State) : Host.Outcome State Fault Refusal := .next (s.replaySend port.val)
/-- REPLAY_COPY_DEPARTURE (R320). -/
def execReplayCopyDeparture (port : Port) (s : State) : Host.Outcome State Fault Refusal := .next (s.copyDeparture port.val)
/-- FAB_EPOCH_REQUEST (R326). -/
def execFabEpochRequest (port : Port) (at_ : BitVec 48) (s : State) : Host.Outcome State Fault Refusal := .next (s.epochRequest port.val at_.toNat)
/-- FAB_EPOCH_CANCEL (R326). -/
def execFabEpochCancel (port : Port) (refused : Bool) (s : State) : Host.Outcome State Fault Refusal := .next (s.epochCancel port.val refused)
/-- FAB_EPOCH_REFUSED_CLEAR (R326). -/
def execFabEpochRefusedClear (port : Port) (s : State) : Host.Outcome State Fault Refusal := .next (s.epochClear port.val)

end Sys2Proof.Machine
end

