-- ==== Sys2Proof/Machine/Sha.lean ====
section
/-!
DEFINITION. SHA-256, the digest of images, records, leaves and reports (11, 15, 16, 19). Its constants are computed as FIPS 180-4
defines them, from the roots of the first primes.
-/
namespace Sys2Proof.Machine

/-- The first 64 primes: what none of the primes up to the root of 311 divides. -/
def digestPrimes : List Nat := (List.range 312).filter fun n => 2 ≤ n && [2, 3, 5, 7, 11, 13, 17].all fun q => n == q || n % q ≠ 0

/-- The largest `r` below 2³⁶ whose power `k` is at most `x`, bit by bit from the highest. -/
def rootOfPower (k x : Nat) : Nat :=
  (List.range 36).foldl (fun r i => if (r + 2 ^ (35 - i)) ^ k ≤ x then r + 2 ^ (35 - i) else r) 0

/-- The first 32 bits after the point of the root of degree `k` of `p`. -/
def rootBits (k p : Nat) : BitVec 32 := BitVec.ofNat 32 (rootOfPower k (p * 2 ^ (32 * k)))

/-- Exclusive-OR of rotations of a word. -/
def mixRot (x : BitVec 32) (turns : List Nat) : BitVec 32 := turns.foldl (fun y n => y ^^^ x.rotateRight n) 0

/-- The schedule of a block, newest word first: each further word from those 16, 15, 7 and 2 places before it. -/
def growSchedule : Nat → List (BitVec 32) → List (BitVec 32)
  | 0, ws => ws
  | n + 1, ws =>
    let back (k : Nat) : BitVec 32 := ws.getD (k - 1) 0
    let old := mixRot (back 15) [7, 18] ^^^ (back 15 >>> 3)
    let new := mixRot (back 2) [17, 19] ^^^ (back 2 >>> 10)
    growSchedule n ((back 16 + old + back 7 + new) :: ws)

/-- A round on the eight working words; `kw` is the sum of its constant and its schedule word. -/
def digestRound (v : List (BitVec 32)) (kw : BitVec 32) : List (BitVec 32) :=
  match v with
  | [a, b, c, d, e, f, g, h] =>
    let pick := g ^^^ (e &&& (f ^^^ g))
    let most := (a &&& b) ||| (c &&& (a ||| b))
    let x := kw + h + pick + mixRot e [6, 11, 25]
    [x + most + mixRot a [2, 13, 22], a, b, c, d + x, e, f, g]
  | _ => v

/-- Big-endian words of 4 bytes. -/
def beWords : Nat → List Byte → List (BitVec 32)
  | 0, _ => []
  | n + 1, bs => BitVec.ofNat 32 (leNat (bs.take 4).reverse) :: beWords n (bs.drop 4)

/-- The chaining words after `n` blocks of 64 bytes; `ks` are the round constants. -/
def digestBlocks (ks : List (BitVec 32)) : Nat → List (BitVec 32) → List Byte → List (BitVec 32)
  | 0, v, _ => v
  | n + 1, v, bs =>
    let ws := (growSchedule 48 (beWords 16 bs).reverse).reverse
    digestBlocks ks n (List.zipWith (· + ·) v ((List.zipWith (· + ·) ks ws).foldl digestRound v)) (bs.drop 64)

/-- SHA-256 of a byte string: its bits, a 1 bit, zeros to 56 bytes past a multiple of 64, and its length in bits, big-endian. -/
def sha256 (bs : List Byte) : List Byte :=
  let n := bs.length
  let whole := bs ++ [0x80#8] ++ List.replicate ((119 - n % 64) % 64) 0#8 ++ (leBytes 8 (8 * n)).reverse
  let start := (digestPrimes.take 8).map (rootBits 2)
  (digestBlocks (digestPrimes.map (rootBits 3)) (whole.length / 64) start whole).flatMap fun w => (leBytes 4 w.toNat).reverse

end Sys2Proof.Machine
end

