-- ==== Sys2Proof/Machine/Image.lean ====
section
/-!
DEFINITION. The schedule image (11, R280 to R296; 12, R302, R306, R316): the header, the section table, whether every section
is well formed, and relocation and patch records.
-/
namespace Sys2Proof.Machine

/-! ## Header and section table (R280, R281) -/

/-- Whether a range of bytes is all zero. -/
def zeroAt (bs : List Byte) (o n : Nat) : Bool := leAt bs o n == 0

/-- The header fields of an image. -/
def imageHdr (b : List Byte) : Hdr :=
  { version := leAt b 4 2, programId := leAt b 24 8, target := leAt b 32 4, periodN := leAt b 36 2, guardBp := leAt b 38 2,
    minSetting := leAt b 40 1, variants := leAt b 42 2, cycle := leAt b 44 2, depth := leAt b 46 2,
    lFixRd := leAt b 56 2, lFixWr := leAt b 58 2,
    digest := (b.drop 64).take 32 }

/-- Check 2 of R297. -/
def imageValid (b : List Byte) : Bool :=
  96 ≤ b.length && leAt b 0 4 == 0x49534842 && (leAt b 4 2 == 4 || leAt b 4 2 == 3) && leAt b 6 2 == 96 &&
  leAt b 16 8 == b.length && (b.drop 64).take 32 == sha256 (b.take 64 ++ b.drop 96)

/-- Check 4 of R297. -/
def imageRanges (h : Hdr) : Bool :=
  4 ≤ h.periodN && h.periodN ≤ 16384 && h.guardBp ≤ 5000 && 20 ≤ h.minSetting && h.minSetting ≤ 42 && 1 ≤ h.cycle &&
  h.cycle ≤ 4096

/-- The header part of check 5: reserved bits, counts. -/
def headerOk (b : List Byte) (h : Hdr) : Bool :=
  leAt b 8 4 / 2 == 0 && 1 ≤ leAt b 12 4 && leAt b 12 4 ≤ 65535 && zeroAt b 41 1 && h.variants ≤ 4095 && 1 ≤ h.depth &&
  zeroAt b 60 4

/-- One entry of the section table: TYPE, INSTANCE, VARIANT, OFFSET, SIZE, COUNT. -/
structure SectEntry where
  typ : Nat
  inst : Nat
  variant : Nat
  off : Nat
  size : Nat
  count : Nat
  clean : Bool
  deriving DecidableEq, Repr

/-- The section table of an image. -/
def sectTable (b : List Byte) : List SectEntry :=
  let t := leAt b 48 8
  (List.range (leAt b 12 4)).map fun i =>
    let e := (b.drop (t + 32 * i)).take 32
    { typ := leAt e 0 2, inst := leAt e 2 2, variant := leAt e 4 2, off := leAt e 8 8, size := leAt e 16 8,
      count := leAt e 24 4, clean := zeroAt e 6 2 && zeroAt e 28 4 }

/-- Whether two ranges overlap. -/
def overlap (a n b m : Nat) : Bool := n ≠ 0 && m ≠ 0 && a < b + m && b < a + n

/-- Whether a test holds of every pair of distinct positions of a list. -/
def pairwise {α : Type} (r : α → α → Bool) : List α → Bool
  | [] => true
  | x :: xs => xs.all (r x) && pairwise r xs

/-- R281: the table and every section lie within the image and overlap nothing; each (TYPE, INSTANCE, VARIANT) once. -/
def tableOk (b : List Byte) : Bool :=
  let t := leAt b 48 8
  let n := 32 * leAt b 12 4
  let es := sectTable b
  96 ≤ t && t + n ≤ b.length &&
  es.all (fun e => e.clean && e.off + e.size ≤ b.length && !overlap e.off e.size 0 96 && !overlap e.off e.size t n) &&
  pairwise (fun x y => !(overlap x.off x.size y.off y.size) &&
    !(x.typ == y.typ && x.inst == y.inst && x.variant == y.variant)) es

/-- The sections with their bytes. -/
def sections (b : List Byte) : List Sect :=
  (sectTable b).map fun e =>
    { typ := e.typ, inst := e.inst, variant := e.variant, count := e.count, data := (b.drop e.off).take e.size }

/-- A section by type, instance and variant. -/
def findSect (ss : List Sect) (typ inst variant : Nat) : Option Sect :=
  ss.find? fun x => x.typ == typ && x.inst == inst && x.variant == variant

/-- The section in force in a variant: its own, or the base section (R295). -/
def sectOf (ss : List Sect) (typ inst variant : Nat) : Option Sect :=
  match findSect ss typ inst variant with
  | some x => some x
  | none => findSect ss typ inst 0

/-- Entry `i` of size `n` of a section. -/
def Sect.entry (x : Sect) (n i : Nat) : List Byte := (x.data.drop (n * i)).take n

/-- The entries of size `n` of a section. -/
def Sect.entries (x : Sect) (n : Nat) : List (List Byte) := (List.range x.count).map (x.entry n)

/-! ## Departures and templates (R284, R306) -/

/-- A departure entry. -/
def depOf (e : List Byte) : Departure :=
  { fret := leAt e 0 4, phase := leAt e 4 2, slot := leAt e 6 1, cond := bit (leAt e 7 1) 0, template := leAt e 8 2 }

/-- The departures and templates of an OUTBOX section. -/
def outTableOf (x : Sect) : OutTable :=
  { deps := (x.entries 16).map depOf,
    templates := (List.range ((x.data.length - 16 * x.count) / 64)).map fun i =>
      BitVec.ofNat 512 (leNat ((x.data.drop (16 * x.count + 64 * i)).take 64)) }

/-- The routes of a template up to the first LOCAL or TREE are legal, entry 0 is a port, and the route ends as KIND needs
(R305, R306); entries after a LOCAL are 0. -/
def routeOk (kind f : Nat) : Bool :=
  let es := (List.range 16).map (hRoute f)
  match es.findIdx? (fun e => e == 8 || e == 10) with
  | none => false
  | some i =>
    i ≠ 0 && hRoute f 0 < 8 && (es.take i).all (fun e => e < 8 || e == 9) && es.getD i 0 == (if kind = 0 then 8 else 10) &&
    (kind ≠ 0 || (es.drop (i + 1)).all (· == 0))

/-- A header template is well formed (R306). -/
def templateOk (f : Nat) : Bool :=
  hPlane f == 0 && (VH.kind f == 0 || VH.kind f == 1) && 1 ≤ VH.len f && VH.len f ≤ 25 && routeOk (VH.kind f) f &&
  !isFlat (VH.dest f) && unitOf (VH.dest f) < 0x200 && !VH.epoch f && !VH.void f && !VH.replay f && VH.hop f == 0 && VH.stamp f == 0 &&
  VH.transit f == 0 && VH.seq f == 0 && VH.src f == 0 && VH.poison f == 0 && hb f 60 4 == 0 && !VH.reserved f

/-- The departures of a slot in a phase. -/
def phaseDeps (t : OutTable) (phase slot : Nat) : List Departure :=
  t.deps.filter fun d => d.slot == slot && (d.phase == phase || d.phase == 0xFFFF)

/-- Whether two outbox tables give every slot, in every phase, the same number of departures (R284). -/
def sameCounts (l : Nat) (a b : OutTable) : Bool :=
  (List.range l).all fun ph => (List.range 32).all fun sl => (phaseDeps a ph sl).length == (phaseDeps b ph sl).length

/-- An OUTBOX section is well formed (R284). -/
def outboxOk (h : Hdr) (ss : List Sect) (x : Sect) : Bool :=
  let t := outTableOf x
  16 * x.count ≤ x.data.length && (x.data.length - 16 * x.count) % 64 == 0 &&
  (x.entries 16).all (fun e => leAt e 7 1 ≤ 1 && zeroAt e 10 6) &&
  t.deps.all (fun d => 8 ≤ d.fret && d.fret < 64 * h.periodN && (d.phase < h.cycle || d.phase == 0xFFFF) && d.slot ≤ 31 &&
    d.template < t.templates.length) &&
  pairwise (fun a b => a.slot < b.slot || (a.slot == b.slot && a.fret < b.fret)) t.deps &&
  t.templates.all (fun f => templateOk f.toNat) &&
  (x.variant == 0 || sameCounts h.cycle t ((findSect ss 3 x.inst 0).elim {} outTableOf))

/-! ## Fret maps and routes (R301, R302, R316) -/

/-- The frets of a fret map entry. -/
def entryFrets (e : Nat) : List Nat := (List.range (field e 20 12 + 1)).map fun i => field e 0 20 + i * field e 32 12

/-- A FRET_MAP section is well formed (R302). -/
def fretMapOk (h : Hdr) (ss : List Sect) (x : Sect) : Bool :=
  let q := 2 ^ leAt x.data 0 1
  let es := (List.range x.count).map fun i => leNat ((x.data.drop (8 + 8 * i)).take 8)
  let frets := es.flatMap entryFrets
  x.data.length == 8 + 8 * x.count && 3 ≤ leAt x.data 0 1 && leAt x.data 0 1 ≤ 8 && 1 ≤ leAt x.data 1 1 && zeroAt x.data 2 6 &&
  x.count ≤ 2048 &&
  es.all (fun e => field e 48 16 == 0 && field e 44 4 ≤ 8 && 1 ≤ field e 32 12 && field e 44 4 ≠ x.inst) &&
  frets.all (fun f => f < 64 * h.periodN && f % q ≠ q - 1) && pairwise (fun a b => a != b) frets &&
  (x.variant == 0 || (match findSect ss 7 x.inst 0 with
    | some b => x.data.take 2 == b.data.take 2
    | none => true))

/-- A ROUTES section is well formed for a device of board index `own` within its rack (R316). -/
def routesOk (own : Nat) (x : Sect) : Bool :=
  let es := x.entries 16
  x.data.length == 16 * x.count &&
  es.all (fun e => leAt e 0 1 < 16 && leAt e 1 1 < 8 && zeroAt e 2 6 && leAt e 8 8 ≠ 0 && !bit (leAt e 8 8) own) &&
  pairwise (fun a b => leAt a 0 1 != leAt b 0 1 || (leAt a 1 1 != leAt b 1 1 && leAt a 8 8 &&& leAt b 8 8 == 0)) es

/-! ## Segments (R287, R290) -/

/-- A segment as the image declares it. -/
structure SegDecl where
  kind : Nat
  access : Nat
  place : Nat
  align : Nat
  flags : Nat
  size : Nat
  off : Nat
  clean : Bool
  deriving DecidableEq, Repr

/-- The segment declarations of an image. -/
def segDecls (ss : List Sect) : List SegDecl :=
  match findSect ss 9 0 0 with
  | none => []
  | some x => (x.entries 32).map fun e =>
    { kind := leAt e 0 1, access := leAt e 1 1, place := leAt e 2 1, align := leAt e 3 1, flags := leAt e 4 1,
      size := leAt e 8 8, off := leAt e 16 8, clean := zeroAt e 5 3 && zeroAt e 24 8 }

/-- One segment is well formed on a device in board slot `b`. -/
def declOk (b : Nat) (g : SegDecl) : Bool :=
  g.clean && g.kind ≤ 4 && g.access ≤ 3 && (g.kind ≠ 4 || g.access == 1) &&
  (if g.kind = 2 then g.place ≤ 7 && g.place ≠ b else if g.kind = 3 then g.place ≤ 15 else g.place == 0) &&
  16 ≤ g.align && g.align ≤ 40 && g.flags ≤ 7 && g.size % 65536 == 0 && 65536 ≤ g.size && g.size ≤ 2 ^ 40 &&
  (if 1 ≤ g.kind ∧ g.kind ≤ 3 then g.off % 2 ^ g.align == 0 && g.off + g.size ≤ 2 ^ 40 else g.off == 0)

/-- The phases of an image have an INPUT phase (R283). -/
def hasInput (ss : List Sect) : Bool :=
  match findSect ss 0xB 0 0 with
  | none => false
  | some x => (x.entries 16).any fun e => bit (leAt e 8 4) 0

/-- The request-queue segments are as R290 needs. -/
def requestSegOk (ss : List Sect) (gs : List SegDecl) : Bool :=
  let idx := below gs.length fun i => (gs.getD i ⟨0, 0, 0, 0, 0, 0, 0, true⟩).flags / 4 == 1
  (if hasInput ss then idx.length == 1 else idx.length ≤ 1) &&
  idx.all fun i => match gs[i]? with
    | none => false
    | some g => g.kind == 0 && g.access == 3 && !bit g.flags 1 && 0x450000 ≤ g.size && (findSect ss 0xA i 0).isNone

/-! ## Relocation and patch records (R291, R292) -/

/-- A record: target offset and section, kind, segment or source, shift, addend. -/
structure Record where
  off : Nat
  target : Nat
  kind : Nat
  src : Nat
  shift : Nat
  addend : Int
  clean : Bool

/-- A RELOC or PATCH record. -/
def recOf (e : List Byte) : Record :=
  { off := leAt e 0 8, target := leAt e 8 2, kind := leAt e 10 1, src := leAt e 11 1, shift := leAt e 12 1,
    addend := signedOf 64 (leAt e 16 8), clean := zeroAt e 13 3 }

/-- The records of a section type. -/
def recordsOf (ss : List Sect) (typ : Nat) : List Record :=
  match findSect ss typ 0 0 with
  | none => []
  | some x => (x.entries 24).map recOf

/-- Where a code kind writes in a bundle: lowest bit, width, and whether the value must fit signed; none where the slot
does not hold an operation of the named format (R291). -/
def insertAt (kind bundle : Nat) : Option (Nat × Nat × Bool) :=
  let h := field bundle 0 16
  let op (b : Nat) (s : Slot) (raw : Nat) (d : Nat → SlotDecode) := decodePart s (bit h b) true raw d
  match kind with
  | 1 => match op 0 .c (field bundle 16 32) decodeC with
    | .op (.movk ..) => some (16, 16, false)
    | _ => none
  | 2 => match op 0 .c (field bundle 16 32) decodeC with
    | .op (.movi ..) => some (16, 20, true)
    | _ => none
  | 3 => match op 0 .c (field bundle 16 32) decodeC with
    | .op (.alu _ _ _ (.imm _)) => some (16, 16, true)
    | _ => none
  | 4 => match op 1 .l (field bundle 48 40) decodeL with
    | .op (.ldv ..) | .op (.stv ..) => some (48, 24, true)
    | .op (.lds ..) | .op (.sts ..) => some (48, 22, true)
    | .op (.ldw ..) => some (48, 23, true)
    | _ => none
  | 5 => match op 2 .x (field bundle 88 40) decodeX with
    | .op (.ldqv ..) => some (88, 19, true)
    | .op (.stqv ..) => some (88, 13, true)
    | _ => none
  | _ => none

/-- Bytes a data kind writes, and whether the value must fit them unsigned. -/
def dataKind : Nat → Option (Nat × Bool)
  | 0x10 => some (8, false)
  | 0x11 => some (6, true)
  | 0x12 => some (4, true)
  | _ => none

/-- Whether a record is valid against the sections (check 5). -/
def recordOk (ss : List Sect) (legalSrc : Nat → Bool) (r : Record) : Bool :=
  r.clean && r.shift ≤ 47 && legalSrc r.src &&
  match ss[r.target]? with
  | none => false
  | some x =>
    match dataKind r.kind with
    | some (n, _) => r.off + n ≤ x.data.length
    | none => x.typ == 1 && r.off % 32 == 0 && r.off + 32 ≤ x.data.length &&
        (insertAt r.kind (leAt x.data r.off 32)).isSome

/-- Whether a value fits `n` bits as two's complement. -/
def fitsSigned (n : Nat) (v : Int) : Bool := -(2 ^ (n - 1) : Nat) ≤ v && v < (2 ^ (n - 1) : Nat)

/-- Replace bytes of a list. -/
def putBytes (bs : List Byte) (o : Nat) (new : List Byte) : List Byte := bs.take o ++ new ++ bs.drop (o + new.length)

/-- Apply a record whose value is `v` before the shift; none where it does not fit its field (check 10). -/
def applyRecord (ss : List Sect) (v : Int) (r : Record) : Option (List Sect) :=
  let v := (v + r.addend) / (2 ^ r.shift : Nat)
  match ss[r.target]? with
  | none => none
  | some x =>
    match dataKind r.kind with
    | some (n, must) =>
      if must ∧ ¬(0 ≤ v ∧ v < (2 ^ (8 * n) : Nat)) then none
      else some (ss.set r.target { x with data := putBytes x.data r.off (leBytes n (ofSigned (8 * n) v)) })
    | none =>
      let w := leAt x.data r.off 32
      match insertAt r.kind w with
      | none => none
      | some (lo, n, must) =>
        if must && !fitsSigned n v then none
        else some (ss.set r.target { x with data := putBytes x.data r.off (leBytes 32 (putField w lo n (ofSigned n v))) })

/-- Apply records in order. -/
def applyRecords (value : Record → Int) : List Record → List Sect → Option (List Sect)
  | [], ss => some ss
  | r :: rs, ss =>
    match applyRecord ss (value r) r with
    | none => none
    | some ss' => applyRecords value rs ss'

/-! ## Every section (R282 to R295) -/

/-- A HOLES record is well formed in an image of a version (R293, R296). -/
def holeOk (h : Hdr) (e : List Byte) : Bool :=
  zeroAt e 1 1 && zeroAt e 8 8 && leAt e 2 2 < h.cycle &&
  ((leAt e 0 1 == 2 && leAt e 4 2 ≤ leAt e 6 2 && leAt e 6 2 < 512) ||
   (leAt e 0 1 == 1 && h.version == 3 && zeroAt e 4 4))

/-- A MOE record is well formed (R294): the figures in the ranges of R167, POLICY 0 RESIDUAL or 1 DEFER (R173). -/
def moeOk (e : List Byte) : Bool :=
  let policy := leAt e 5 1
  let capT := leAt e 10 2
  1 ≤ leAt e 2 2 && leAt e 2 2 ≤ 256 && leAt e 4 1 ≤ 8 && 1 ≤ leAt e 8 2 && 1 ≤ capT && policy ≤ 1 && leAt e 6 1 ≤ 1 && zeroAt e 7 1 && zeroAt e 18 6 && capT + leAt e 12 2 ≤ 65535 &&
  !(policy == 0 && (leAt e 12 2 ≠ 0 || leAt e 14 2 ≠ 0)) &&
  !(bit (leAt e 6 1) 0 && (capT < leAt e 8 2 || policy ≠ 0))

/-- A DETOUR section is well formed (R295). -/
def detourOk (x : Sect) : Bool :=
  x.data.length == 16 && [0, 8].all (fun o => !isFlat (leAt x.data o 4) && unitOf (leAt x.data o 4) == 0x7FFF &&
    leAt x.data (o + 4) 1 ≤ 7 && zeroAt x.data (o + 5) 3)

/-- The link a DETOUR section names, the ends in a fixed order. -/
def detourLink (x : Sect) : Nat × Nat :=
  let a := leAt x.data 0 5
  let b := leAt x.data 8 5
  if a ≤ b then (a, b) else (b, a)

/-- Whether INSTANCE is in range for a type. -/
def instOk (nseg : Nat) (x : Sect) : Bool :=
  if x.typ = 1 ∨ x.typ = 2 ∨ x.typ = 3 ∨ x.typ = 4 ∨ x.typ = 5 then x.inst < 512
  else if x.typ = 6 then x.inst < 32
  else if x.typ = 7 then x.inst < 8
  else if x.typ = 0xA then x.inst < nseg
  else x.inst == 0

/-- Whether VARIANT is legal for a type. -/
def variantOk (h : Hdr) (x : Sect) : Bool :=
  if x.typ = 3 ∨ x.typ = 7 ∨ x.typ = 8 then x.variant ≤ h.variants
  else if x.typ = 0x10 then 1 ≤ x.variant && x.variant ≤ h.variants
  else x.variant == 0

/-- Whether the sections after `fix` bytes hold COUNT entries of `n` bytes. -/
def Sect.sized (x : Sect) (n : Nat) : Bool := x.data.length == n * x.count

/-- A section is well formed (check 5). `b` is the own board slot, `own` the own rack-local index. -/
def sectOk (h : Hdr) (b own : Nat) (ss : List Sect) (x : Sect) : Bool :=
  let gs := segDecls ss
  instOk gs.length x && variantOk h x &&
  match x.typ with
  | 0x1 => x.data.length % 32 == 0 && x.data.length ≤ 262144
  | 0x2 => x.sized 4 && x.count == h.cycle && (x.entries 4).all fun e => leAt e 0 4 &&& 0xFFFF6000 == 0
  | 0x3 => outboxOk h ss x
  | 0x4 => x.sized 4 && x.count == 64 && (x.entries 4).all fun e => leAt e 0 4 ≤ 3
  | 0x5 => x.sized 1 && x.count == 64 && (x.entries 1).all fun e => leAt e 0 1 ≤ 63 || leAt e 0 1 == 0xFF
  | 0x6 => x.sized 8 && x.count == 64 && (x.entries 8).all (fun e => leAt e 0 1 ≤ 2 && leAt e 1 1 ≤ 128 &&
      leAt e 2 2 ≤ 256 && zeroAt e 4 4) && (x.entries 8).foldl (fun n e => n + leAt e 2 2) 0 ≤ 2048
  | 0x7 => fretMapOk h ss x
  | 0x8 => routesOk own x
  | 0x9 => x.sized 32 && x.count ≤ 64 && gs.all (declOk b) && (gs.filter (·.kind == 4)).length ≤ 1
  | 0xA => x.data.length ≤ (gs[x.inst]?.elim 0 (·.size))
  | 0xB => x.sized 16 && x.count == h.cycle && (x.entries 16).all fun e =>
      leAt e 4 4 ≤ leAt e 0 4 && leAt e 8 4 ≤ 1 && zeroAt e 12 4
  | 0xC => x.sized 24
  | 0xD => x.sized 24
  | 0xE => x.sized 16 && (x.entries 16).all (holeOk h)
  | 0xF => x.sized 24 && (x.entries 24).all moeOk
  | 0x10 => detourOk x
  | _ => false

/-- Check 5 over the sections: each well formed, the phases declared, every variant with its link, one request-queue
segment where R290 needs it, and every record valid. -/
def sectsOk (h : Hdr) (b own : Nat) (ss : List Sect) : Bool :=
  ss.all (sectOk h b own ss) && (findSect ss 0xB 0 0).isSome &&
  (List.range h.variants).all (fun v => (findSect ss 0x10 0 (v + 1)).isSome) &&
  pairwise (fun x y => detourLink x != detourLink y) (ss.filter (·.typ == 0x10)) &&
  requestSegOk ss (segDecls ss) &&
  (recordsOf ss 0xC).all (recordOk ss (· < (segDecls ss).length)) &&
  (recordsOf ss 0xD).all (recordOk ss fun k => 1 ≤ k && k ≤ 5)

/-! ## Placement (R297) -/

/-- Offsets at which the loader places a segment of size `n` with alignment `a` beside the placed ranges: the lowest free
one below the firmware region. -/
def lowestFree (placed : List (Nat × Nat)) (a n : Nat) : Option Nat :=
  let cands := (0 :: placed.map fun r => r.1 + r.2).map fun o => cdiv o (2 ^ a) * 2 ^ a
  let ok := cands.filter fun o => o + n ≤ 0xFF00000000 && placed.all fun r => !overlap o n r.1 r.2
  match ok with
  | [] => none
  | o :: os => some (os.foldl min o)

/-- Place the segments of kind LOCAL or CODE in index order; the result gives every segment its base, none if one does not
fit. -/
def placeSegs (b : Nat) : List SegDecl → List (Nat × Nat) → Option (List Segment)
  | [], _ => some []
  | g :: gs, placed =>
    let seg (base : Nat) : Segment := { kind := g.kind, access := g.access, base := base, size := g.size }
    match g.kind with
    | 1 => (placeSegs b gs placed).map (seg (b * 2 ^ 40 + g.off) :: ·)
    | 2 => (placeSegs b gs placed).map (seg (g.place * 2 ^ 40 + g.off) :: ·)
    | 3 => (placeSegs b gs placed).map (seg (2 ^ 44 + g.place * 2 ^ 40 + g.off) :: ·)
    | _ =>
      match lowestFree placed g.align g.size with
      | none => none
      | some o => (placeSegs b gs ((o, g.size) :: placed)).map (seg (b * 2 ^ 40 + o) :: ·)

/-- Check 9: every segment placed, none overlapping another, none in a firmware region (R289). -/
def placeAll (b : Nat) (gs : List SegDecl) : Option (List Segment) :=
  match placeSegs b gs ((gs.filter (·.kind == 1)).map fun g => (g.off, g.size)) with
  | none => none
  | some segs =>
    if pairwise (fun x y => !overlap x.base x.size y.base y.size) segs &&
        gs.all (fun g => g.kind = 3 || g.kind = 0 || g.kind = 4 || g.off + g.size ≤ 0xFF00000000) then some segs
    else none

end Sys2Proof.Machine
end

