-- ==== Sys2Proof/Machine/Almanac.lean ====
section
/-!
DEFINITION. The almanac (15, R398, R399): its records and whether it is well formed, the links it names, and the service
routes firmware computes from it (R413).
-/
namespace Sys2Proof.Machine

/-! ## Records (R398, R399) -/

/-- Coordinate form with unit 0x7FFF. -/
def isCoord (a : Nat) : Bool := !isFlat a && unitOf a == 0x7FFF

/-- Entry `i` of `n` bytes of the records at offset `o`. -/
def recAt (b : List Byte) (o n i : Nat) : List Byte := (b.drop (o + n * i)).take n

/-- A device record. -/
def devRec (e : List Byte) : DevRec :=
  { coord := leAt e 0 4, role := leAt e 4 1, time := leAt e 5 1, parents := leAt e 6 1, identity := (e.drop 8).take 32 }

/-- A PARENT nibble is a port or none. -/
def parentOk (v : Nat) : Bool := v ≤ 7 || v == 15

/-- A device record is well formed. -/
def devRecOk (e : List Byte) : Bool :=
  isCoord (leAt e 0 4) && leAt e 4 1 ≤ 2 && leAt e 5 1 < 16 && parentOk (leAt e 6 1 % 16) && parentOk (leAt e 6 1 / 16) &&
  zeroAt e 7 1 && zeroAt e 40 24

/-- A link record. -/
def linkRec (e : List Byte) : LinkRec :=
  { end0 := leAt e 0 4, port0 := leAt e 4 1, kind := leAt e 5 1, end1 := leAt e 8 4, port1 := leAt e 12 1,
    asym := leAt e 16 4, budget0 := leAt e 20 4, budget1 := leAt e 24 4 }

/-- A link record is well formed. -/
def linkRecOk (e : List Byte) : Bool :=
  let l := linkRec e
  isCoord l.end0 && l.port0 ≤ 7 && zeroAt e 6 2 && zeroAt e 13 3 && zeroAt e 28 4 &&
  (match l.kind with
   | 0 => isCoord l.end1 && l.port1 ≤ 7 && l.end0 < l.end1
   | 1 => field l.end1 31 1 == 0 && field l.end1 16 4 == 0 && l.port1 == 0 && l.budget1 == 0
   | _ => false)

/-- Whether two links share an end. -/
def shareEnd (x y : LinkRec) : Bool :=
  let ends (l : LinkRec) : List (Nat × Nat) := (l.end0, l.port0) :: (if l.kind = 0 then [(l.end1, l.port1)] else [])
  (ends x).any (ends y).contains

/-- Key by which link records are sorted. -/
def linkKey (l : LinkRec) : Nat := l.end0 * 256 + l.port0

/-- The records and header fields of an almanac that is well formed under R398 and R399, none otherwise. -/
def parseAlmanac (b : List Byte) : Option Almanac :=
  let nd := leAt b 28 4
  let nl := leAt b 32 4
  let nf := leAt b 36 2
  let nr := leAt b 20 2
  let secs := [(leAt b 40 8, 64 * nd), (leAt b 48 8, 32 * nl), (leAt b 56 8, 8 * nf), (leAt b 64 8, 8 * nr)]
  let devs := (List.range nd).map (recAt b (leAt b 40 8) 64)
  let lnks := (List.range nl).map (recAt b (leAt b 48 8) 32)
  let flts := (List.range nf).map (recAt b (leAt b 56 8) 8)
  let rks := (List.range nr).map (recAt b (leAt b 64 8) 8)
  let headOk := 128 + 7856 ≤ b.length && b.length ≤ 2 ^ 24 && leAt b 0 4 == 0x4D4C415A && leAt b 4 2 == 1 && leAt b 6 2 < 4 &&
    leAt b 8 8 ≠ 0 && leAt b 16 4 ≠ 0 && 1 ≤ nr && nr ≤ 1024 && 2 ≤ leAt b 22 1 && leAt b 22 1 ≤ 8 && 4 ≤ leAt b 23 1 &&
    nf ≤ 1024 && zeroAt b 38 2 && leAt b 72 8 == b.length && zeroAt b 80 16 &&
    secs.all (fun r => r.2 == 0 || (128 ≤ r.1 && r.1 + r.2 ≤ b.length - 7856)) &&
    pairwise (fun x y => !overlap x.1 x.2 y.1 y.2) secs
  let recsOk := devs.all devRecOk && lnks.all linkRecOk &&
    flts.all (fun e => leAt e 0 2 < 1024 && zeroAt e 2 2 && !isFlat (leAt e 4 4)) &&
    rks.all (fun e => leAt e 0 2 < 1024 && 1 ≤ leAt e 3 1 && leAt e 3 1 ≤ 2 && zeroAt e 4 4)
  let a : Almanac :=
    { twisted := bit (leAt b 6 2) 0, switchSym := bit (leAt b 6 2) 1, id := leAt b 8 8, seq := leAt b 16 4,
      vcCount := leAt b 22 1, detourLead := leAt b 23 1, controlBoundNs := leAt b 24 4, devices := devs.map devRec,
      links := lnks.map linkRec, flats := flts.map fun e => (leAt e 0 2, leAt e 4 4),
      racks := rks.map fun e => (leAt e 0 2, leAt e 2 1, leAt e 3 1), raw := b }
  if headOk && recsOk && pairwise (fun x y => x.coord < y.coord) a.devices &&
      pairwise (fun x y => linkKey x < linkKey y && !shareEnd x y) a.links then some a
  else none

/-- SIGNER of an almanac (R398). -/
def almanacSigner (b : List Byte) : List Byte := (b.drop 96).take 32
/-- The bytes the signature covers, and the signature. -/
def almanacSigned (b : List Byte) : List Byte × List Byte := (b.take (b.length - 7856), b.drop (b.length - 7856))

/-! ## Links -/

/-- The link record of a port of the device at `addr`, and whether the device is END0. -/
def Almanac.linkOf (a : Almanac) (addr port : Nat) : Option (LinkRec × Bool) :=
  a.links.findSome? fun l =>
    if l.end0 = addr ∧ l.port0 = port then some (l, true)
    else if l.kind = 0 ∧ l.end1 = addr ∧ l.port1 = port then some (l, false)
    else none

/-- The far end of a port: address (END1 form for a switch) and port. -/
def Almanac.farEnd (a : Almanac) (addr port : Nat) : Option (Nat × Nat) :=
  (a.linkOf addr port).map fun r => if r.2 then (r.1.end1, r.1.port1) else (r.1.end0, r.1.port0)

/-- The device record of a coordinate. -/
def Almanac.device (a : Almanac) (addr : Nat) : Option DevRec := a.devices.find? (·.coord == addr)

/-! ## Service routes (R413) -/

/-- Ring position of a coordinate value (R393). -/
def ringPos (v : Nat) : Nat := [0, 1, 3, 2].getD v 0

/-- Value of an axis (0 X, 1 Y, 2 Z) of a coordinate address. -/
def axisOf (addr axis : Nat) : Nat := if axis = 0 then coordX addr else if axis = 1 then coordY addr else coordZ addr

/-- The port towards a value along an axis: + for one or two steps forward, − for one back. -/
def axisPort (addr dest axis : Nat) : Nat :=
  if (ringPos (axisOf dest axis) + 4 - ringPos (axisOf addr axis)) % 4 = 3 then 2 * axis + 1 else 2 * axis

/-- The ports of a walk that settles the axes in order, and where it ends; `fuel` bounds the steps of each axis. -/
def Almanac.walk (a : Almanac) (bad : Nat → Nat → Bool) (dest : Nat) : Nat → List Nat → Nat → Option (List Nat × Nat)
  | 0, _, _ => none
  | _ + 1, [], cur => some ([], cur)
  | fuel + 1, ax :: rest, cur =>
    if axisOf cur ax = axisOf dest ax then a.walk bad dest fuel rest cur
    else
      let p := axisPort cur dest ax
      if bad cur p then none else
      match a.farEnd cur p with
      | none => none
      | some (next, _) => (a.walk bad dest fuel (ax :: rest) next).map fun r => (p :: r.1, r.2)

/-- The word of a route: its entries from bit 0 (R305, R350). -/
def routeWord (es : List Nat) : Nat := (List.range es.length).foldl (fun w i => w + es.getD i 0 % 16 * 2 ^ (4 * i)) 0

/-- Up to four routes from `own` to `dest`: within the rack each a different order of the axes, to another rack by the
spine planes; a route over a bad link is left out. -/
def Almanac.routes (a : Almanac) (bad : Nat → Nat → Bool) (own dest : Nat) : List Nat :=
  if coordRack own = coordRack dest then
    let orders := [[0, 1, 2], [0, 2, 1], [1, 0, 2], [1, 2, 0], [2, 0, 1], [2, 1, 0]]
    let found := orders.filterMap fun o => (a.walk bad dest 13 o own).bind fun r =>
      if r.2 = dest ∧ r.1 ≠ [] then some (routeWord (r.1 ++ [8])) else none
    found.eraseDups.take 4
  else
    [6, 7].filterMap fun p =>
      if (a.farEnd own p).isSome && (a.farEnd dest p).isSome && !bad own p && !bad dest p then some (routeWord [p, 9, 8]) else none

/-- The port outputs a route crosses, from the device at `cur`: those of devices, by address and port. -/
def Almanac.outputsOf (a : Almanac) (w : Nat) : Nat → Nat → Nat → List (Nat × Nat)
  | 0, _, _ => []
  | fuel + 1, i, cur =>
    let e := w / 2 ^ (4 * i) % 16
    if e ≥ 8 then []
    else (cur, e) :: (match a.farEnd cur e with
      | some (next, _) => if e < 6 then a.outputsOf w fuel (i + 1) next else []
      | none => [])

/-- The service transit budget of a port output (R399). -/
def Almanac.budgetOf (a : Almanac) (o : Nat × Nat) : Nat :=
  match a.linkOf o.1 o.2 with
  | some (l, first) => if first then l.budget0 else l.budget1
  | none => 0

end Sys2Proof.Machine
end

