-- ==== Sys2Proof/Machine/Program.lean ====
section
/-!
DEFINITION. Loading and arming a program (11, R276, R297, R298): the checks of PROG_LOAD in their order, placement, relocation
and patching, what PROG_ARM writes into the hardware, and the tables of a detour variant (R295, R329).
-/
namespace Sys2Proof.Machine

/-! ## Status codes (R468) -/

namespace Status
def ok : Nat := 0x0000
def accepted : Nat := 0x0001
def badArg : Nat := 0x0100
def badLength : Nat := 0x0101
def busyDeferred : Nat := 0x0200
def queueFull : Nat := 0x0201
def notPermitted : Nat := 0x0300
def aborted : Nat := 0x0400
def signatureInvalid : Nat := 0x0500
def energyDenied : Nat := 0x0600
def topologyMismatch : Nat := 0x0700
def notArmed : Nat := 0x0701
def deviceFault : Nat := 0x0800
end Status

/-! ## Footprint ports (R405) -/

/-- Ports for which the sections of a variant hold a FRET_MAP. -/
def mapPorts (ss : List Sect) (v : Nat) : List Nat := below 8 fun p => (findSect ss 7 p v).isSome

/-- Discovery outcome of a port (R404): 1 MATCH. -/
def State.outcome (s : State) (p : Nat) : Nat := s.fget (R.topPortNDisc p) F.topPortNDisc_OUTCOME

/-- A port is UP with outcome MATCH. -/
def State.matched (s : State) (p : Nat) : Bool := s.portUp p && s.outcome p == 1

/-- A footprint port counts against the footprint: MISSING, quarantined or down. -/
def State.portLacks (s : State) (p : Nat) : Bool :=
  !s.portUp p || s.fget (R.topPortNDisc p) F.topPortNDisc_MISSING == 1 || s.fget (R.lnkCtl p) F.lnkCtl_QUARANTINE == 1

/-- The variant whose DETOUR record names port `p` of this device (R295). -/
def State.variantFor (s : State) (ss : List Sect) (p : Nat) : Option Nat :=
  (ss.filter (·.typ == 0x10)).findSome? fun x =>
    if (leAt x.data 0 4 = s.coord ∧ leAt x.data 4 1 = p) ∨ (leAt x.data 8 4 = s.coord ∧ leAt x.data 12 1 = p) then some x.variant
    else none

/-- Check 7: the schedule to load, 0 for the base, none on a mismatch (R405). -/
def State.fitVariant (s : State) (ss : List Sect) : Option Nat :=
  match (mapPorts ss 0).filter s.portLacks with
  | [] => some 0
  | [p] => match s.variantFor ss p with
    | some v => if (mapPorts ss v).all s.matched then some v else none
    | none => none
  | _ => none

/-! ## PROG_LOAD (R297) -/

/-- Result of a load: status, failing check, district of check 8. -/
structure LoadRes where
  status : Nat
  check : Nat := 0
  district : Nat := 0
  variant : Nat := 0

/-- Bundles of version 3 code converted (R296), none where one has no conversion, or the code is no whole number of bundles (R282). A
converted bundle has FORMAT 0b10 (R123). -/
def convertCode (bs : List Byte) : Option (List Byte) :=
  if bs.length % 32 ≠ 0 then none else
  (List.range (bs.length / 32)).foldl (fun acc i => acc.bind fun out =>
    (Config.convertBundle (BitVec.ofNat 256 (leAt bs (32 * i) 32))).map fun w =>
      out ++ leBytes 32 (putField w.toNat 14 2 2)) (some [])

/-- The sections of an image, version 3 code converted. -/
def imageSects (h : Hdr) (b : List Byte) : Option (List Sect) :=
  (sections b).foldr (fun x acc => acc.bind fun out =>
    if h.version = 3 ∧ x.typ = 1 then (convertCode x.data).map fun d => { x with data := d } :: out else some (x :: out)) (some [])

/-- Logical tiles with a BLOCKS section. -/
def blockTiles (ss : List Sect) : List Nat := (ss.filter (·.typ == 2)).map (·.inst)

/-- Districts whose stretch history breaks the guard (R276). -/
def State.guardFails (s : State) (h : Hdr) (ss : List Sect) : List Nat :=
  below 32 fun d => (blockTiles ss).any (· / 16 == d) && h.guardBp < s.stretchBp d + s.cfg.margin

/-- Index of the request-queue segment (R290). -/
def requestIndex (gs : List SegDecl) : Option Nat := gs.findIdx? fun g => bit g.flags 2

/-- Value of a PATCH source (R292). -/
def State.patchValue (s : State) (ss : List Sect) (segs : List Segment) (r : Record) : Int :=
  match r.src with
  | 1 => (s.coord / 2 ^ 15 * 2 ^ 15 : Nat)
  | 2 => (s.ownSlot * 2 ^ 40 : Nat)
  | 3 => (match (requestIndex (segDecls ss)).bind (segs[·]?) with | some g => g.base | none => 0 : Nat)
  | 4 => (Config.streamBase.val : Nat)
  | _ => (Config.hostFlatId : Nat)

/-- Sections after relocation and patching, none where a value does not fit or a written section is no longer well formed
(check 10). -/
def State.prepare (s : State) (h : Hdr) (ss : List Sect) (segs : List Segment) : Option (List Sect) :=
  match applyRecords (fun r => (match segs[r.src]? with | some g => (g.base : Int) | none => 0)) (recordsOf ss 0xC) ss with
  | none => none
  | some s1 =>
    match applyRecords (s.patchValue ss segs) (recordsOf ss 0xD) s1 with
    | none => none
    | some s2 => if sectsOk h s.ownSlot (coordX s.coord + 4 * coordY s.coord + 16 * coordZ s.coord) s2 then some s2 else none

/-- Zero a range of the local slot. -/
def State.hbmZero (s : State) (off len : Nat) : State :=
  { s with hbm := Mem.zero s.hbm off len
           hbmPoison := s.hbmPoison.filter fun u => !(off ≤ 64 * u && 64 * u + 64 ≤ off + len) }

/-- Fill one segment (R297): zeroed if ZERO_INIT, then its SEGMENT_DATA. A BOARD segment lies in another device, which firmware writes
through the service plane; a HOST segment in the window it will bind (R190). -/
def State.fillSeg (s : State) (ss : List Sect) (gs : List SegDecl) (i : Nat) (g : Segment) : State :=
  let off := g.base % 2 ^ 40
  let zero := bit (gs[i]?.elim 0 (·.flags)) 0
  let data := (findSect ss 0xA i 0).map (·.data)
  match g.kind with
  | 2 =>
    if !zero && data.isNone then s else
    { s with stw := { s.stw with fills := s.stw.fills ++ [{ base := g.base, zeroed := if zero then g.size else 0, data := data.getD [] }] } }
  | 3 =>
    let w := Config.hostWindow ((g.base - 2 ^ 44) / 2 ^ 40)
    if w.2 < off + g.size then s else
    let m := if zero then Mem.zero s.stw.toHost (w.1 + off) g.size else s.stw.toHost
    { s with stw := { s.stw with toHost := match data with | some bs => Mem.wrBytes m (w.1 + off) bs | none => m } }
  | _ =>
    let s1 := if zero then s.hbmZero off g.size else s
    match data with
    | some bs => s1.hbmWrite off bs fun _ => false
    | none => s1

/-- The checks and the work of PROG_LOAD, in the order of R297. -/
def State.loadImage (s0 : State) (b : List Byte) : LoadRes × State :=
  let s := s0.foldStretch
  let own := coordX s.coord + 4 * coordY s.coord + 16 * coordZ s.coord
  let h := imageHdr b
  if s.prog.st ≠ .none ∧ s.prog.st ≠ .loading then ({ status := Status.notPermitted, check := 1 }, s0)
  else if !imageValid b then ({ status := Status.badArg, check := 2 }, s0)
  else if bit (leAt b 8 4) 0 then ({ status := Status.badArg, check := 3 }, s0)
  else if !imageRanges h then ({ status := Status.badArg, check := 4 }, s0)
  else if !headerOk b h || !tableOk b then ({ status := Status.badArg, check := 5 }, s0)
  else match imageSects h b with
  | none => ({ status := Status.badArg, check := 5 }, s0)
  | some ss =>
  if !sectsOk h s.ownSlot own ss then ({ status := Status.badArg, check := 5 }, s0)
  else if h.target ≠ s.coord then ({ status := Status.topologyMismatch, check := 6 }, s0)
  else match s.fitVariant ss with
  | none => ({ status := Status.topologyMismatch, check := 7 }, s0)
  | some v =>
  match s.guardFails h ss with
  | d :: _ => ({ status := Status.notPermitted, check := 8, district := d }, s)
  | [] =>
  match placeAll s.ownSlot (segDecls ss) with
  | none => ({ status := Status.notPermitted, check := 9 }, s)
  | some segs =>
  match s.prepare h ss segs with
  | none => ({ status := Status.badArg, check := 10 }, s)
  | some ready =>
  if (blockTiles ready).any fun l => (s.ptileOf l).isNone then ({ status := Status.deviceFault, check := 11 }, s)
  else
    let gs := segDecls ready
    let s1 := (List.range segs.length).foldl (fun z i => match segs[i]? with
      | some g => z.fillSeg ready gs i g
      | none => z) s
    ({ status := Status.ok, variant := v },
     { s1 with prog := { s1.prog with st := .loaded, hdr := h, secs := ready, segs := segs, variant := v,
                                      firstStream := Config.streamBase.val, streams := 256, failed := [], failedCount := 0,
                                      flooded := [] } })

/-! ## Table versions (R298, R324, R329) -/

/-- Write a port's fret map of a variant into a table version (R301, R302). -/
def State.writeMap (s : State) (p : Nat) (v : Bool) (ss : List Sect) (variant : Nat) : State :=
  match sectOf ss 7 p variant with
  | none => s.fset (R.fabMapCount p) (if v then F.fabMapCount_COUNT_V1 else F.fabMapCount_COUNT_V0) 0
  | some x =>
    let s1 := (List.range x.count).foldl (fun z k =>
      z.setReg (R.fabMapV p (2048 * b2n v + k)) (BitVec.ofNat 64 (leNat ((x.data.drop (8 + 8 * k)).take 8)))) s
    s1.fset (R.fabMapCount p) (if v then F.fabMapCount_COUNT_V1 else F.fabMapCount_COUNT_V0) x.count

/-- Write the reach masks of a variant into a table version (R316). -/
def State.writeReach (s : State) (v : Bool) (ss : List Sect) (variant : Nat) : State :=
  let es := match sectOf ss 8 0 variant with | some x => x.entries 16 | none => []
  (List.range 8).foldl (fun z p => (List.range 16).foldl (fun y t =>
    let m := match es.find? fun e => leAt e 0 1 == t && leAt e 1 1 == p with | some e => leAt e 8 8 | none => 0
    y.setReg (R.fabReachVT p (16 * b2n v + t)) (BitVec.ofNat 64 m)) z) s

/-- Write the departures and templates of a variant into a table version of every tile (R284, R324). -/
def State.writeOut (s : State) (v : Bool) (ss : List Sect) (variant : Nat) : State :=
  (blockTiles ss).foldl (fun z l =>
    match z.ptileOf l with
    | none => z
    | some p =>
      let t := z.tile p
      let o := match sectOf ss 3 l variant with | some x => outTableOf x | none => {}
      z.setTile p { t with tables := if v then { t.tables with out1 := o } else { t.tables with out0 := o } }) s

/-- Write a variant's sections, base sections where it has none of its own, into a table version (R295). -/
def State.writeVersion (s : State) (v : Bool) (variant : Nat) : State :=
  let ss := s.prog.secs
  let s1 := (List.range 8).foldl (fun z p => z.writeMap p v ss variant) s
  (s1.writeReach v ss variant).writeOut v ss variant

/-! ## PROG_ARM (R298, R357, R476) -/

/-- Rates of the bounded queues the image gives a district. -/
def boundedRate (ss : List Sect) (d : Nat) : Nat :=
  match findSect ss 6 d 0 with
  | none => 0
  | some x => (x.entries 8).foldl (fun n e => if leAt e 0 1 = 1 then n + leAt e 1 1 else n) 0

/-- Fixed terms firmware publishes (R200): 420 ns for loads, 380 ns for stores. -/
def lFixRd : Nat := 420
/-- The store term. -/
def lFixWr : Nat := 380

/-- Step 4 of R476: the limits of R199 and the fixed terms of R298. -/
def ratesOk (h : Hdr) (ss : List Sect) : Bool :=
  (List.range 32).all (fun d => boundedRate ss d ≤ 128) && (List.range 32).foldl (fun n d => n + boundedRate ss d) 0 ≤ 1088 &&
  lFixRd ≤ h.lFixRd && lFixWr ≤ h.lFixWr

/-- Step 3 of R476: the flight of every footprint port fits the LINK_FRETS its map assumes, with the partner offset valid
(R309). -/
def State.delaysOk (s : State) (ss : List Sect) (variant : Nat) : Bool :=
  (mapPorts ss variant).all fun p =>
    let l := match findSect ss 7 p variant with | some x => leAt x.data 1 1 | none => 0
    s.flight p ≤ (4 * l * 2 ^ 16 : Nat) - (2 * 2 ^ 16 : Nat) && s.fget (R.ngtPortNOffset p) F.ngtPortNOffset_VALID == 1

/-- Write a tile's code, blocks, LAG values and tag bindings. -/
def State.armTile (s : State) (ss : List Sect) (l : Nat) : State :=
  match s.ptileOf l with
  | none => s
  | some p =>
    let t := s.tile p
    let code := match findSect ss 1 l 0 with | some x => x.data | none => []
    let t1 := (List.range (code.length / 32)).foldl (fun (z : Tile) i =>
      { z with imem := tset 0 z.imem i (BitVec.ofNat 256 (leAt code (32 * i) 32)), imemPoison := sdel z.imemPoison i }) t
    let blocks := match findSect ss 2 l 0 with
      | some x => (x.entries 4).map fun e => BitVec.ofNat 32 (leNat e) | none => []
    let lag := match findSect ss 4 l 0 with | some x => (x.entries 4).map fun e => leAt e 0 1 | none => []
    let qs := match findSect ss 5 l 0 with | some x => (x.entries 1).map fun e => leAt e 0 1 | none => []
    s.setTile p { t1 with tables := { t1.tables with blocks := blocks, lag := lag, queueOf := qs } }

/-- Write a district's queue configurations and the fixed terms (R200, R286). -/
def State.armQueues (s : State) (ss : List Sect) (d : Nat) : State :=
  (List.range 64).foldl (fun z q =>
    let o := R.mqeQcfgN d q
    let z1 := match findSect ss 6 d 0 with
      | none => z
      | some x =>
        let e := x.entry 8 q
        ((z.fset o F.mqeQcfgN_MODE (leAt e 0 1)).fset o F.mqeQcfgN_RATE (leAt e 1 1)).fset o F.mqeQcfgN_DEPTH (leAt e 2 2)
    (z1.fset (R.mqeQboundN d q) F.mqeQboundN_L_FIX_RD lFixRd).fset (R.mqeQboundN d q) F.mqeQboundN_L_FIX_WR lFixWr) s

/-- Bind the windows of the HOST segments (R190). -/
def State.bindWindows (s : State) : State :=
  let ws := (below 16 fun w => s.prog.segs.any fun g => g.kind == 3 && (g.base - 2 ^ 44) / 2 ^ 40 == w)
  { s with wins := ws.map fun w => (w, { base := (Config.hostWindow w).1, len := (Config.hostWindow w).2 }) }

/-- Whether either end of a link is reported not usable by a steward of the rack (R413). -/
def State.linkBad (s : State) (addr port : Nat) : Bool :=
  let has (a p : Nat) : Bool := s.top.reported.any fun r => r.1 == a && r.2.1 == p
  has addr port || (match s.top.active.bind (·.farEnd addr port) with | some (a, p) => has a p | none => false)

/-- Endpoint coordinate of board slot `b` on this device's board (R28). -/
def State.boardCoord (s : State) (b : Nat) : Nat :=
  let c := s.coord
  let c1 := putField c 19 1 (b % 2)
  let c2 := putField c1 17 1 (b / 2 % 2)
  putField c2 15 1 (b / 4 % 2)

/-- The outputs that what a context's peer sends may cross, one entry for each route that does (R344). -/
def State.inOutputs (s : State) (a : Almanac) (n : Nat) : List (Nat × Nat) :=
  match s.resolve (s.ctxDest n) with
  | some d =>
    let peer := deviceOf d * 2 ^ 15 + 0x7FFF
    (a.routes s.linkBad peer s.coord).flatMap fun w => a.outputsOf w 16 0 peer
  | none => []

/-- Whether a window of `w` flits for a context lies within the transit budget of every output its packets may cross, with the windows
this device has granted to others there, each route at its full window (R344). -/
def State.windowFits (s : State) (n w : Nat) : Bool :=
  match s.top.active with
  | none => true
  | some a =>
    let others := s.svc.ctx.flatMap fun e => if e.1 = n ∨ !e.2.rxOn then [] else
      (s.inOutputs a e.1).map fun o => (o, s.fget (R.svcSctxNRx e.1) F.svcSctxNRx_RX_WINDOW)
    let mine := s.inOutputs a n
    mine.all fun o =>
      (others.filter (·.1 == o)).foldl (fun v x => v + x.2) 0 + (mine.filter (· == o)).length * w ≤ a.budgetOf o

/-- Firmware grants a window of `w` flits to a context, unless that exceeds a transit budget (R344; that it then grants none is a
DESIGN CHOICE, log 93). -/
def State.grantWindow (s : State) (n w : Nat) : State := if s.windowFits n w then s.writeRx n (w * 2 ^ 48 + 8) else s

/-- Firmware configures the stream of district `d` to board slot `b` and grants its receiving half a window of 1,024 flits
(R346, R357). A context an earlier program has not given back yet stays as it is. -/
def State.openBoard (s : State) (d b : Nat) : State :=
  let n := s.boardCtx d b
  if s.svc.closing.contains n then s else
  let o := R.svcSctxNCfg n
  let dest := s.boardCoord b / 2 ^ 15 * 2 ^ 15 + 0x400
  let s1 := ((((s.fset o F.svcSctxNCfg_DEST dest).fset o F.svcSctxNCfg_PEER (s.boardCtx d s.ownSlot)).fset o
    F.svcSctxNCfg_VC 1).fset o F.svcSctxNCfg_ROUTE_BASE (Config.routeBase.val + 4 * b)).fset o F.svcSctxNCfg_ROUTE_CNT_M1 3
  let c := s1.ctx n
  let s2 := s1.setCtx n { c with tx := if c.tx = .off then .waitGrant else c.tx }
  s2.grantWindow n 1024

/-- Board slots of this board, other than the own, whose device the almanac has ACTIVE. -/
def State.boardPeers (s : State) : List Nat :=
  match s.top.active with
  | none => []
  | some a => below 8 fun b => b ≠ s.ownSlot && (match a.device (s.boardCoord b) with | some r => r.role == 1 | none => false)

/-- Write the routes towards a coordinate into four route table entries from `base` (R413). -/
def State.writeRoutes (s : State) (base dest : Nat) : State :=
  match s.top.active with
  | none => s
  | some a =>
    match a.routes s.linkBad s.coord dest with
    | [] => s
    | rs => (List.range 4).foldl (fun z k => z.setReg (R.svcRouteN (base + k)) (BitVec.ofNat 64 (rs.getD (k % rs.length) 0))) s

/-- Allot and enable the program's streams (R357). -/
def State.openStreams (s : State) : State :=
  let s0 := s.closeDue
  let s1 := s0.boardPeers.foldl (fun z b => z.writeRoutes (Config.routeBase.val + 4 * b) (z.boardCoord b)) s0
  s1.boardPeers.foldl (fun z b => (List.range 32).foldl (fun y d => y.openBoard d b) z) s1

/-- The request-queue segment is zeroed at PROG_ARM (R290). -/
def State.zeroRequests (s : State) : State :=
  match (requestIndex (segDecls s.prog.secs)).bind (s.prog.segs[·]?) with
  | none => s
  | some g => { (s.hbmZero (g.base % 2 ^ 40) g.size) with prog := { s.prog with posted := 0, read := 0 } }

/-- What a successful PROG_ARM writes (R298, R357, R493). -/
def State.armWrite (s : State) : State :=
  let ss := s.prog.secs
  let s1 := { s with tiles := s.tiles.map fun (e : Nat × Tile) => (e.1, { e.2 with tables := {} }) }
  let s2 := (blockTiles ss).foldl (fun z l => z.armTile ss l) s1
  let s3 := (List.range 32).foldl (fun z d => z.armQueues ss d) s2
  let s4 := (mapPorts ss s.prog.variant ++ mapPorts ss 0).foldl (fun (z : State) p => match sectOf ss 7 p s.prog.variant with
    | some x => ((z.fset (R.fabCtl p) F.fabCtl_LINK_FRETS (leAt x.data 1 1)).fset (R.fabCtl p) F.fabCtl_REPLAY_LOG2
        (leAt x.data 0 1)).checkDelay p
    | none => z) s3.bindWindows
  let s5 := (s4.writeVersion s4.version s.prog.variant).zeroRequests
  let s6 := ((blockTiles ss).foldl (fun (z : State) l => match z.ptileOf l with
    | some p => z.setTile p (armOutbox (z.tile p) z.version 0 (max s.prog.hdr.cycle 1))
    | none => z) s5).minSettingWrite s.prog.hdr.minSetting
  let s7 := match s6.top.active with
    | some a => s6.fset R.ldgCtl F.ldgCtl_FAIL_HOLD_NS a.controlBoundNs
    | none => s6
  ({ s7 with prog := { s7.prog with st := .armed } }).openStreams.setTokens

end Sys2Proof.Machine
end

