-- ==== Sys2Proof/Machine/Topology.lean ====
section
/-!
DEFINITION. Topology (15) and the switch to a detour (12, R329): discovery, port-state notices and service routes, the gate,
start floods, and the messages of the stewards about them.
-/
namespace Sys2Proof.Machine

/-! ## Identity and records (R402, R415, R428) -/

/-- The identity digest of this device (R428): SHA-256 of its public key. -/
def ownIdentity : List Byte := sha256 ((List.range 32).map Config.identityKey)

/-- Detail of a topology record (R415). -/
def topDetail (port reason addr nport seq : Nat) : Nat :=
  port + reason * 2 ^ 8 + addr * 2 ^ 32 + nport * 2 ^ 64 + seq * 2 ^ 128

/-- Record a topology fault of a port. -/
def State.topRecord (s : State) (code port reason : Nat) : State :=
  let d := R.topPortNDisc port
  s.raise code 1 { district := attach port }
    (topDetail port reason (s.fget d F.topPortNDisc_NBR_ADDR) (s.fget d F.topPortNDisc_NBR_PORT) (leAt (s.link port).record 16 4))

/-- Whether a discovery record is valid (R402). -/
def recordValid (r : List Byte) : Bool := r.length == 64 && leAt r 60 4 == crcIeee (r.take 60)

/-- Whether this device is placed. -/
def State.placed (s : State) : Bool := s.fget R.topStatus F.topStatus_COORD_VALID == 1

/-! ## Gate (R381, R406) -/

/-- A port's gate closes, GATE = 0. -/
def State.closeGate (s : State) (p : Nat) : State :=
  let l := s.link p
  (s.setLink p { l with gate := if l.gate = .leaving then .leaving else .closed }).fset (R.lnkCtl p) F.lnkCtl_GATE 0

/-- QUARANTINE = 1 holds the gate CLOSED. -/
def State.quarantine (s : State) (p : Nat) : State :=
  let l := s.link p
  (s.setLink p { l with gate := if l.gate = .leaving then .leaving else .closed }).fset (R.lnkCtl p) F.lnkCtl_QUARANTINE 1

/-! ## Service routes and port-state notices (R413) -/

/-- Whether a route word crosses a link not usable, followed from this device through the almanac. -/
def Almanac.crossesBad (a : Almanac) (bad : Nat → Nat → Bool) (w : Nat) : Nat → Nat → Nat → Bool
  | 0, _, _ => false
  | fuel + 1, i, cur =>
    let e := field w (4 * i) 4
    if e ≥ 8 then false
    else if bad cur e then true
    else match a.farEnd cur e with
      | some (next, _) => if e < 6 then a.crossesBad bad w fuel (i + 1) next else false
      | none => false

/-- Context numbers whose configuration firmware has written. -/
def State.configured (s : State) : List Nat :=
  s.regs.filterMap fun e =>
    if 0x8100000 ≤ e.1 ∧ e.1 < 0x8180000 ∧ (e.1 - 0x8100000) % 32 = 0 then some ((e.1 - 0x8100000) / 32) else none

/-- Firmware rewrites the route entries of its streams that cross a link not usable (R413); packets that waited for a route leave
(R350). -/
def State.rewriteRoutes (s : State) : State :=
  match s.top.active with
  | none => s
  | some a =>
    State.pumpEvery <| s.configured.foldl (fun z n =>
      let base := z.fget (R.svcSctxNCfg n) F.svcSctxNCfg_ROUTE_BASE
      let cnt := z.fget (R.svcSctxNCfg n) F.svcSctxNCfg_ROUTE_CNT_M1 + 1
      match z.resolve (z.ctxDest n) with
      | none => z
      | some d =>
        let rs := a.routes z.linkBad z.coord (deviceOf d * 2 ^ 15 + 0x7FFF)
        if rs = [] then z else
        (List.range cnt).foldl (fun y k =>
          if base + k < 4096 && a.crossesBad y.linkBad (y.reg (R.svcRouteN (base + k))).toNat 16 0 y.coord then
            y.setReg (R.svcRouteN (base + k)) (BitVec.ofNat 64 (rs.getD (k % rs.length) 0))
          else y) z) s

/-- A steward of the rack, this one included, reports a link end usable or not. -/
def State.noteLink (s : State) (addr port : Nat) (usable : Bool) : State :=
  let rest := s.top.reported.filter fun r => !(r.1 == addr && r.2.1 == port)
  ({ s with top := { s.top with reported := if usable then rest else rest ++ [(addr, port, 0)] } }).rewriteRoutes

/-- Codes of LNK_STATUS.STATE. -/
def LinkState.code : LinkState → Nat
  | .reset => 0 | .training => 1 | .up => 2 | .recover => 3 | .down => 4 | .disabled => 5

/-- Stewards of this device's rack, as the active almanac names them, this one excluded. -/
def State.rackStewards (s : State) : List Nat :=
  match s.top.active with
  | none => []
  | some a => (a.devices.filter fun d => d.role ≠ 0 && coordRack d.coord == coordRack s.coord && d.coord ≠ s.coord).map (·.coord)

/-- Queue a message to the steward of a device. -/
def State.tell (s : State) (coord : Nat) (body : List Byte) : State :=
  { s with stw := { s.stw with msgOut := s.stw.msgOut ++ [{ dest := coord / 2 ^ 15 * 2 ^ 15 + 0x400, body := body }] } }

/-- A port's state or outcome changed: a notice goes to every steward of the rack, and the own routes follow. -/
def State.portNotice (s : State) (p : Nat) : State :=
  if !s.placed then s else
  let d := R.topPortNDisc p
  let body := leBytes 1 8 ++ leBytes 1 p ++ leBytes 1 (s.link p).st.code ++ leBytes 1 (s.outcome p) ++
    leBytes 4 (s.fget d F.topPortNDisc_NBR_ADDR)
  (s.rackStewards.foldl (fun z c => z.tell c body) s).noteLink s.coord p (s.matched p)

/-- Whether a DETOUR record of the running program names an end of a link other than that of the variant in force or of the switch in
progress, and one of the two there is: the loss of that link has no variant (R330). -/
def State.secondLink (s : State) (addr port : Nat) : Bool :=
  let now := match s.prog.detour with | some d => if d.variant = 0 then s.prog.variant else d.variant | none => s.prog.variant
  s.running && now != 0 && s.prog.secs.any fun x => x.typ == 0x10 && x.variant != now &&
    ((leAt x.data 0 4 == addr && leAt x.data 4 1 == port) || (leAt x.data 8 4 == addr && leAt x.data 12 1 == port))

/-- A steward of the rack sent a port-state notice (R413). A second link of the program down stops the program here too (R330). -/
def State.onPortState (s : State) : State :=
  match s.takeKind 8 with
  | none => s
  | some (m, s1) =>
    let addr := deviceOf m.src * 2 ^ 15 + 0x7FFF
    let port := leAt m.body 1 1
    let s2 := if leAt m.body 2 1 == LinkState.down.code && s1.secondLink addr port then
        s1.stopFrom (s1.transit + 1) Status.topologyMismatch else s1
    s2.noteLink addr port (leAt m.body 2 1 == 2 && leAt m.body 3 1 == 1)

/-! ## Discovery (R404, R405) -/

/-- The outcome of a port's discovery: the first matching row of R404. -/
def State.discover (s : State) (p : Nat) : Nat :=
  let r := (s.link p).record
  let valid := recordValid r
  match s.top.active with
  | none => 2
  | some a =>
    let far := a.farEnd s.coord p
    let isMatch := match a.linkOf s.coord p, far with
      | some (l, _), some (addr, port) =>
        valid && leAt r 0 4 == addr && leAt r 5 1 == l.kind && leAt r 4 1 == port &&
        (if l.kind = 0 then (match a.device addr with | some d => (r.drop 24).take 32 == d.identity | none => false)
         else (r.drop 24).take 32 == List.replicate 32 0#8)
      | _, _ => false
    if s.placed && isMatch then 1
    else if !s.placed then 2
    else if far.isNone then 3
    else if valid && leAt r 8 8 ≠ 0 && leAt r 8 8 ≠ a.id then 4
    else 5

/-- Firmware compares the neighbour's record with the plan and acts on the outcome (R404). -/
def State.comparePort (s : State) (p : Nat) : State :=
  let r := (s.link p).record
  let valid := recordValid r
  let o := R.topPortNDisc p
  let out := s.discover p
  let skew := valid && (match s.top.active with
    | some a => leAt r 8 8 == a.id && leAt r 16 4 ≠ a.seq
    | none => false)
  let was := s.fget o F.topPortNDisc_SEQ_SKEW
  let s1 := (((s.fset o F.topPortNDisc_NBR_ADDR (if valid then leAt r 0 4 else 0)).fset o F.topPortNDisc_NBR_PORT
    (if valid then leAt r 4 1 else 0)).fset o F.topPortNDisc_NBR_SWITCH (if valid && leAt r 5 1 == 1 then 1 else 0)).fset o
    F.topPortNDisc_OUTCOME out
  let s2 := s1.setReg (R.topPortNNbrId p) (BitVec.ofNat 64 (if valid then leAt r 24 8 else 0))
  let s3 := s2.fset o F.topPortNDisc_SEQ_SKEW (b2n skew)
  let s4 := if skew ∧ was = 0 then s3.topRecord 0x0803 p 0 else s3
  let s5 := if out = 1 then s4.fset o F.topPortNDisc_MISSING 0 else (s4.quarantine p).topRecord 0x0801 p out
  s5.portNotice p

/-- 2 s after the device became ready or an almanac came in force: link records not matched are MISSING (R405). -/
def State.discoveryDeadline (s : State) : State :=
  match s.top.deadline, s.top.active with
  | some t, some a =>
    let s1 := s.reach t
    if s1.ngt.now < t then s1 else
    (List.range 8).foldl (fun z p =>
      if (a.farEnd z.coord p).isSome && !z.matched p && z.fget (R.topPortNDisc p) F.topPortNDisc_MISSING == 0 then
        ((z.fset (R.topPortNDisc p) F.topPortNDisc_MISSING 1).topRecord 0x0802 p 0).portNotice p
      else z) { s1 with top := { s1.top with deadline := none } }
  | some _, none => { s with top := { s.top with deadline := none } }
  | none, _ => s

/-- The 2 s of R405 begin now. -/
def State.armDeadline (s : State) : State := { s with top := { s.top with deadline := some (s.ngt.now + (2 * 10 ^ 9) <<< 48) } }

/-! ## Detours (R329, R330) -/

/-- Body of a DETOUR message (R474). -/
def detourBody (kind : Nat) (d : Detour) (reason : Nat) : List Byte :=
  leBytes 1 kind ++ leBytes 4 d.end0 ++ leBytes 1 d.port0 ++ leBytes 4 d.end1 ++ leBytes 1 d.port1 ++ leBytes 2 d.variant ++
  leBytes 6 d.tf ++ leBytes 6 d.s ++ leBytes 4 d.pid ++ leBytes 2 0 ++ leBytes 1 reason

/-- The fields of a DETOUR message. -/
def detourOf (b : List Byte) : Detour :=
  { end0 := leAt b 1 4, port0 := leAt b 5 1, end1 := leAt b 6 4, port1 := leAt b 10 1, variant := leAt b 11 2,
    tf := leAt b 13 6, s := leAt b 19 6, pid := leAt b 25 4, proposer := false }

/-- Devices of the footprint, as this steward knows them: the ACTIVE devices of the almanac, itself excluded. -/
def State.footprint (s : State) : List Nat :=
  match s.top.active with
  | none => []
  | some a => (a.devices.filter fun d => d.role == 1 && d.coord ≠ s.coord).map (·.coord)

/-- Reason a steward refuses a switch: 1 lead, 2 not drained, 3 no such variant; none if it accepts (R329). -/
def State.detourBar (s : State) (d : Detour) : Option Nat :=
  if d.s < s.transit + 4 then some 1
  else if !s.drainedNow ∨ s.fget R.fabEpoch F.fabEpoch_PENDING = 1 then some 2
  else if ¬s.armed ∨ d.pid ≠ s.prog.hdr.programId % 2 ^ 32 ∨ d.variant > s.prog.hdr.variants then some 3
  else none

/-- Transits from T_f to S − 1 are failed (R330). -/
def State.failRange (s : State) (tf upto : Nat) : State :=
  (List.range (upto - tf)).foldl (fun z i => z.markFailed (tf + i) 0x0705 false) s

/-- A steward takes part in a switch: the variant goes into the inactive version, the flip is requested at S, and the
transits lost are marked failed. -/
def State.detourTake (s : State) (d : Detour) : State :=
  let s1 := ({ s with prog := { s.prog with detour := some d, inactive := d.variant } }).writeVersion (!s.version) d.variant
  let port := ((List.range 8).find? s1.fabOn).getD 0
  (s1.epochRequest port d.s).failRange d.tf d.s

/-- The steward proposes a switch for the link of port `p` to a variant, `tf` the transit that lost the link (R329). -/
def State.propose (s : State) (p variant tf : Nat) : State :=
  match s.top.active with
  | none => s
  | some a =>
    let (e1, p1) := (a.farEnd s.coord p).getD (0, 0)
    let d : Detour := { end0 := s.coord, port0 := p, end1 := e1, port1 := p1, variant := variant, tf := tf,
                        s := s.transit + a.detourLead, pid := s.prog.hdr.programId % 2 ^ 32, proposer := true }
    let d := { d with tf := if variant = 0 then d.s else tf }
    let s1 := s.footprint.foldl (fun z c => z.tell c (detourBody 4 d 0)) s
    if (s1.detourBar d).isSome then { s1 with prog := { s1.prog with detour := some d } }
    else s1.detourTake { d with accepts := [s.coord] }

/-- A link of the running program's footprint went down; `tf` is the transit in which the port lost it (R329, R330). A switch in progress
for this link goes on; beside a switch for another, or back to the base schedule, there is no variant. -/
def State.detourStart (s : State) (p tf : Nat) : State :=
  let ss := s.prog.secs
  let uses := (sectOf ss 7 p s.prog.variant).isSome
  if !s.running ∨ !uses then s
  else match s.prog.detour with
  | some d =>
    if d.variant ≠ 0 ∧ ((d.end0 = s.coord ∧ d.port0 = p) ∨ (d.end1 = s.coord ∧ d.port1 = p)) then s
    else s.stopFrom (s.transit + 1) Status.topologyMismatch
  | none =>
    match (if s.prog.variant = 0 then s.variantFor ss p else none), s.top.active with
    | some v, some a =>
      if s.coord < ((a.farEnd s.coord p).getD (0, 0)).1 then s.propose p v tf
      else { s with top := { s.top with downs := s.top.downs ++ [(p, tf, s.transit)] } }
    | _, _ => s.stopFrom (s.transit + 1) Status.topologyMismatch

/-- A proposal arrives: the steward accepts or refuses (R329). -/
def State.onPropose (s : State) : State :=
  match s.takeKind 4 with
  | none => s
  | some (m, s1) =>
    let d := detourOf m.body
    let mine (p : Nat) : Bool := (d.end0 == s1.coord && d.port0 == p) || (d.end1 == s1.coord && d.port1 == p)
    let s2 := { s1 with top := { s1.top with downs := s1.top.downs.filter fun x => !mine x.1 } }
    let back := deviceOf m.src * 2 ^ 15
    match s2.detourBar d with
    | some r => s2.tell back (detourBody 6 d r)
    | none => (s2.detourTake d).tell back (detourBody 5 d 0)

/-- Whether a message speaks of the switch in progress that this steward proposed. -/
def State.ownProposal (s : State) (b : List Byte) : Option Detour :=
  match s.prog.detour with
  | some d => if d.proposer && d.s == leAt b 19 6 && d.variant == leAt b 11 2 && d.pid == leAt b 25 4 then some d else none
  | none => none

/-- An ACCEPT arrives at the proposer. -/
def State.onAccept (s : State) : State :=
  match s.takeKind 5 with
  | none => s
  | some (m, s1) =>
    match s1.ownProposal m.body with
    | none => s1
    | some d =>
      let c := deviceOf m.src * 2 ^ 15 + 0x7FFF
      { s1 with prog := { s1.prog with detour := some { d with
          accepts := if d.accepts.contains c then d.accepts else d.accepts ++ [c] } } }

/-- A REFUSE arrives at the proposer: that steward holds no ACCEPT. -/
def State.onRefuse (s : State) : State :=
  match s.takeKind 6 with
  | none => s
  | some (m, s1) =>
    match s1.ownProposal m.body with
    | none => s1
    | some d => { s1 with prog := { s1.prog with detour := some { d with
        accepts := d.accepts.filter (· ≠ deviceOf m.src * 2 ^ 15 + 0x7FFF) } } }

/-- The steward cancels its flip (R326, R329). -/
def State.detourDrop (s : State) : State :=
  ({ s with prog := { s.prog with detour := none } }).fset R.fabEpoch F.fabEpoch_PENDING 0

/-- A CANCEL arrives. -/
def State.onDetourCancel (s : State) : State :=
  match s.takeKind 7 with
  | none => s
  | some (m, s1) =>
    match s1.prog.detour with
    | some d => if d.s = leAt m.body 19 6 ∧ d.variant = leAt m.body 11 2 then s1.detourDrop else s1
    | none => s1

/-- Time is up for a proposal (R329, R330): no proposal arrived within 2 transits of a port going down, or of its link being open again while
its variant is in force; or the proposer does not hold an ACCEPT from every steward at meridian S − 2. -/
def State.proposalTimeout (s : State) : State :=
  match s.prog.detour with
  | some d =>
    let all := s.footprint.all d.accepts.contains && d.accepts.contains s.coord
    if d.proposer && d.s ≤ s.transit + 2 && s.transit < d.s && !all then
      let s1 := (s.footprint.foldl (fun z c => z.tell c (detourBody 7 d 0)) s).detourDrop
      s1.propose d.port0 d.variant d.tf
    else s
  | none =>
    match s.top.downs.find? fun x => x.2.2 + 2 ≤ s.transit with
    | none => s
    | some x =>
      let s1 := { s with top := { s.top with downs := s.top.downs.erase x } }
      match s1.variantFor s1.prog.secs x.1 with
      | some v =>
        if !s1.running then s1
        else if s1.prog.variant ≠ v then s1.propose x.1 v x.2.1
        else if s1.portOpen x.1 then s1.propose x.1 0 s1.transit
        else s1
      | none => s1

/-! ## Start floods (R410, R411) -/

/-- Settle the status of every command of an opcode in progress. -/
def State.settle (s : State) (opcode status : Nat) : State :=
  { s with stw := { s.stw with cmds := s.stw.cmds.map fun c =>
      if c.opcode = opcode ∧ c.result.isNone then { c with result := some status } else c } }

/-- Body of NOT_ARMED. -/
def notArmedBody (pid t : Nat) : List Byte := leBytes 1 3 ++ leBytes 8 pid ++ leBytes 6 t ++ leBytes 1 0

/-- Flood NOT_ARMED for a pair once. -/
def State.floodStart (s : State) (pid t : Nat) : State :=
  if s.top.floods.contains (pid, t) then s
  else ({ s with top := { s.top with floods := s.top.floods ++ [(pid, t)] } }).flood (notArmedBody pid t)

/-- The pending start is cancelled (R410): the program stays armed, and meridians end unless a new start was accepted. -/
def State.cancelStart (s : State) : State :=
  let s1 := (s.settle 0x0403 Status.notArmed).raise 0x0804 1 {} (0xFF + s.prog.startAt * 2 ^ 64)
  { (s1.endMeridians) with prog := { s1.endMeridians.prog with
      st := if s1.prog.st = .starting then .armed else s1.prog.st, startPend := false, lastStatus := Status.notArmed } }

/-- NOT_ARMED arrives (R410, R411). -/
def State.onNotArmed (s : State) : State :=
  match s.takeKind 3 with
  | none => s
  | some (m, s1) =>
    let pid := leAt m.body 1 8
    let t := leAt m.body 9 6
    if s1.top.floods.contains (pid, t) then s1
    else
      let s2 := s1.floodStart pid t
      if pid ≠ s2.prog.hdr.programId ∨ s2.prog.startAt ≠ t then s2
      else if s2.prog.startPend ∧ s2.transit < t then s2.cancelStart
      else if s2.running then
        let s3 := (List.range (s2.transit + 1 - t)).foldl (fun z i => z.markFailed (t + i) 0x0805 true) s2
        (s3.record 0x0805 4 {} (0xFF + t * 2 ^ 64)).stopFrom (s3.transit + 1) Status.aborted
      else s2

/-- TRANSIT_FAILED arrives (R522): the first copy of its pair goes on to the neighbours, whatever program runs here; one of
this device's program takes effect. -/
def State.onTransitFailed (s : State) : State :=
  match s.takeKind 0x0B with
  | none => s
  | some (m, s0) =>
    let stop := bit (leAt m.body 1 1) 0
    let pid := leAt m.body 2 8
    let t := leAt m.body 10 6
    let code := leAt m.body 16 2
    let s1 := s0.forwardFailed pid t code stop
    if pid ≠ s1.prog.hdr.programId then s1
    else
      let s2 := match s1.prog.done.find? fun d => d.2.1 ≤ t && t ≤ d.2.2 with
        | some d => if s1.prog.failed.contains t then s1 else s1.raise 0x0C04 4 {} (t + d.1 * 2 ^ 64)
        | none => s1
      let s3 := s2.markFailed t code stop
      if stop then s3.stopFrom (t + 2) Status.aborted else s3

/-! ## Almanac in force (R401) -/

/-- Own device record of an almanac, by identity; none if absent or ROLE ABSENT. -/
def Almanac.own (a : Almanac) : Option DevRec := a.devices.find? fun d => d.identity == ownIdentity && d.role ≠ 0

/-- Write the flat table of an almanac. -/
def State.writeFlats (s : State) (a : Almanac) : State :=
  let s1 := (List.range 1024).foldl (fun z i => z.resetReg (R.svcFlatN i)) s
  a.flats.foldl (fun z f => z.setReg (R.svcFlatN f.1) (BitVec.ofNat 64 (2 ^ 63 + f.2))) s1

/-- Asymmetry of a port in an almanac as this end uses it (R399). -/
def Almanac.asymOf (a : Almanac) (addr p : Nat) : Nat :=
  match a.linkOf addr p with
  | some (l, true) => l.asym
  | some (l, false) => (2 ^ 32 - l.asym) % 2 ^ 32
  | none => 0

/-- ASYM of a port: its cable-calibration record in MRAM (R229); a port without one takes the almanac's link record (R399, R401). That the
port's own record goes before the almanac's is a DESIGN CHOICE (log 92). -/
def State.asymFor (s : State) (a : Almanac) (addr p : Nat) : Nat :=
  match s.cfg.asym.find? (·.1 == p) with
  | some (_, v) => v
  | none => a.asymOf addr p

/-- The almanac in force sets the placement, time roles, asymmetries, flat table and VC_COUNT, and every UP port is compared
again. -/
def State.putInForce (s : State) (a : Almanac) : State :=
  let o := R.topStatus
  let s1 := { s with top := { s.top with active := some a, reported := [] } }
  let s2 := (((s1.setReg R.topAlmanacId (BitVec.ofNat 64 a.id)).fset R.topAlmanacSeq F.topAlmanacSeq_ACTIVE a.seq).fset o
    F.topStatus_TWISTED (b2n a.twisted)).fset o F.topStatus_ALMANAC 2
  let s3 := match a.own with
    | none =>
      let z := (((s2.fset o F.topStatus_COORD_VALID 0).fset o F.topStatus_COORD 0).fset o F.topStatus_ROLE 0).fset o
        F.topStatus_ADMIT 0
      (List.range 8).foldl (fun (y : State) p => y.quarantine p) z
    | some d =>
      let z := (((s2.fset o F.topStatus_COORD_VALID 1).fset o F.topStatus_COORD d.coord).fset o F.topStatus_ROLE d.role)
      let z1 := if z.fget o F.topStatus_ADMIT = 0 then z.fset o F.topStatus_ADMIT 1 else z
      let r := R.ngtRole
      let both := bit d.time 0 && bit d.time 1
      let zm := if both then z1 else (z1.fset r F.ngtRole_MASTER_A (b2n (bit d.time 0))).fset r F.ngtRole_MASTER_B (b2n (bit d.time 1))
      let z2 := (((zm.fset r
        F.ngtRole_PPS_A_USE (b2n (bit d.time 2))).fset r F.ngtRole_PPS_B_USE (b2n (bit d.time 3))).fset r
        F.ngtRole_PARENT_A (d.parents % 16)).fset r F.ngtRole_PARENT_B (d.parents / 16)
      (List.range 8).foldl (fun y p => y.fset (R.ngtPortNAsym p) F.ngtPortNAsym_ASYM (s.asymFor a d.coord p)) z2
  let s4 := (s3.writeFlats a).fset R.svcCtl F.svcCtl_VC_COUNT a.vcCount
  ((List.range 8).foldl (fun (z : State) p => if z.portUp p then z.comparePort p else z) s4).armDeadline

/-- Whether an almanac leaves what touches the loaded program's footprint, and the domain's figures, unchanged (R401). -/
def State.keepsFootprint (s : State) (a : Almanac) : Bool :=
  match s.top.active with
  | none => true
  | some b =>
    let foot := s.coord :: (mapPorts s.prog.secs 0).filterMap fun p => (b.farEnd s.coord p).map (·.1)
    a.id == b.id && a.twisted == b.twisted && a.switchSym == b.switchSym && a.vcCount == b.vcCount &&
    a.detourLead == b.detourLead &&
    foot.all (fun c => a.device c == b.device c &&
      a.links.filter (fun l => l.end0 == c || (l.kind == 0 && l.end1 == c)) ==
      b.links.filter (fun l => l.end0 == c || (l.kind == 0 && l.end1 == c)))

/-! ## Commands -/

/-- DISCOVERY_DEADLINE (R405). -/
def execDiscoveryDeadline (s : State) : Host.Outcome State Fault Refusal := .next s.discoveryDeadline
/-- DETOUR_PROPOSAL_TIMEOUT (R329). -/
def execDetourProposalTimeout (s : State) : Host.Outcome State Fault Refusal := .next s.proposalTimeout
/-- NOT_ARMED (R410, R411). -/
def execNotArmed (s : State) : Host.Outcome State Fault Refusal := .next s.onNotArmed
/-- DETOUR_PROPOSE (R329). -/
def execDetourPropose (s : State) : Host.Outcome State Fault Refusal := .next s.onPropose
/-- DETOUR_ACCEPT (R329). -/
def execDetourAccept (s : State) : Host.Outcome State Fault Refusal := .next s.onAccept
/-- DETOUR_REFUSE (R329). -/
def execDetourRefuse (s : State) : Host.Outcome State Fault Refusal := .next s.onRefuse
/-- DETOUR_CANCEL (R329). -/
def execDetourCancel (s : State) : Host.Outcome State Fault Refusal := .next s.onDetourCancel
/-- PORT_STATE (R413). -/
def execPortState (s : State) : Host.Outcome State Fault Refusal := .next s.onPortState
/-- TRANSIT_FAILED (R522). -/
def execTransitFailed (s : State) : Host.Outcome State Fault Refusal := .next s.onTransitFailed

end Sys2Proof.Machine
end

