-- ==== Sys2Proof/Machine/Time.lean ====
section
/-!
DEFINITION. Ngavas time (09): link time exchange, the servo and its states, domains A and B, holdover, PPS, triggers, captures
and host time correlation.
-/
namespace Sys2Proof.Machine

/-! ## State of the device (R232, R233) -/

/-- NGT_STATUS.STATE codes. -/
def ngtFree : Nat := 0
/-- ACQUIRE. -/
def ngtAcquire : Nat := 1
/-- LOCKED. -/
def ngtLocked : Nat := 2
/-- HOLDOVER. -/
def ngtHold : Nat := 3
/-- LOST. -/
def ngtLost : Nat := 4
/-- MASTER. -/
def ngtMaster : Nat := 5

/-- State of the device's time. -/
def State.ngtState (s : State) : Nat := s.fget R.ngtStatus F.ngtStatus_STATE
/-- Active domain: true for B. -/
def State.activeB (s : State) : Bool := s.fget R.ngtStatus F.ngtStatus_ACTIVE == 1
/-- State code of a domain: 0 NONE, 1 MISSING, 2 USABLE, 5 MASTER. -/
def State.domState (s : State) (b : Bool) : Nat := s.fget R.ngtStatus (if b then F.ngtStatus_DOMAIN_B else F.ngtStatus_DOMAIN_A)
/-- Set a domain's state code; NGT_OFFSET_d.VALID follows it. -/
def State.setDom (s : State) (b : Bool) (v : Nat) : State :=
  (s.fset R.ngtStatus (if b then F.ngtStatus_DOMAIN_B else F.ngtStatus_DOMAIN_A) v).fset (R.ngtOffsetD (b2n b)) F.ngtOffsetD_VALID
    (b2n (v == 2))
/-- Whether the device is master of a domain. -/
def State.masterOf (s : State) (b : Bool) : Bool := s.fget R.ngtRole (if b then F.ngtRole_MASTER_B else F.ngtRole_MASTER_A) == 1
/-- Parent port of a domain, 15 for none. -/
def State.parentOf (s : State) (b : Bool) : Nat := s.fget R.ngtRole (if b then F.ngtRole_PARENT_B else F.ngtRole_PARENT_A)
/-- A domain's record. -/
def Ngt.dom (n : Ngt) (b : Bool) : Domain := if b then n.domB else n.domA
/-- Hold a domain's record. -/
def Ngt.setDom (n : Ngt) (b : Bool) (d : Domain) : Ngt := if b then { n with domB := d } else { n with domA := d }
/-- Hold the time unit. -/
def State.setNgt (s : State) (n : Ngt) : State := { s with ngt := n }

/-- Detail of a time record (R243). -/
def timeDetail (dom port : Nat) (off : Int) (n : Nat) : Nat := dom + port * 2 ^ 8 + ofSigned 48 off * 2 ^ 16 + n * 2 ^ 64

/-- Record a time fault of the servo. -/
def State.timeRecord (s : State) (code port : Nat) : State :=
  s.raise code 1 {} (timeDetail (b2n s.activeB) port s.ngt.eMeas 0xFF)

/-- Time is lost with a program armed or running (R233): the device stops its program at the first meridian. -/
def State.timeLost (s : State) (port : Nat) : State :=
  let s1 := (s.record 0x0304 4 {} (timeDetail (b2n s.activeB) port s.ngt.eMeas 0xFF)).fset R.ngtStatus F.ngtStatus_STATE ngtLost
  (s1.markFailed s1.transit 0x0304 true).stopFrom (s1.transit + 1) 0x0400

/-- A rate in 2⁻⁴⁸ ns per ns of `n` parts per billion. -/
def ppbRate (n : Nat) : Int := (n * 2 ^ 48 / 10 ^ 9 : Nat)

/-- A correction held to ±SLEW_LIMIT_PPB (R217). -/
def State.slewed (s : State) (y : Int) : Int :=
  let lim := ppbRate (s.fget R.ngtServoCtl F.ngtServoCtl_SLEW_LIMIT_PPB)
  clampI (-lim) lim y

/-- The state changes; a change to ACQUIRE or FREE with a program armed or running is LOST (R232, R233). -/
def State.setNgtState (s : State) (v port : Nat) : State :=
  if s.ngtState = v ∨ s.ngtState = ngtLost then s
  else if (v = ngtAcquire ∨ v = ngtFree) ∧ s.armed then s.timeLost port
  else
    let s1 := if s.ngtState = ngtHold then
        s.fset R.ngtHoldover F.ngtHoldover_ELAPSED_MS (satN 32 (((s.ngt.now - s.ngt.holdStart) >>> 48) / 10 ^ 6)) else s
    let s2 := if v = ngtAcquire ∧ s.ngtState = ngtLocked then s1.timeRecord 0x0301 port else s1
    let s3 := s2.fset R.ngtStatus F.ngtStatus_STATE v
    if v = ngtHold then s3.setNgt { s3.ngt with holdStart := s3.ngt.now, y := s.slewed s3.ngt.integ, lockRun := 0, unlockRun := 0 }
    else s3.setNgt { s3.ngt with lockRun := 0, unlockRun := 0 }

/-! ## The servo (R231, R232) -/

/-- |e| in ps, rounded up, of a value in 2⁻¹⁶ ns. -/
def psOf (e : Int) : Nat := cdiv (e.natAbs * 1000) 65536

/-- The proportional-integral update for `e` (2⁻¹⁶ ns) over `t` ns. -/
def State.servoPi (s : State) (e : Int) (t : Nat) : State :=
  if t = 0 then s else
  let kp := s.fget R.ngtServoCtl F.ngtServoCtl_KP_SHIFT
  let ki := s.fget R.ngtServoCtl F.ngtServoCtl_KI_SHIFT
  let rate := e * (2 ^ 32 : Nat)
  let integ := clampI (-(ppbRate 100000)) (ppbRate 100000) (s.ngt.integ + rate / ((t * 2 ^ ki : Nat) : Int))
  s.setNgt { s.ngt with integ := integ, y := s.slewed (integ + rate / ((t * 2 ^ kp : Nat) : Int)) }

/-- A rate of 2⁻⁴⁸ ns per ns in units of 2⁻⁸ ppb, in 32 bits two's complement. -/
def rateField (y : Int) : Nat := ofSigned 32 (y * (10 ^ 9 * 2 ^ 8 : Nat) / (2 ^ 48 : Nat))

/-- NGT_RATE: the integrator and the correction in force. -/
def State.rateWord (s : State) : Nat := rateField s.ngt.y + rateField s.ngt.integ * 2 ^ 32

/-- Move an instant of NGT (2⁻⁴⁸ ns) with a step of it. -/
def movedBy (e : Int) (t : Nat) : Nat := ((t : Int) + e * (2 ^ 32 : Nat)).toNat

/-- A step of NGT (R217, R231), which also takes a pending epoch (R230). The instants from which the time unit counts 192 us, 2 s and
the intervals of the servo move with NGT, so that they go on measuring elapsed time (DESIGN CHOICE, log 89). -/
def State.stepNgt (s : State) (e : Int) (epoch : Option Nat) : State :=
  let n := s.ngt
  let dom (d : Domain) : Domain := { d with lastUsable := d.lastUsable.map (movedBy e) }
  let pps (p : Pps) : Pps := { p with since := p.since.map (movedBy e) }
  let s1 := s.setNgt { n with now := movedBy e n.now, domA := dom n.domA, domB := dom n.domB, ppsA := pps n.ppsA, ppsB := pps n.ppsB,
                              done := n.done.map fun (x : Nat × Nat) => (x.1, movedBy e x.2), slot := [] }
  match epoch with
  | some v => s1.setReg R.ngtEpochId (BitVec.ofNat 64 v)
  | none => s1

/-- One threshold of the servo in ps. -/
def State.thresh (s : State) (f : RField) : Nat := s.fget R.ngtServoThresh f

/-- The lock and unlock runs after an accepted measurement (R232). -/
def State.lockCount (s : State) (e : Int) (port : Nat) : State :=
  if s.ngtState = ngtAcquire then
    let n := if psOf e ≤ s.thresh F.ngtServoThresh_LOCK_PS then s.ngt.lockRun + 1 else 0
    if n ≥ 16 then s.setNgtState ngtLocked port else s.setNgt { s.ngt with lockRun := n }
  else if s.ngtState = ngtLocked then
    let n := if psOf e > s.thresh F.ngtServoThresh_UNLOCK_PS then s.ngt.unlockRun + 1 else 0
    if n ≥ 4 then s.setNgtState ngtAcquire port else s.setNgt { s.ngt with unlockRun := n }
  else s

/-- An accepted measurement: the control loop, the last accepted value, and the lock and unlock runs. -/
def State.accept (s : State) (e : Int) (t : Option Nat) (port : Nat) : State :=
  let s1 := match t with
    | some n => s.servoPi e n
    | none => s
  (s1.setNgt { s1.ngt with eLast := e }).lockCount e port

/-- A measurement LOCKED rejects (R231): it is counted, and is one of the run that leads to ACQUIRE (R232). -/
def State.rejectOutlier (s : State) (port : Nat) : State :=
  let s1 := if port < 8 then s.fbump (R.ngtPortNAsym port) F.ngtPortNAsym_REJECTED 1 else s
  if s1.ngt.unlockRun + 1 ≥ 4 then s1.setNgtState ngtAcquire port
  else s1.setNgt { s1.ngt with unlockRun := s1.ngt.unlockRun + 1 }

/-- Whether LOCKED rejects a measurement. -/
def State.outlier (s : State) (e : Int) : Bool := s.ngtState == ngtLocked && psOf e > s.thresh F.ngtServoThresh_OUTLIER_PS

/-- Whether a measurement is beyond STEP_NS. -/
def State.far (s : State) (e : Int) : Bool := e.natAbs > s.thresh F.ngtServoThresh_STEP_NS * 65536

/-- Whether ACQUIRE steps on a measurement (R231). -/
def State.stepsOn (s : State) (e : Int) : Bool :=
  s.ngtState == ngtAcquire && s.far e && s.fget R.ngtServoCtl F.ngtServoCtl_STEP_ENABLE == 1 && !s.armed

/-- One measurement of the servo (R231): `e` in 2⁻¹⁶ ns over `t` ns since the previous one (none: the first), from `port` (0xFF:
PPS); `epoch` is an epoch to take at a step. With a program armed or running a measurement beyond STEP_NS loses the time in every
state that follows a parent (R233; DEDUCED, log 89). -/
def State.servo (s : State) (e : Int) (t : Option Nat) (port : Nat) (epoch : Option Nat) : State :=
  if s.far e ∧ s.armed ∧ s.ngtState ≠ ngtMaster ∧ s.ngtState ≠ ngtLost then s.timeLost port
  else if s.outlier e then s.rejectOutlier port
  else if s.stepsOn e then
    let s1 := s.stepNgt e epoch
    (s1.setNgt { s1.ngt with eLast := e }).lockCount e port
  else s.accept e t port

/-! ## Measurements of the domains (R230, R234, R235) -/

/-- Show an offset in NGT_OFFSET_d. -/
def State.showOffset (s : State) (b : Bool) (e : Int) : State := s.fset (R.ngtOffsetD (b2n b)) F.ngtOffsetD_OFFSET (ofSigned 48 e)

/-- Hold the depth of the active domain. -/
def State.showDepth (s : State) (depth : Nat) : State := s.fset R.ngtStatus F.ngtStatus_DEPTH depth

/-- No filtered offset is held: each standby period starts at its own first measurement (R234). -/
def State.clearOs (s : State) : State :=
  s.setNgt { s.ngt with domA := { s.ngt.domA with os := none }, domB := { s.ngt.domB with os := none } }

/-- Make a domain the active one. -/
def State.setActive (s : State) (b : Bool) (depth : Nat) : State :=
  let s1 := if s.activeB = b then s else s.clearOs
  (s1.fset R.ngtStatus F.ngtStatus_ACTIVE (b2n b)).showDepth depth

/-- Whether a switch of the active domain is requested (R235): by SWITCH_REQ, or because it is no longer usable and AUTO_SWITCH = 1. -/
def State.switchWanted (s : State) : Bool :=
  s.ngt.switchReq || (s.domState s.activeB != 2 && s.fget R.ngtRole F.ngtRole_AUTO_SWITCH == 1)

/-- A measurement of the standby domain: the filtered offset follows it, and a requested switch is made or refused (R234,
R235). After a switch the servo continues with that measurement, without a step. -/
def State.standby (s : State) (b : Bool) (e : Int) (t : Option Nat) (port depth : Nat) : State :=
  let d := s.ngt.dom b
  let kp := s.fget R.ngtServoCtl F.ngtServoCtl_KP_SHIFT
  let os := match d.os with
    | some o => o + (e - o) / ((2 ^ kp : Nat) : Int)
    | none => e
  let s1 := (s.setNgt (s.ngt.setDom b { d with os := some os })).showOffset b os
  if !s1.switchWanted then s1
  else
    let s2 := s1.setNgt { s1.ngt with switchReq := false }
    if psOf os ≤ s2.fget R.ngtRole F.ngtRole_SWITCH_LIMIT_PS then
      (((s2.setActive b depth).timeRecord 0x0302 port).showOffset b e).accept e t port
    else
      let s3 := s2.timeRecord 0x0303 port
      if s3.domState s3.activeB ≠ 2 ∧ (s3.ngtState = ngtLocked ∨ s3.ngtState = ngtAcquire) then s3.setNgtState ngtHold port else s3

/-- A measurement of the active domain: one that LOCKED rejects changes neither offset nor depth (R231). -/
def State.steer (s : State) (b : Bool) (e : Int) (t : Option Nat) (port depth : Nat) (epoch : Option Nat) : State :=
  if s.outlier e then s.servo e t port epoch else ((s.showDepth depth).showOffset b e).servo e t port epoch

/-- A usable measurement of a domain reaches a device that is not master of A (R231 to R235). Of another epoch it acts only by
the step that takes the epoch (R230). -/
def State.follow (s : State) (b : Bool) (e : Int) (t : Option Nat) (port depth : Nat) (epoch : Option Nat) : State :=
  let near := psOf e ≤ s.thresh F.ngtServoThresh_UNLOCK_PS
  if s.ngtState = ngtFree then ((s.setActive b depth).setNgtState ngtAcquire port).steer b e t port depth epoch
  else if s.ngtState = ngtHold ∨ s.ngtState = ngtMaster then
    ((s.setActive b depth).setNgtState (if near then ngtLocked else ngtAcquire) port).steer b e t port depth epoch
  else if s.activeB = b then s.steer b e t port depth epoch
  else s.standby b e t port depth

/-! ## PPS inputs in use (R223, R224) -/

/-- Whether a PPS input is in use. -/
def State.ppsUse (s : State) (b : Bool) : Bool :=
  if b then s.masterOf true && s.fget R.ngtRole F.ngtRole_PPS_B_USE == 1 && s.domState false != 2
  else s.masterOf false && s.fget R.ngtRole F.ngtRole_PPS_A_USE == 1

/-- PPS_d_OK. -/
def ppsOk (b : Bool) : RField := if b then F.ngtStatus_PPS_B_OK else F.ngtStatus_PPS_A_OK

/-- A PPS input. -/
def Ngt.pps (n : Ngt) (b : Bool) : Pps := if b then n.ppsB else n.ppsA
/-- Hold a PPS input. -/
def Ngt.setPps (n : Ngt) (b : Bool) (p : Pps) : Ngt := if b then { n with ppsB := p } else { n with ppsA := p }

/-- The use of a PPS input follows the roles and domain A: its 2 s start with its use, and PPS_d_OK is 0 out of use (R224). -/
def State.ppsFollow (s : State) (b : Bool) : State :=
  if s.ppsUse b then
    (if (s.ngt.pps b).since.isSome then s else s.setNgt (s.ngt.setPps b { since := some s.ngt.now }))
  else if s.ngt.pps b = {} ∧ s.fget R.ngtStatus (ppsOk b) = 0 then s
  else (s.setNgt (s.ngt.setPps b {})).fset R.ngtStatus (ppsOk b) 0

/-- Both PPS inputs. -/
def State.ppsTrack (s : State) : State := (s.ppsFollow false).ppsFollow true

/-- A completed exchange on the parent port of domain `b` that is usable for it (R230); a master of A steers by no parent (R223). -/
def State.usable (s : State) (b : Bool) (e : Int) (port depth : Nat) (epoch : Option Nat) : State :=
  let d := s.ngt.dom b
  let t := d.lastUsable.map fun u => (s.ngt.now - u) >>> 48
  let s1 := ((s.setNgt (s.ngt.setDom b { d with lastUsable := some s.ngt.now, lastE := e, depth := depth })).setDom b 2).ppsTrack
  if s.masterOf false ∨ s.fget R.ngtServoCtl F.ngtServoCtl_FREEZE = 1 ∨ s.fget R.ngtServoCtl F.ngtServoCtl_ENABLE = 0 then s1
  else (s1.setNgt { s1.ngt with eMeas := e }).follow b e t port depth epoch

/-! ## Link time exchange (R225 to R228) -/

/-- A time-exchange record (R226). -/
def exchRecord (typ st depth seq s1 s2 corr epoch rcorr : Nat) : List Byte :=
  leBytes 1 typ ++ leBytes 1 st ++ leBytes 1 depth ++ leBytes 1 0 ++ leBytes 2 seq ++ leBytes 10 s1 ++ leBytes 10 s2 ++
  leBytes 6 corr ++ leBytes 8 epoch ++ leBytes 6 rcorr ++ leBytes 2 0

/-- STATE and DEPTH this device reports: 0 for a master (R226). -/
def State.exchState (s : State) : Nat × Nat :=
  (s.ngtState + b2n s.activeB * 16, if s.masterOf false || s.masterOf true then 0 else s.fget R.ngtStatus F.ngtStatus_DEPTH)

/-- CORR or RCORR of a record. -/
def corrAt (r : List Byte) (o : Nat) : Int := signedOf 48 (leAt r o 6)

/-- Whether a record is rejected (R226, R228). -/
def exchBad (r : List Byte) : Bool :=
  r.length ≠ 48 || leAt r 0 1 = 0 || leAt r 0 1 > 2 || leAt r 3 1 ≠ 0 || leAt r 46 2 ≠ 0 ||
  (corrAt r 26).natAbs > 10000 * 65536 || (corrAt r 40).natAbs > 10000 * 65536

/-- A record is ignored and counted. -/
def State.rejectExch (s : State) (port : Nat) : State := s.fbump (R.ngtPortNAsym port) F.ngtPortNAsym_REJECTED 1

/-- An exchange is missed (R225): it is counted, and no response is awaited any more. NGT_PORT_n_OFFSET is not valid 192 us after
the last completed exchange. -/
def State.exchLost (s : State) (port : Nat) : State :=
  let s1 := (s.setNgt { s.ngt with exch := tdel s.ngt.exch port }).fbump (R.ngtPortNDelay port) F.ngtPortNDelay_MISSED 1
  match s1.ngt.done.find? (·.1 == port) with
  | some (_, t) => if s1.ngt.now > t + 192000 <<< 48 then (s1.fset (R.ngtPortNOffset port) F.ngtPortNOffset_VALID 0).checkDelay port else s1
  | none => s1

/-- The instant (2⁻⁴⁸ ns) up to which the response of a port's outstanding request is awaited. -/
def State.rspDue (s : State) (port : Nat) : Option Nat :=
  (s.ngt.exch.find? (·.1 == port)).map fun e => e.2.t1 <<< 32 + 32000 <<< 48

/-- An outstanding request whose response is overdue is missed (R225). -/
def State.exchExpire (s : State) (port : Nat) : State :=
  match s.rspDue port with
  | some due => if s.ngt.now > due then s.exchLost port else s
  | none => s

/-- Whether a port's request may leave at `t1` (2⁻¹⁶ ns): within 32,000 ns of an instant of R225 not yet dealt with. -/
def State.exchDue (s : State) (port t1 : Nat) : Bool :=
  let g := exchSlot port (t1 >>> 16)
  t1 ≤ (g + 32000) <<< 16 && decide (8000 * port ≤ t1 >>> 16) &&
  (match s.ngt.slot.find? (·.1 == port) with | some (_, last) => last < g | none => true)

/-- A port's request leaves at `t1` (2⁻¹⁶ ns), at or after an instant of R225. -/
def State.exchStart (s : State) (port t1 : Nat) : State :=
  if !s.portUp port || !s.exchDue port t1 then s else
  let s1 := (s.reach (t1 <<< 32)).exchExpire port
  let seq := (tget 0 s1.ngt.exchSeq port + 1) % 2 ^ 16
  let t := hwStamp t1
  let r := exchRecord 1 s1.exchState.1 s1.exchState.2 seq t 0 0 (s1.reg R.ngtEpochId).toNat 0
  s1.setNgt { s1.ngt with exch := tins s1.ngt.exch port { seq := seq, t1 := t }, exchSeq := tset 0 s1.ngt.exchSeq port seq
                          sentRec := tset [] s1.ngt.sentRec port r, slot := tins s1.ngt.slot port (exchSlot port (t1 >>> 16)) }

/-- A partner's request arrives at `t2` and is answered at `t3` (R225, R226, R228). -/
def State.exchReq (s : State) (port : Nat) (r : List Byte) (t2 t3 : Nat) : State :=
  if !s.portUp port then s
  else
    let s1 := s.reach (t2 <<< 32)
    if exchBad r ∨ leAt r 0 1 ≠ 1 then s1.rejectExch port
    else
      let s2 := s1.reach (t3 <<< 32)
      let a := exchRecord 2 s2.exchState.1 s2.exchState.2 (leAt r 4 2) (hwStamp t2) (hwStamp t3) 0 (s2.reg R.ngtEpochId).toNat
        (leAt r 26 6)
      s2.setNgt { s2.ngt with sentRec := tset [] s2.ngt.sentRec port a }

/-- Whether the partner that sent a record serves domain `b`: LOCKED or MASTER, its active domain is `b` or it is master of `b`,
and its DEPTH is below 15 (R230). A LOCKED sender of depth 0 is master of B following A. -/
def servesDomain (r : List Byte) (b : Bool) : Bool :=
  let st := leAt r 1 1 % 16
  let act := bit (leAt r 1 1) 4
  (st == 2 || st == 5) && (act == b || (b && st == 2 && leAt r 2 1 == 0)) && leAt r 2 1 < 15

/-- Whether the device takes another epoch at its next step: no program armed or running, and in ACQUIRE, or FREE in no domain yet
(R230, R219, R220; that FREE with NGT_EPOCH_ID = 0 may is DEDUCED, log 89). -/
def State.mayTakeEpoch (s : State) : Bool :=
  !s.armed && (s.ngtState == ngtAcquire || (s.ngtState == ngtFree && s.reg R.ngtEpochId == 0))

/-- A measurement in another epoch of a device that may take it (R230): a FREE device acquires; where the servo steps, it takes the
epoch with the step and the exchange is usable; where it does not step, the exchange is not usable. -/
def State.foreign (s : State) (b : Bool) (e : Int) (port depth ep : Nat) : State :=
  if s.masterOf false ∨ s.fget R.ngtServoCtl F.ngtServoCtl_FREEZE = 1 ∨ s.fget R.ngtServoCtl F.ngtServoCtl_ENABLE = 0 then s
  else
    let s1 := if s.ngtState = ngtFree then (s.setActive b depth).setNgtState ngtAcquire port else s
    if s1.activeB = b ∧ s1.stepsOn e then s1.usable b e port depth (some ep) else s1

/-- A completed exchange on the parent port of domain `b`. -/
def State.parentExchange (s : State) (port : Nat) (b : Bool) (r : List Byte) (theta : Int) : State :=
  let ep := leAt r 32 8
  let depth := min 15 (leAt r 2 1 + 1)
  if s.parentOf b ≠ port ∨ s.masterOf b ∨ !servesDomain r b then s
  else if ep = (s.reg R.ngtEpochId).toNat then s.usable b theta port depth none
  else if s.mayTakeEpoch then s.foreign b theta port depth ep
  else s.raise 0x0308 1 {} (timeDetail (b2n b) port theta 0xFF)

/-- Whether a response is rejected (R226, R228). -/
def State.rspBad (s : State) (port : Nat) (r : List Byte) : Bool :=
  let sym := match s.top.active with | some a => a.switchSym | none => false
  exchBad r || leAt r 0 1 ≠ 2 || (decide (6 ≤ port) && !sym && (leAt r 26 6 = 0 || leAt r 40 6 = 0))

/-- The response arrives at `t4` (R227): offset and delay of the partner, and the servo for a parent. A record that is rejected is
counted whether or not a response is awaited. -/
def State.exchRsp (s : State) (port : Nat) (r : List Byte) (t4 : Nat) : State :=
  if !s.portUp port then s
  else
    let s1 := (s.reach (t4 <<< 32)).exchExpire port
    if s1.rspBad port r then s1.rejectExch port
    else match s1.ngt.exch.find? (·.1 == port) with
    | none => s1
    | some (_, x) =>
      if leAt r 4 2 ≠ x.seq then s1
      else
        let t4 := hwStamp t4
        let fwd : Int := (leAt r 6 10 : Int) - x.t1 - corrAt r 40
        let rev : Int := (t4 : Int) - leAt r 16 10 - corrAt r 26
        let asym := signedOf 32 (s1.fget (R.ngtPortNAsym port) F.ngtPortNAsym_ASYM)
        let theta := (fwd - rev - asym) / 2
        let delay := (fwd + rev) / 2
        let s2 := s1.setNgt { s1.ngt with exch := tdel s1.ngt.exch port, done := tins s1.ngt.done port s1.ngt.now }
        let o := R.ngtPortNOffset port
        let s3 := ((s2.fset o F.ngtPortNOffset_VALID 1).fset o F.ngtPortNOffset_THETA (ofSigned 48 theta)).fset
          (R.ngtPortNDelay port) F.ngtPortNDelay_DELAY (ofSigned 48 delay)
        ((s3.checkDelay port).parentExchange port false r theta).parentExchange port true r theta

/-- 192 us in 2⁻⁴⁸ ns. -/
def us192 : Nat := 192000 <<< 48

/-- The instant (ns) of R225 whose request a port has not sent yet: the last one, or the next if that has been dealt with. -/
def State.openSlot (s : State) (port : Nat) : Nat :=
  let g := max (8000 * port) (exchSlot port s.ns)
  match s.ngt.slot.find? (·.1 == port) with
  | some (_, last) => if g ≤ last then last + 64000 else g
  | none => g

/-- TIME_EXCHANGE_MISSED (R225): 32,000 ns have passed since an outstanding request left, or since an instant whose request has not
left. Only a trained port runs exchanges. -/
def State.exchMissed (s : State) (port : Nat) : State :=
  if !s.portUp port then s
  else match s.rspDue port with
  | some due =>
    let s1 := s.reach due
    if s1.ngt.now < due then s1 else s1.exchLost port
  | none =>
    let g := s.openSlot port
    let s1 := s.reach ((g + 32000) <<< 48)
    if s1.ngt.now < (g + 32000) <<< 48 then s1
    else (s1.setNgt { s1.ngt with slot := tins s1.ngt.slot port g }).exchLost port

/-- The device is master of its domain and follows nothing (R223, R232). -/
def State.asMaster (s : State) : State :=
  ((s.setNgtState ngtMaster 0xFF).setActive (!s.masterOf false) 0)

/-- The active domain of a LOCKED follower is not usable: HOLDOVER, unless a switch to the other domain is awaited (R232, R235). -/
def State.activeGone (s : State) : State :=
  if s.ngtState ≠ ngtLocked ∨ s.domState s.activeB = 2 ∨ (s.switchWanted ∧ s.domState (!s.activeB) = 2) then s
  else s.setNgtState ngtHold 0xFF

/-- A domain becomes MISSING: 192 us without a usable exchange, or its parent port down (R230, R232, R235). A master of B that
followed A is MASTER from then on (R223). -/
def State.domainMissing (s : State) (b : Bool) : State :=
  if s.domState b ≠ 2 then s else
  let live := decide (s.parentOf b < 8) && s.portUp (s.parentOf b)
  let due := match (s.ngt.dom b).lastUsable with | some t => t + us192 | none => 0
  let s1 := if live then s.reach due else s
  if live ∧ s1.ngt.now < due then s1
  else
    let s2 := ((s1.setNgt (s1.ngt.setDom b { s1.ngt.dom b with os := none })).setDom b 1).ppsTrack
    if s2.fget R.ngtServoCtl F.ngtServoCtl_FREEZE = 1 then s2
    else if s2.masterOf true ∧ b = false ∧ s2.ngtState ≠ ngtLost ∧ s2.ngtState ≠ ngtFree then s2.asMaster
    else s2.activeGone

/-- The holdover estimate exceeds its budget (R236). -/
def State.holdExpire (s : State) : State :=
  if s.ngtState ≠ ngtHold ∨ s.fget R.ngtServoCtl F.ngtServoCtl_FREEZE = 1 then s else
  let unc := s.fget R.ngtHoldover F.ngtHoldover_UNC_PS_PER_S
  let left := s.fget R.ngtHoldover F.ngtHoldover_BUDGET_PS * 65536 - s.ngt.eLast.natAbs * 1000
  let ovf := s.ngt.eLast.natAbs * 1000 > s.fget R.ngtHoldover F.ngtHoldover_BUDGET_PS * 65536
  if unc = 0 ∧ ¬ovf then s
  else
    let due := if ovf then s.ngt.now else s.ngt.holdStart + (left * 10 ^ 9 / (65536 * unc) + 1) <<< 48
    let s1 := s.reach due
    if s1.ngt.now < due then s1 else s1.setNgtState ngtFree 0xFF

/-! ## A tick (R216) -/

/-- A 1 GHz tick: the count grows by (1 + y) ns; a meridian is a command of its own and is not passed. -/
def State.idleTick (s : State) : State := s.reach (((s.ngt.now : Int) + 2 ^ 48 + s.ngt.y).toNat)

/-! ## Roles (R223, R232) -/

/-- Whether a usable exchange of a domain with a parent has completed in the last 192 us. -/
def State.liveDomain (s : State) (b : Bool) : Bool :=
  match (s.ngt.dom b).lastUsable with
  | some t => s.parentOf b < 8 && s.ngt.now ≤ t + us192
  | none => false

/-- What follows a change of NGT_ROLE: domain states, PPS inputs and the device's state. -/
def State.roleChanged (s : State) : State :=
  let dom (z : State) (b : Bool) : State :=
    if z.masterOf b then z.setDom b 5
    else if z.parentOf b > 7 then z.setDom b 0
    else if z.domState b = 2 then z
    else z.setDom b (if z.liveDomain b then 2 else 1)
  let s1 := (dom (dom s false) true).ppsTrack
  if s1.masterOf false ∨ (s1.masterOf true ∧ s1.domState false ≠ 2) then s1.asMaster
  else if s1.masterOf true then (if s1.activeB then s1.setActive false s1.ngt.domA.depth else s1)
  else if s1.ngtState = ngtMaster then
    let on := s1.fget R.ngtServoCtl F.ngtServoCtl_ENABLE = 1
    if on ∧ s1.liveDomain false then (s1.setActive false s1.ngt.domA.depth).setNgtState ngtAcquire 0xFF
    else if on ∧ s1.liveDomain true then (s1.setActive true s1.ngt.domB.depth).setNgtState ngtAcquire 0xFF
    else s1.setNgtState ngtFree 0xFF
  else s1.activeGone

/-- A new epoch at the master of A (R219): NGT restarts from 0. -/
def State.newEpoch (s : State) (id : Nat) : State :=
  let fresh (p : Pps) : Pps := if p.since.isSome then { p with since := some 0 } else p
  (s.setNgt { s.ngt with now := 0, done := [], exch := [], slot := [], ppsA := fresh s.ngt.ppsA, ppsB := fresh s.ngt.ppsB }).setReg
    R.ngtEpochId (BitVec.ofNat 64 id)

/-- Write of NGT_ROLE.SWITCH_REQ (R235). In FREE and MASTER there is no active domain to switch from: the spec is silent, and the
request is ignored (DESIGN CHOICE, log 90). -/
def State.switchReq (s : State) : State :=
  if s.ngtState = ngtMaster ∨ s.ngtState = ngtFree then s else s.setNgt { s.ngt with switchReq := true }

/-! ## PPS (R224) -/

/-- A PPS edge at `stamp` (2⁻¹⁶ ns). -/
def State.ppsEdge (s : State) (b rising : Bool) (stamp : Nat) : State :=
  if !s.ppsUse b ∨ (s.fget R.ngtPpsCtl F.ngtPpsCtl_EDGE = 1) = rising then s
  else
    let s1 := (s.reach (stamp <<< 32)).fset R.ngtStatus (ppsOk b) 1
    let s2 := s1.setNgt (s1.ngt.setPps b { since := some s1.ngt.now })
    let sec : Int := (10 ^ 9 * 65536 : Nat)
    let off : Int := (s.fget R.ngtPpsCtl F.ngtPpsCtl_OFFSET_NS * 65536 : Nat)
    let x : Int := (hwStamp stamp : Int) - off
    let e := (x + sec / 2) / sec * sec - x
    if s2.fget R.ngtServoCtl F.ngtServoCtl_FREEZE = 1 ∨ s2.fget R.ngtServoCtl F.ngtServoCtl_ENABLE = 0 then s2
    else (s2.setNgt { s2.ngt with eMeas := e }).servo e (some (10 ^ 9)) 0xFF none

/-- No PPS edge for 2 s on an input in use, since its last edge or since its use began: recorded once. -/
def State.ppsLost (s : State) (b : Bool) : State :=
  match (s.ngt.pps b).since with
  | none => s
  | some t =>
    if !s.ppsUse b || (s.ngt.pps b).lost then s else
    let due := t + (2 * 10 ^ 9) <<< 48
    let s1 := s.reach due
    if s1.ngt.now < due then s1
    else ((s1.setNgt (s1.ngt.setPps b { since := some t, lost := true })).fset R.ngtStatus (ppsOk b) 0).raise 0x0305 1 {}
      (timeDetail (b2n b) 0xFF s1.ngt.eMeas 0xFF)

/-! ## Triggers (R237, R238) -/

/-- A trigger. -/
def State.trig (s : State) (n : Nat) : Trig := tget {} s.ngt.trig n
/-- Hold a trigger. -/
def State.setTrig (s : State) (n : Nat) (t : Trig) : State := s.setNgt { s.ngt with trig := tset {} s.ngt.trig n t }
/-- MODE of a trigger. -/
def State.trigMode (s : State) (n : Nat) : Nat := s.fget (R.ngtTrigNCtl n) F.ngtTrigNCtl_MODE
/-- TIME of a trigger. -/
def State.trigTime (s : State) (n : Nat) : Nat := (s.reg (R.ngtTrigNTime n)).toNat

/-- The next firing instant in ns, none where the trigger has none. -/
def State.trigDue (s : State) (n : Nat) : Option Nat :=
  let t := s.trig n
  match s.trigMode n with
  | 1 => if t.spent then none else some (s.trigTime n)
  | 2 => some (s.trigTime n)
  | 3 => if s.valid && s.period ≠ 0 && t.fired ≠ some s.transit then
      some (s.transit * s.period + s.trigTime n % 2 ^ 32 % s.period) else none
  | _ => none

/-- The firing instant has been used: SINGLE is spent, PERIODIC advances, MERIDIAN waits for the next transit. -/
def State.trigNext (s : State) (n : Nat) : State :=
  match s.trigMode n with
  | 1 => s.setTrig n { s.trig n with spent := true }
  | 2 => s.setReg (R.ngtTrigNTime n) (BitVec.ofNat 64 (s.trigTime n + s.fget (R.ngtTrigNCtl n) F.ngtTrigNCtl_PERIOD_NS))
  | _ => s.setTrig n { s.trig n with fired := some s.transit }

/-- The first instant of a PERIODIC trigger that is not past. -/
def State.trigFuture (s : State) (n : Nat) : State :=
  let p := s.fget (R.ngtTrigNCtl n) F.ngtTrigNCtl_PERIOD_NS
  if s.trigMode n = 2 ∧ p ≠ 0 ∧ s.trigTime n < s.ns then
    s.setReg (R.ngtTrigNTime n) (BitVec.ofNat 64 (s.trigTime n + cdiv (s.ns - s.trigTime n) p * p))
  else s

/-- A firing instant is missed (R238). A trigger belongs to no domain: the domain byte of its record is 0 (DESIGN CHOICE, log 90). -/
def State.trigMiss (s : State) (n : Nat) : State :=
  let s1 := (s.fset (R.ngtTrigNCtl n) F.ngtTrigNCtl_MISSED 1).raise 0x0306 1 {} (timeDetail 0 0xFF s.ngt.eMeas n)
  if s.trigMode n = 2 then s1.trigFuture n else s1.trigNext n

/-- A trigger's instant comes: it fires on the next tick, or has been missed. -/
def State.trigFire (s : State) (n : Nat) : State :=
  match s.trigDue n with
  | none => s
  | some ns =>
    if s.ngt.now > (ns + 1) <<< 48 then s.trigMiss n
    else
      let s1 := s.reach (ns <<< 48)
      if s1.ngt.now < ns <<< 48 then s
      else
        let w := s1.fget (R.ngtTrigNCtl n) F.ngtTrigNCtl_WIDTH_NS
        (s1.setTrig n { s1.trig n with pulseEnd := some ((ns + w) <<< 48) }).trigNext n

/-- Whether a write of NGT_TRIG_n_CTL has no effect on the register (R238). -/
def trigBad (v : Nat) : Bool :=
  (field v 0 3 == 2 && decide (field v 32 32 ≤ field v 16 16)) || (field v 0 3 != 0 && field v 16 16 == 0)

/-- What a write of NGT_TRIG_n_CTL asks of the register as it stands: bits it does not cover keep their value, MISSED is not
cleared by them. -/
def State.ctlAsked (s : State) (n : Nat) (w : Nat × Nat) : Nat :=
  let old := F.ngtTrigNCtl_MISSED.put (s.reg (R.ngtTrigNCtl n)).toNat 0
  (old &&& (2 ^ 64 - 1 - w.2)) ||| (w.1 &&& w.2)

/-- The register part of a write of NGT_TRIG_n_TIME. -/
def State.trigTimeReg (s : State) (n : Nat) (w : Nat × Nat) : State :=
  s.setReg (R.ngtTrigNTime n) (BitVec.ofNat 64 ((s.trigTime n &&& (2 ^ 64 - 1 - w.2)) ||| (w.1 &&& w.2)))

/-- The register part of a write of NGT_TRIG_n_CTL; a reserved MODE, and a WIDTH_NS of 0, leave their fields unchanged (R244). -/
def State.trigCtlReg (s : State) (n v : Nat) : State :=
  let o := R.ngtTrigNCtl n
  let s1 := if bit v 5 then s.fset o F.ngtTrigNCtl_MISSED 0 else s
  let s2 := (s1.fset o F.ngtTrigNCtl_PERIOD_NS (field v 32 32)).fset o F.ngtTrigNCtl_POLARITY (field v 4 1)
  let s3 := if field v 16 16 = 0 then s2 else s2.fset o F.ngtTrigNCtl_WIDTH_NS (field v 16 16)
  if field v 0 3 ≤ 3 then s3.fset o F.ngtTrigNCtl_MODE (field v 0 3) else s3

/-- Writes of NGT_TRIG_n_TIME and NGT_TRIG_n_CTL take effect together. An instant that TIME, or a change of MODE, sets and that is
already past is missed (R238); another write of CTL sets no instant. -/
def State.trigApply (s : State) (n : Nat) (w : TrigWrite) : State :=
  let ctl := (w.ctl.map (s.ctlAsked n)).filter fun v => !trigBad v
  if w.time.isNone && ctl.isNone then s
  else
    let s1 := match w.time with
      | some x => s.trigTimeReg n x
      | none => s
    let s2 := match ctl with
      | some v => s1.trigCtlReg n v
      | none => s1
    if w.time.isNone ∧ s2.trigMode n = s.trigMode n then s2
    else
      let s3 := s2.setTrig n { s2.trig n with spent := false, fired := none }
      match s3.trigDue n with
      | some ns => if s3.ngt.now > (ns + 1) <<< 48 then
          (if s3.trigMode n = 3 then s3.setTrig n { s3.trig n with fired := some s3.transit } else s3.trigMiss n) else s3
      | none => s3

/-- Writes of the registers of a trigger; during a pulse they wait for its end, in their order (R237). -/
def State.trigWrites (s : State) (n : Nat) (w : TrigWrite) : State :=
  let t := s.trig n
  if t.pulseEnd.isSome then s.setTrig n { t with pend := t.pend ++ [w] } else s.trigApply n w

/-- A write of one register of a trigger. -/
def State.trigWrite (s : State) (n : Nat) (ctl : Bool) (v span : Nat) : State :=
  if ctl then s.trigWrites n { ctl := some (v, span) } else s.trigWrites n { time := some (v, span) }

/-- A pulse ends, and the writes that waited for it take effect. -/
def State.trigEnd (s : State) (n : Nat) : State :=
  let t := s.trig n
  match t.pulseEnd with
  | none => s
  | some e =>
    let s1 := s.reach e
    if s1.ngt.now < e then s1
    else t.pend.foldl (fun z w => z.trigApply n w) (s1.setTrig n { s1.trig n with pulseEnd := none, pend := [] })

/-! ## Captures (R239) -/

/-- A capture queue. -/
def State.capt (s : State) (n : Nat) : Capt := tget {} s.ngt.capt n
/-- Hold a capture queue. -/
def State.setCapt (s : State) (n : Nat) (c : Capt) : State := s.setNgt { s.ngt with capt := tset {} s.ngt.capt n c }

/-- An edge on CAPT_INn, which belongs to no domain (log 90), at `stamp` (2⁻¹⁶ ns). -/
def State.captEdge (s : State) (n : Nat) (rising : Bool) (stamp : Nat) : State :=
  let o := R.ngtCaptNCtl n
  if !bit (s.fget o F.ngtCaptNCtl_EDGE) (if rising then 0 else 1) then s
  else
    let s1 := s.reach (stamp <<< 32)
    let c := s1.capt n
    let seq := (c.seq + 1) % 2 ^ 16
    if c.fifo.length ≥ 16 then
      let s2 := (s1.setCapt n { c with seq := seq, dropSeen := true }).fbump o F.ngtCaptNCtl_OVERFLOW 1
      if c.dropSeen then s2 else s2.raise 0x0307 1 {} (timeDetail 0 0xFF s2.ngt.eMeas n)
    else s1.setCapt n { c with seq := seq, fifo := c.fifo ++ [{ stamp := hwStamp stamp, rising := rising, seq := c.seq }] }

/-- POP removes the head entry. -/
def State.captPop (s : State) (n : Nat) : State :=
  let c := s.capt n
  s.setCapt n { c with fifo := c.fifo.drop 1, dropSeen := if c.fifo.length ≤ 16 ∧ c.fifo ≠ [] then false else c.dropSeen }

/-! ## Host time (R240, R241) -/

/-- The PTM request timer: a request leaves every PERIOD_MS ms while the host has enabled PTM and PERIOD_MS is not 0. -/
def State.ptmRequest (s : State) : State :=
  let per := s.fget R.ngtPtmCtl F.ngtPtmCtl_PERIOD_MS
  if !s.stw.pcie.ptmOn || per == 0 then s
  else
    let due := match s.ngt.ptmLast with | some t => t + (per * 10 ^ 6) <<< 48 | none => 0
    let s1 := s.reach due
    if s1.ngt.now < due then s1
    else s1.setNgt { s1.ngt with ptmSent := some (hwStamp s1.stamp), ptmLast := some s1.ngt.now }

/-- A PTM response arrives at `t4` (2⁻¹⁶ ns). With the master time at which the root complex took the request and the propagation
delay it spent on the previous dialog (none in the first response), the pair is that master time and the NGT instant at which
it held: half the path delay of the dialog after the request left. SEQ passes through an odd value and is even again (R241). The
fields and their dialogs are those of PCI Express (PRESUMED, log 91). -/
def State.ptmResponse (s : State) (t4 : Nat) (fields : Option (BitVec 64 × BitVec 32)) : State :=
  match s.ngt.ptmSent with
  | none => s
  | some t1 =>
    let s1 := s.reach (t4 <<< 32)
    let r := hwStamp t4
    let s2 := (s1.setNgt { s1.ngt with ptmSent := none, ptmPrev := some (t1, r) }).fset R.ngtPtmCtl F.ngtPtmCtl_ACTIVE 1
    match fields with
    | none => s2
    | some (master, delay) =>
      let (p1, p4) := s1.ngt.ptmPrev.getD (t1, r)
      let ngt := (t1 + (p4 - p1 - delay.toNat * 65536) / 2) / 65536
      ((s2.setReg R.ngtPtmHost master).setReg R.ngtPtmNgt (BitVec.ofNat 64 ngt)).fset R.ngtPtmCtl F.ngtPtmCtl_SEQ
        (s2.fget R.ngtPtmCtl F.ngtPtmCtl_SEQ + 2)

/-- The host enables or disables PTM: disabled, it has no dialog and ACTIVE is 0. -/
def State.ptmEnable (s : State) (on : Bool) : State :=
  let s1 : State := { s with stw := { s.stw with pcie := { s.stw.pcie with ptmOn := on } } }
  if on then s1
  else (s1.setNgt { s1.ngt with ptmSent := none, ptmLast := none, ptmPrev := none }).fset R.ngtPtmCtl F.ngtPtmCtl_ACTIVE 0

/-! ## Commands -/

/-- TIME_EXCHANGE_START (R225). -/
def execTimeExchangeStart (port : Port) (t1 : Nat) (s : State) : Host.Outcome State Fault Refusal := .next (s.exchStart port.val t1)
/-- TIME_EXCHANGE_REQ_RECEIVED (R225). -/
def execTimeExchangeReqReceived (port : Port) (record : List Byte) (t2 t3 : Nat) (s : State) : Host.Outcome State Fault Refusal :=
  .next (s.exchReq port.val record t2 t3)
/-- TIME_EXCHANGE_RSP_RECEIVED (R227). -/
def execTimeExchangeRspReceived (port : Port) (record : List Byte) (t4 : Nat) (s : State) : Host.Outcome State Fault Refusal :=
  .next (s.exchRsp port.val record t4)
/-- TIME_EXCHANGE_MISSED (R225). -/
def execTimeExchangeMissed (port : Port) (s : State) : Host.Outcome State Fault Refusal := .next (s.exchMissed port.val)
/-- DOMAIN_MISSING (R230). -/
def execDomainMissing (b : Bool) (s : State) : Host.Outcome State Fault Refusal := .next (s.domainMissing b)
/-- HOLDOVER_BUDGET_EXPIRY (R236). -/
def execHoldoverBudgetExpiry (s : State) : Host.Outcome State Fault Refusal := .next s.holdExpire
/-- PPS_EDGE (R224). -/
def execPpsEdge (b rising : Bool) (stamp : Nat) (s : State) : Host.Outcome State Fault Refusal := .next (s.ppsEdge b rising stamp)
/-- PPS_LOST (R224). -/
def execPpsLost (b : Bool) (s : State) : Host.Outcome State Fault Refusal := .next (s.ppsLost b)
/-- TRIGGER_FIRE (R237). -/
def execTriggerFire (n : Fin 4) (s : State) : Host.Outcome State Fault Refusal := .next (s.trigFire n.val)
/-- TRIGGER_PULSE_END (R237). -/
def execTriggerPulseEnd (n : Fin 4) (s : State) : Host.Outcome State Fault Refusal := .next (s.trigEnd n.val)
/-- CAPTURE_EDGE (R239). -/
def execCaptureEdge (n : Fin 4) (rising : Bool) (stamp : Nat) (s : State) : Host.Outcome State Fault Refusal :=
  .next (s.captEdge n.val rising stamp)
/-- PTM_REQUEST_TIMER (R240). -/
def execPtmRequestTimer (s : State) : Host.Outcome State Fault Refusal := .next s.ptmRequest
/-- PTM_RESPONSE (R240). -/
def execPtmResponse (t4 : Nat) (fields : Option (BitVec 64 × BitVec 32)) (s : State) : Host.Outcome State Fault Refusal :=
  .next (s.ptmResponse t4 fields)
/-- NGT_SWITCH_REQ (R235). -/
def execNgtSwitchReq (s : State) : Host.Outcome State Fault Refusal := .next s.switchReq
/-- NGT_CAPT_POP (R239). -/
def execNgtCaptPop (n : Fin 4) (s : State) : Host.Outcome State Fault Refusal := .next (s.captPop n.val)
/-- NGT_TRIG_WRITE (R237). -/
def execNgtTrigWrite (n : Fin 4) (ctl : Bool) (v : Word) (s : State) : Host.Outcome State Fault Refusal :=
  .next (s.trigWrite n.val ctl v.toNat (2 ^ 64 - 1))

end Sys2Proof.Machine
end

