-- ==== Sys2Proof/Machine/Link.lean ====
section
/-!
DEFINITION. The Laistic link (14): frames and packets received, acknowledgement and replay, lanes and their sparing, training,
recovery and link-down, the gate, and the departure of service packets (13, R342).
-/
namespace Sys2Proof.Machine

/-! ## Sequence numbers (R374, R375) -/

/-- Signed distance of link sequence numbers. -/
def lnkDist (a b : Nat) : Int := diffMod 20 a b

/-- RX_NEXT advances past the settled sequences. -/
def Link.advance (l : Link) : Nat → Link
  | 0 => l
  | fuel + 1 =>
    if l.settled.contains l.rxNext then
      Link.advance { l with rxNext := (l.rxNext + 1) % 2 ^ 20, settled := l.settled.erase l.rxNext } fuel
    else l

/-- What follows every packet: RX_NEXT := max(RX_NEXT, FLOOR), then past the settled sequences. -/
def Link.afterPacket (l : Link) : Link :=
  let l1 := if lnkDist l.floor l.rxNext > 0 then
      { l with rxNext := l.floor, settled := l.settled.filter fun x => lnkDist x l.floor ≥ 0 } else l
  l1.advance l1.settled.length

/-! ## States of a port (R382, R386 to R388) -/

/-- A port loses symbol lock and enters RECOVER (R386). -/
def State.loseLock (s : State) (p : Nat) : State :=
  let l := s.link p
  if l.st ≠ .up then s
  else ((s.setLink p { l with st := .recover, recoverAt := some s.ngt.now, asm := [], unreadable := 0, expiries := 0 }).lnkRecord
    0x0704 1 p 0 0xFF 0 0).portNotice p

/-- What DOWN discards (R387): the replay buffer and the sequence state, which is new from then on (R388). -/
def Link.emptied (l : Link) : Link :=
  { l with txNext := 0, txOldest := 0, rxNext := 0, floor := 0, settled := [], sent := [], ended := [], replaySvc := [],
           naks := [], asm := [], unreadable := 0, expiries := 0, fresh := true, recoverAt := none }

/-- A port goes DOWN (R382, R387, R389): the link fault is recorded, and a footprint port starts a detour; `tf` is the transit
that lost the link. -/
def State.goDown (s : State) (p reason tf : Nat) : State :=
  let l := s.link p
  let g : Gate := if l.gate = .leaving then .leaving else .closed
  let s1 := (s.setLink p { l.emptied with st := .down, gate := g, downReason := reason }).fset (R.lnkCtl p) F.lnkCtl_GATE 0
  ((s1.lnkRecord 0x0705 3 p reason 0xFF 0 0).portNotice p).detourStart p tf

/-! ## NAKs sent (R376) -/

/-- A NAK joins the queue of 16, unless it is full; each occupies the headers of two frets. -/
def State.sendNak (s : State) (p g mask : Nat) : State :=
  let l := s.link p
  let waiting := l.naks.filter fun n => n.1 > s.nowFret
  if waiting.length ≥ 16 ∨ mask = 0 then s.setLink p { l with naks := waiting }
  else
    let start := waiting.foldl (fun m n => max m n.1) s.nowFret
    (s.setLink p { l with naks := waiting ++ [(start + 2, g % 2 ^ 16, mask)] }).fbump (R.lnkErrCount p) F.lnkErrCount_NAK_SENT 1

/-! ## Packets received (R375) -/

/-- The vector a packet's flits spell. -/
def vecOfFlits (fl : List (BitVec 512)) : Vec :=
  { header := fl.headD 0
    payload := BitVec.ofNat 12800 ((fl.drop 1).foldr (fun f v => f.toNat + 2 ^ 512 * v) 0) }

/-- The service packet a packet's flits spell. -/
def svcOfFlits (fl : List (BitVec 512)) : SvcPkt :=
  { flit := fl.headD 0, body := (fl.drop 1).flatMap fun f => leBytes 64 f.toNat }

/-- A vector whose link copy was stomped, or which this port stomps (`own`), goes on stomped (R318). -/
def State.pushStomped (s : State) (p at' : Nat) (v : Vec) (own : Bool) : State :=
  let l := s.link p
  let s1 := s.setLink p { l with rxVec := l.rxVec ++ [{ vec := { v with stomped := true }, at_ := at', own := own }] }
  if own then s1.fbump (R.fabCountErr p) F.fabCountErr_STOMPS 1 else s1

/-- A service packet joins those a port has received. A data packet whose header is good goes on by cut-through before its link CRC is
known: if that fails, the copy goes on stomped (R318, R334). -/
def State.pushSvc (s : State) (p : Nat) (k : SvcPkt) : State :=
  s.setLink p { s.link p with rxSvc := (s.link p).rxSvc ++ [k] }

/-- One packet received: whether it is NAKed, and the state (R375). -/
def State.takePacket (s : State) (p : Nat) (fl : List (BitVec 512)) (seq : Nat) (crc : Crc) (readable : Bool) (at' : Nat) :
    Bool × State :=
  let l := s.link p
  let isVec := hPlane (fl.headD 0).toNat == 0
  let v := vecOfFlits fl
  let crc := if isVec && crc == .good && !hcrcOk v.header.toNat then Crc.failed else crc
  let done (z : State) : State := z.setLink p (z.link p).afterPacket
  if l.gate = .closed ∨ l.st ≠ .up then (false, done (s.lnkRecord 0x0707 1 p 4 0xFF 0 seq))
  else if lnkDist seq l.rxNext < 0 ∨ l.settled.contains seq then
    (false, done (s.fbump (R.lnkDupCount p) F.lnkDupCount_DUPLICATES 1))
  else if lnkDist seq l.rxNext ≥ 8192 then (false, done (s.lnkRecord 0x0707 1 p 1 0xFF 0 seq))
  else if !readable ∨ crc = .failed then
    let s1 := if readable then s.fbump (R.lnkErrCount p) F.lnkErrCount_CRC_FAIL 1 else s
    let s2 := if isVec && hcrcOk v.header.toNat then s1.pushStomped p at' v true
      else if hPlane (fl.headD 0).toNat = 2 ∧ hcrcOk (fl.headD 0).toNat then s1.pushSvc p { svcOfFlits fl with stomped := true }
      else s1
    (true, done s2)
  else
    let s1 := s.setLink p { l with settled := l.settled ++ [seq] }
    let s2 := if isVec then
        (if crc = .stomped then s1.pushStomped p at' v false
         else s1.setLink p { s1.link p with rxVec := (s1.link p).rxVec ++ [{ vec := v, at_ := at' }] })
      else s1.pushSvc p { svcOfFlits fl with stomped := decide (crc = .stomped) }
    (false, done s2)

/-! ## Acknowledgement (R377, R379) -/

/-- An ACK arrives (R377). -/
def State.onAck (s : State) (p a : Nat) : State :=
  let l := s.link p
  if lnkDist a l.txOldest > lnkDist l.txNext l.txOldest then s.lnkRecord 0x0707 1 p 2 0xFF 1 a
  else if lnkDist a l.txOldest ≤ 0 then s
  else
    let keep (x : Nat) : Bool := lnkDist x a ≥ 0
    (s.setLink p { l with txOldest := a, sent := l.sent.filter fun e => keep e.seq, replaySvc := l.replaySvc.filter keep,
                          expiries := 0, ackSince := s.ngt.now }).drainCheck

/-- A NAK names slot `k` of the frame sent in fret `g`; true where the slot is empty (R377). -/
def State.nakSlot (s : State) (p g k : Nat) : Bool × State :=
  let l := s.link p
  match l.ended.find? fun e => e.1 == g && e.2.1 == k with
  | none => (true, s)
  | some e =>
    match l.sent.find? fun x => x.seq == e.2.2 with
    | none => (false, s)
    | some x =>
      if x.isVec then (false, if x.nakd && !x.replay then s else s.nakVector p x)
      else if x.nakd then (false, s)
      else
        (false, s.setLink p { l with sent := l.sent.map fun y => if y.seq = x.seq then { y with nakd := true } else y
                                     replaySvc := if l.replaySvc.contains x.seq then l.replaySvc else l.replaySvc ++ [x.seq] })

/-- A NAK arrives (R377): `fret` names the frame by its low 16 bits. -/
def State.onNak (s : State) (p fret mask : Nat) : State :=
  let s0 := s.fbump (R.lnkErrCount p) F.lnkErrCount_NAK_RECEIVED 1
  let l := s.link p
  match l.ended.find? fun e => e.1 % 2 ^ 16 == fret && s.nowFret ≤ e.1 + 256 with
  | none => s0.lnkRecord 0x0707 1 p 2 0xFF 1 0
  | some e =>
    let (bad, s1) := (below 6 (bit mask)).foldl (fun (z : Bool × State) k =>
      let r := z.2.nakSlot p e.1 k
      (z.1 || r.1, r.2)) (false, s0)
    if bad then s1.lnkRecord 0x0707 1 p 2 0xFF 1 0 else s1

/-- Sequences of the unacknowledged service packets, in order. -/
def Link.unackedSvc (l : Link) : List Nat := (l.sent.filter (!·.isVec)).map (·.seq)

/-- The ACK timer of a port expires (R379); before that instant, or while it does not run, nothing is due. It runs while the replay
buffer holds a packet, and starts anew where a gate opens that held it (log 102). -/
def State.ackExpire (s : State) (p : Nat) : State :=
  let l := s.link p
  if l.st ≠ .up ∨ l.partner ≠ .opened ∨ l.gate = .closed ∨ (s.buffered p).isEmpty then s
  else
    let due := l.ackSince + (s.fget (R.lnkAckCtl p) F.lnkAckCtl_ACK_TIMEOUT_NS) <<< 48
    let s1 := s.reach due
    if s1.ngt.now < due ∨ (s1.buffered p).isEmpty then s1
    else
      let s2 := (s1.lnkRecord 0x0706 1 p 0 0xFF 1 l.txOldest).fbump (R.lnkReplay p) F.lnkReplay_TIMEOUTS 1
      let s3 := s2.setLink p { s2.link p with replaySvc := l.unackedSvc, expiries := l.expiries + 1, ackSince := s2.ngt.now }
      if l.expiries + 1 ≥ s.fget (R.lnkAckCtl p) F.lnkAckCtl_STALL_LIMIT then s3.loseLock p else s3

/-- The partner's gate as last reported (R380, R382). -/
def State.onGate (s : State) (p g : Nat) : State :=
  let l := s.link p
  if g = 2 then s.goDown p 2 s.transit
  else if g = 1 then
    (if l.partner = .opened then s else (s.setLink p { l with partner := .opened, ackSince := s.ngt.now }).pumpEvery)
  else if g = 0 then s.setLink p { l with partner := .closed }
  else s

/-! ## Lanes (R383 to R385) -/

/-- Lane `n` of a direction. -/
def Link.lane (l : Link) (rx : Bool) (n : Nat) : Lane := tget {} (if rx then l.rxLanes else l.txLanes) n
/-- Hold a lane of a direction. -/
def Link.setLane (l : Link) (rx : Bool) (n : Nat) (x : Lane) : Link :=
  if rx then { l with rxLanes := tset {} l.rxLanes n x } else { l with txLanes := tset {} l.txLanes n x }

/-- Numbers of the lanes with a role. -/
def Link.withRole (l : Link) (rx : Bool) (r : LaneRole) : List Nat := below 30 fun n => (l.lane rx n).role == r

/-- The parity lane that covers a logical lane, if any. -/
def Link.cover (l : Link) (rx : Bool) (logical : Nat) : Option Nat :=
  (l.withRole rx .parity).find? fun n => (l.lane rx n).logical == 30 || (l.lane rx n).logical == 28 + logical / 14

/-- Parity group of a lane: 0 while one parity covers all lanes. -/
def Link.group (l : Link) (rx : Bool) (n : Nat) : Nat :=
  let all := (List.range 30).any fun k => (l.lane rx k).logical == 30 && (l.lane rx k).role != .retired
  let g := (l.lane rx n).logical
  if all then 0 else if g ≥ 28 then g - 28 else g / 14

/-- Begin the substitution of a lane of the receive direction: SUB_REQ leaves until SUB_ACK arrives. -/
def Link.askSub (l : Link) (n : Nat) : Link :=
  if l.subs.any (fun x => x.rx && x.lane == n) then l else { l with subs := l.subs ++ [{ rx := true, lane := n, switchFret := none }] }

/-- A receive lane is marked FAILED (R384, R386). -/
def State.laneFail (s : State) (p n : Nat) : State :=
  let l := s.link p
  let x := l.lane true n
  if l.st ≠ .up ∨ x.role = .failed ∨ x.role = .retired then s
  else
    let twice := (l.withRole true .failed).any fun k => l.group true k == l.group true n
    let bare := x.role == .active && (l.cover true x.logical).isNone
    let l1 := l.setLane true n { x with role := .failed, lock := false, errs := [] }
    let l2 := if s.fget (R.lnkLaneCtl p) F.lnkLaneCtl_AUTO_SUB = 1 then l1.askSub n else l1
    let s1 := (s.setLink p l2).lnkRecord 0x0701 1 p 0 n 0 0
    if twice ∨ bare then s1.loseLock p else s1

/-- SUB_REQ arrives: the switch fret is the first multiple of 256 at least 64 frets on (R385). -/
def State.subReq (s : State) (p n : Nat) : State :=
  let l := s.link p
  let x := l.lane false n
  if l.st ≠ .up ∨ x.role = .retired ∨ (x.role = .active ∧ (l.cover false x.logical).isNone) ∨
      l.subs.any (fun y => !y.rx && y.lane == n) then s
  else s.setLink p { l with subs := l.subs ++ [{ rx := false, lane := n, switchFret := some (cdiv (s.nowFret + 64) 256 * 256) }] }

/-- SUB_ACK arrives with bits 15:8 of the switch fret (R385). -/
def State.subAck (s : State) (p n fret256 : Nat) : State :=
  let l := s.link p
  let now := cdiv s.nowFret 256
  let fret := (now + (fret256 + 256 - now % 256) % 256) * 256
  s.setLink p { l with subs := l.subs.map fun y => if y.rx && y.lane == n && y.switchFret.isNone then
    { y with switchFret := some fret } else y }

/-- At the switch fret a lane's logical lane moves to its group's parity lane, the remaining spare takes parity over all lanes,
and the lane is RETIRED (R385). -/
def Link.substitute (l : Link) (rx : Bool) (n : Nat) : Link :=
  let x := l.lane rx n
  let l1 := match (if x.logical < 28 then l.cover rx x.logical else none) with
    | some k => l.setLane rx k { l.lane rx k with role := .active, logical := x.logical }
    | none => l
  let l2 := l1.setLane rx n { x with role := .retired, lock := false, errs := [] }
  let l3 := match l2.withRole rx .parity with
    | [k] => l2.setLane rx k { l2.lane rx k with logical := 30 }
    | _ => l2
  if rx then { l3 with rxRetired := sins l3.rxRetired n } else { l3 with txRetired := sins l3.txRetired n }

/-- The earliest substitution with a switch fret takes place (R385). -/
def State.laneSwitch (s : State) (p : Nat) : State :=
  let l := s.link p
  let due := l.subs.filterMap fun y => y.switchFret.map fun f => (f, y)
  match due with
  | [] => s
  | d :: ds =>
    let (f, y) := ds.foldl (fun a b => if b.1 < a.1 then b else a) d
    let s1 := s.reach (fretStart f)
    if s1.ngt.now < fretStart f then s1
    else
      let l1 := (s1.link p).substitute y.rx y.lane
      let s2 := (s1.setLink p { l1 with subs := l1.subs.erase y }).lnkRecord 0x0702 1 p 0 y.lane (b2n (!y.rx)) 0
      if (l1.withRole y.rx .parity).isEmpty then s2.lnkRecord 0x0703 1 p 0 y.lane (b2n (!y.rx)) 0 else s2

/-- A receive lane is retired by firmware: the substitution starts if the lane is not retired and a parity lane can take its
logical lane (R385). -/
def State.retireLane (s : State) (p n : Nat) : State :=
  let l := s.link p
  let x := l.lane true n
  if n ≥ 30 ∨ l.st ≠ .up ∨ x.role = .retired ∨ (x.logical < 28 ∧ (l.cover true x.logical).isNone) then s
  else s.setLink p (l.askSub n)

/-! ## Training and recovery (R387 to R389) -/

/-- Roles of the lanes of a direction after training: the 28 lowest usable lanes carry the logical lanes, the rest parity. -/
def mapLanes (usable : List Nat) : List (Nat × Lane) :=
  let act := usable.take 28
  let spare := (usable.drop 28).take 2
  (List.range 30).foldl (fun t n =>
    match act.findIdx? (· == n), spare.findIdx? (· == n) with
    | some i, _ => tset {} t n { role := .active, logical := i, lock := true }
    | none, some j => tset {} t n { role := .parity, logical := if spare.length = 2 then 28 + j else 30, lock := true }
    | none, none => tset {} t n { role := .retired, logical := 0, lock := false }) []

/-- Lock is gained with either end FRESH: the sequence state starts anew (R388). -/
def State.seqReset (s : State) (p : Nat) (fresh : Bool) : State :=
  let l := s.link p
  if l.fresh || fresh then (s.setLink p { l.emptied with fresh := l.fresh }).lnkRecord 0x0708 1 p 0 0xFF 0 0 else s

/-- Training fails (R389): a port that was training from RESET or by command goes DOWN. -/
def State.trainFail (s : State) (p reason : Nat) : State :=
  if (s.link p).st = .training then s.goDown p reason s.transit else s

/-- A port runs time exchanges from the next instant of R225 on. -/
def State.exchFrom (s : State) (p : Nat) : State := { s with ngt := { s.ngt with slot := tins s.ngt.slot p (exchSlot p s.ns) } }

/-- The lanes of a direction that training found usable and that are not retired. -/
def Link.usable (l : Link) (t : TrainData) (rx : Bool) : List Nat :=
  below 30 fun n => (if rx then t.rxUsable else t.txUsable).contains n && !(if rx then l.rxRetired else l.txRetired).contains n

/-- Frame lock is gained: the port is UP with the lane maps, the neighbour's record and the scramblers of the training (R366, R389). -/
def State.gainLock (s : State) (p : Nat) (t : TrainData) : Link :=
  let l := s.link p
  { l with st := .up, rxLanes := mapLanes (l.usable t true), txLanes := mapLanes (l.usable t false), subs := [], record := t.record,
           rxScr := t.scr, txScr := { word := Config.scramblerSeed p s.nowFret, fret := s.nowFret } }

/-- Training succeeds: the port is UP with its gate CLOSED, or DOWN with too few lanes (R387, R389); the neighbour's record is
compared with the plan (R404). -/
def State.trained (s : State) (p : Nat) (t : TrainData) : State :=
  let l := s.link p
  if ¬(l.st = .training ∨ l.st = .down) ∨ s.fget (R.lnkCtl p) F.lnkCtl_FORCE_DOWN = 1 then s
  else if (l.usable t true).length < 28 ∨ (l.usable t false).length < 28 then s.trainFail p 4
  else
    let s1 := s.setLink p { s.gainLock p t with gate := if l.gate = .leaving then .leaving else .closed, partner := .closed }
    ((s1.exchFrom p).seqReset p t.fresh).comparePort p

/-- Frame lock is regained within LNK_DOWN_TIME, on 28 lanes each way (R387). -/
def State.recovered (s : State) (p : Nat) (t : TrainData) : State :=
  let l := s.link p
  match l.recoverAt with
  | none => s
  | some at_ =>
    if l.st ≠ .recover ∨ s.ngt.now > at_ + (s.fget (R.lnkDownTime p) F.lnkDownTime_US * 1000) <<< 48 ∨
        (l.usable t true).length < 28 ∨ (l.usable t false).length < 28 then s
    else
      let s1 := s.setLink p { s.gainLock p t with recoverAt := none, replaySvc := l.unackedSvc, ackSince := s.ngt.now }
      (((s1.exchFrom p).seqReset p t.fresh).comparePort p).pumpEvery

/-- LNK_DOWN_TIME after entering RECOVER the port goes DOWN (R387). -/
def State.downTimeout (s : State) (p : Nat) : State :=
  let l := s.link p
  match l.recoverAt with
  | none => s
  | some t =>
    if l.st ≠ .recover then s else
    let due := t + (s.fget (R.lnkDownTime p) F.lnkDownTime_US * 1000) <<< 48
    let s1 := s.reach due
    if s1.ngt.now < due then s1 else s1.goDown p 1 (s1.transitOf t)

/-! ## Control of a port (R381, R389) -/

/-- TRAIN = 1 starts training from DOWN. -/
def State.trainPort (s : State) (p : Nat) : State :=
  let l := s.link p
  if l.st = .down ∧ s.fget (R.lnkCtl p) F.lnkCtl_FORCE_DOWN = 0 then (s.setLink p { l with st := .training }).portNotice p else s

/-- A write of FORCE_DOWN. -/
def State.forceDown (s : State) (p : Nat) (v : Bool) : State :=
  let st := (s.link p).st
  if st = .disabled then s
  else
    let s1 := s.fset (R.lnkCtl p) F.lnkCtl_FORCE_DOWN (b2n v)
    if !v ∨ st = .reset then s1
    else if st = .down then s1.setLink p { s1.link p with downReason := 5 }
    else s1.goDown p 5 s1.transit

/-- A write of GATE: 1 opens only while UP and not quarantined (R381). -/
def State.gateWrite (s : State) (p : Nat) (v : Bool) : State :=
  let l := s.link p
  if l.st = .disabled then s
  else if !v then s.closeGate p
  else if l.st ≠ .up ∨ s.fget (R.lnkCtl p) F.lnkCtl_QUARANTINE = 1 ∨ l.gate = .leaving then s
  else ((s.setLink p { l with gate := .opened, ackSince := if l.gate = .opened then l.ackSince else s.ngt.now }).fset (R.lnkCtl p)
    F.lnkCtl_GATE 1).pumpEvery

/-- A write of QUARANTINE: 1 holds the gate CLOSED whatever GATE holds, 0 lets GATE act again (R381). -/
def State.quarantineWrite (s : State) (p : Nat) (v : Bool) : State :=
  let l := s.link p
  if l.st = .disabled then s
  else if v then s.quarantine p
  else
    let s1 := s.fset (R.lnkCtl p) F.lnkCtl_QUARANTINE 0
    if s1.fget (R.lnkCtl p) F.lnkCtl_GATE = 1 then s1.gateWrite p true else s1

/-! ## Frames (R367 to R373) -/

/-- Corrected symbols of one lane in this fret: counted, and a lane over FAIL_THRESH within 2²⁰ frets fails (R384). -/
def State.symErrors (s : State) (p logical n : Nat) : State :=
  let l := s.link p
  if n = 0 then s else
  match (l.withRole true .active).find? fun k => (l.lane true k).logical == logical with
  | none => s
  | some k =>
    let x := l.lane true k
    let es := (x.errs.filter fun f => s.nowFret < f + 2 ^ 20) ++ List.replicate n s.nowFret
    let s1 := (s.setLink p (l.setLane true k { x with errs := es })).fbump (R.lnkLaneN p k) F.lnkLaneN_SYM_ERR n
    if es.length > s.fget (R.lnkLaneCtl p) F.lnkLaneCtl_FAIL_THRESH then s1.laneFail p k else s1

/-- FEC results are counted (R368, R384). -/
def State.fecCount (s : State) (p : Nat) (c : Corrected) : State :=
  let s1 := (s.fbump (R.lnkFecCount p) F.lnkFecCount_CORRECTED c.good).fbump (R.lnkFecCount p) F.lnkFecCount_UNCORRECTABLE c.bad
  (List.range 28).foldl (fun z i => z.symErrors p i (c.fixed.filter (· % 28 == i)).length) s1

/-- An unreadable frame is NAKed whole; a vector under way is stomped; eight in succession lose lock (R370, R386). -/
def State.unreadable (s : State) (p at' : Nat) (bs : List Nat) : State :=
  let l := s.link p
  let f := numAt bs 0 64
  let s1 := (s.setLink p { l with unreadable := l.unreadable + 1 }).fbump (R.lnkErrCount p) F.lnkErrCount_FRAME_FAIL 1
  let s2 := s1.sendNak p (s1.retime p at').1 0x3F
  let s3 := if field f 0 2 = 0 ∧ !isFiller f ∧ hcrcOk f then
      s2.pushStomped p at' { header := BitVec.ofNat 512 f, payload := BitVec.ofNat 12800 (numAt bs 64 1600) } true
    else s2
  if l.unreadable + 1 ≥ 8 then s3.loseLock p else s3

/-- A NAK of a header or drone. -/
def State.nakOf (s : State) (p : Nat) : Option (Nat × Nat) → State
  | some (f, m) => s.onNak p f m
  | none => s

/-- Flit positions of an absolute fret of a port that a packet or a filler takes. -/
def State.wireUsed (s : State) (p f : Nat) : Nat :=
  ((s.link p).wire.filter (·.fret == f)).foldl (fun m w => max m (w.first + w.n)) (b2n (!s.isOpen p f))

/-- The instant (2⁻¹⁶ ns, from the start of a frame) at which its flit `i` begins: its first byte is byte ⌊64i / 28⌋ of a lane, of
64 in a fret (R364, R368). -/
def flitTime (i : Nat) : Nat := 64 * i / 28 * 4096

/-- The instant (2⁻¹⁶ ns) at which the next drone of a port leaves: the first of the next fret that carries one (R225). -/
def State.nextDrone (s : State) (p : Nat) : Nat :=
  let f := ((List.range 64).map (s.nowFret + 1 + ·)).find? fun f => s.wireUsed p f < 26
  let g := f.getD (s.nowFret + 1)
  4 * g * 2 ^ 16 + flitTime (s.wireUsed p g)

/-- A time-exchange record in a drone that arrives at `t` (2⁻¹⁶ ns): a response, else a request, answered in the next drone
(R225, R226, R373). -/
def State.droneTime (s : State) (p t : Nat) (r : List Byte) : State :=
  if leAt r 0 1 = 2 then s.exchRsp p r t else s.exchReq p r t (s.nextDrone p)

/-- The contents of a drone in position `i` of a frame that arrived at `at'` (R373, R388). -/
def State.onDrone (s : State) (p at' i f : Nat) : State :=
  match droneOf f with
  | none => s
  | some d =>
    if (s.link p).st ≠ .up then s else
    let s1 := s.setLink p { s.link p with fresh := false, floor := d.floor }
    let s2 := (s1.onGate p d.gate).onAck p d.ack
    let s3 := s2.nakOf p d.nak
    let lane := field d.lane 0 5
    let s4 := if field d.lane 5 3 = 1 ∧ lane < 30 then s3.subReq p lane
      else if field d.lane 5 3 = 2 ∧ lane < 30 then s3.subAck p lane (field d.lane 8 8)
      else s3
    match d.time with
    | some r => s4.droneTime p (at' + flitTime i) r
    | none => s4

/-- The packets of a readable frame, and the NAK of those that failed or cannot be read. -/
def State.framePackets (s : State) (p at' : Nat) (bs : List Nat) (pkts : List (List (BitVec 512) × Nat)) : State :=
  let (mask, s1) := pkts.foldl (fun (z : Nat × State) (k : List (BitVec 512) × Nat) =>
    let slot := numAt bs (1680 + 8 * k.2) 8
    let r := if k.1.isEmpty then (true, z.2) else z.2.takePacket p k.1 (field slot 0 20) (lcrcOf k.1 slot) true at'
    (if r.1 then z.1 + 2 ^ k.2 else z.1, r.2)) (0, s)
  if mask = 0 then s1 else s1.sendNak p (s1.retime p at').1 mask

/-- The bytes of a logical lane: those of the physical lane that carries it, or of a FAILED lane, rebuilt from the parity of its
group and the group's other lanes (R383, R384). -/
def Link.laneBytes (l : Link) (lanes : List (List Nat)) (i : Nat) : List Nat :=
  let on (r : LaneRole) (j : Nat) : Option Nat := (l.withRole true r).find? fun n => (l.lane true n).logical == j
  let plain (j : Nat) : List Nat := match on .active j with
    | some n => lanes.getD n []
    | none => []
  match on .active i, on .failed i, l.cover true i with
  | none, some _, some k =>
    let group := below 28 fun j => j != i && ((l.lane true k).logical == 30 || j / 14 == i / 14)
    group.foldl (fun bs j => List.zipWith Nat.xor bs (plain j)) (lanes.getD k [])
  | none, some n, none => lanes.getD n []
  | _, _, _ => plain i

/-- Bytes taken from the lanes in turn (R368). -/
def weave : Nat → List (List Nat) → List Nat
  | 0, _ => []
  | n + 1, ls => ls.map (·.headD 0) ++ weave n (ls.map List.tail)

/-- The 1,792 bytes of a frame, from its lanes and with the scrambler taken off (R366, R368). -/
def State.frameBytes (s : State) (p : Nat) (fr : Frame) : List Byte :=
  let l := s.link p
  let ls := fr.lanes.map fun bs => bs.map (·.toNat)
  (scrambled l.rxScr (s.retime p fr.at_).1 (weave 64 ((List.range 28).map (l.laneBytes ls)))).map (BitVec.ofNat 8)

/-- A frame received on an UP port. A training frame shows that the partner has left frame lock (R386). -/
def State.frame (s : State) (p : Nat) (fr : Frame) : State :=
  if !s.portUp p then s else
  let s0 := (s.reach (fr.at_ <<< 32)).drainCheck
  if fr.training then s0.loseLock p else
  let c := fecDecode (s0.frameBytes p fr)
  let s1 := s0.fecCount p c
  let h := frameHdr c.bytes
  if !s1.portUp p then s1
  else if h.ok && h.ends > 6 then (s1.lnkRecord 0x0707 1 p 3 0xFF 0 0).unreadable p fr.at_ c.bytes
  else if !h.ok then s1.unreadable p fr.at_ c.bytes
  else
    let s2 := (s1.setLink p { s1.link p with unreadable := 0, floor := h.floor }).onGate p h.gate
    if !s2.portUp p then s2
    else
      let z := parseFrame c.bytes h (s2.link p).asm
      let s3 := ((s2.onAck p h.ack).nakOf p h.nak).framePackets p fr.at_ c.bytes z.pkts
      let asm := if !z.cur.isEmpty then z.cur else if h.cont then [] else (s3.link p).asm
      z.drones.foldl (fun (y : State) d => y.onDrone p fr.at_ d.1 d.2) (s3.setLink p { s3.link p with asm := asm })

/-- A packet received apart from its frame. -/
def State.packet (s : State) (p : Nat) (k : LinkPkt) : State :=
  let (bad, s1) := (s.reach (k.at_ <<< 32)).drainCheck.takePacket p k.flits k.seq.toNat k.crc k.readable k.at_
  if bad then s1.sendNak p (s1.retime p k.at_).1 (if k.readable then 2 ^ (k.slot % 6) else 0x3F) else s1

/-! ## Departure of service packets (R24, R336, R342, R372, R378) -/

/-- Where a packet of `need` flits goes from fret `f` on, of which `used` flits are taken: it may end in no fret in which six packets
end, and goes on over the boundary of a scheduled or replay fret in the next open fret (R336, R372). -/
def State.place (s : State) (p : Nat) : Nat → Nat → Nat → Nat → Option Places
  | 0, _, _, _ => none
  | fuel + 1, need, f, used =>
    if !s.isOpen p f || used ≥ 26 || (need ≤ 26 - used && endSlot (s.link p) f ≥ 6) then s.place p fuel need (f + 1) 0
    else if need ≤ 26 - used then some [(f, used, need)]
    else (s.place p fuel (need - (26 - used)) (f + 1) 0).map ((f, used, 26 - used) :: ·)

/-- A packet ready to leave: a replay by its sequence, or a queued packet. -/
inductive Leaving where
  | replay (e : Sent)
  | fresh (h : SvcHeld)

/-- Whether a sent packet is a service packet of a class. -/
def Sent.ofClass (e : Sent) (rsp : Bool) : Bool := match e.what with | .svc k => SH.isRsp k.flit.toNat == rsp | .vec _ => false

/-- Key of a port's class and virtual channel in the round counts. -/
def vcKey (p : Nat) (rsp : Bool) (vc : Nat) : Nat := 16 * p + 8 * b2n rsp + vc

/-- The virtual channel whose turn it is among the non-empty ones of a class, and the round counts before it is served. -/
def State.pickVc (s : State) (p : Nat) (rsp : Bool) : Option (Nat × List (Nat × Nat)) :=
  let full := below 8 fun v => (s.outQ p).any fun h => SH.isRsp h.pkt.flit.toNat == rsp && SH.vc h.pkt.flit.toNat == v
  let weight (v : Nat) : Nat := field (s.reg R.svcVcWeight).toNat (8 * v) 8
  match full.find? fun v => tget 0 s.svc.served (vcKey p rsp v) < weight v with
  | some v => some (v, s.svc.served)
  | none => full.head?.map fun v => (v, s.svc.served.filter fun e => e.1 / 8 ≠ vcKey p rsp 0 / 8)

/-- The next packet of a class: replays first, then the turn of its virtual channels (R342, R377). -/
def State.pickClass (s : State) (p : Nat) (rsp : Bool) : Option (Leaving × List (Nat × Nat)) :=
  let l := s.link p
  match l.replaySvc.findSome? fun q => l.sent.find? fun e => e.seq == q && e.ofClass rsp with
  | some e => some (.replay e, s.svc.served)
  | none =>
    (s.pickVc p rsp).bind fun (v, served) =>
      ((s.outQ p).find? fun h => SH.isRsp h.pkt.flit.toNat == rsp && SH.vc h.pkt.flit.toNat == v).map fun h =>
        (.fresh h, tmod 0 served (vcKey p rsp v) (· + 1))

/-- Open frets after `a` up to `b`. -/
def State.openBetween (s : State) (p a b : Nat) : Nat := ((List.range (b - a)).filter fun i => s.isOpen p (a + 1 + i)).length

/-- WAIT_FRETS counts the open frets up to `upto` that began with packets queued (R359). -/
def State.countWait (s : State) (p upto : Nat) : State :=
  match s.outQ p with
  | [] => s
  | h :: hs =>
    let g : SvcFig := tget {} s.svc.fig p
    let from' := max g.waited (fretOf (hs.foldl (fun m x => min m x.since) h.since))
    let s1 := s.fbump (R.svcPortNEvents p) F.svcPortNEvents_WAIT_FRETS (s.openBetween p from' upto)
    { s1 with svc := { s1.svc with fig := tset {} s1.svc.fig p { g with waited := max from' upto } } }

/-- Discard of a packet held too long in a port's output queue (R351). -/
def State.residence (s : State) (port : Nat) : State :=
  match s.outQ port with
  | [] => s
  | h :: hs =>
    let first := hs.foldl (fun a b => if b.since < a.since then b else a) h
    let due := first.since + (s.fget R.svcCtl F.svcCtl_MAX_RESIDENCE_US * 1000) <<< 48 + 1
    let s1 := s.reach due
    if s1.ngt.now < due then s1
    else
      let s2 := s1.countWait port s1.nowFret
      (s2.setOutQ port ((s2.outQ port).erase first)).svcDiscard 0x0603 port 0 first.pkt.flit.toNat

/-- The packet as it leaves: this device stamps and seals its own data packets (R334). -/
def stamped (h : SvcHeld) (ns : Nat) : SvcPkt :=
  let f := h.pkt.flit.toNat
  if h.src = 8 ∧ hPlane f = 2 then { h.pkt with flit := BitVec.ofNat 512 (sealed (putField f (8 * 40) 32 ns)) } else h.pkt

/-- Flits of what leaves. -/
def Leaving.flits : Leaving → Nat
  | .replay e => e.flits
  | .fresh h => SH.flits h.pkt.flit.toNat

/-- The figures of the port after a departure that ends in fret `f` with `last` flits taken there. -/
def State.noteDepart (s : State) (p f last frets flits : Nat) : State :=
  let g : SvcFig := tget {} s.svc.fig p
  let g' : SvcFig := { g with used := g.used + frets, txFlits := g.txFlits + flits, lastFret := f, lastFlits := last }
  { s with svc := { s.svc with fig := tset {} s.svc.fig p g' } }

/-- A new packet leaves at its places, the last in fret `f`. -/
def State.departFresh (s : State) (p : Nat) (ps : Places) (h : SvcHeld) (served : List (Nat × Nat)) : State :=
  let f := endFret ps
  let s0 := s.countWait p f
  let s1 := s0.setOutQ p ((s0.outQ p).erase h)
  ({ s1 with svc := { s1.svc with served := served } }).linkSend p ps (SH.flits h.pkt.flit.toNat) (.svc (stamped h (4 * f))) true

/-- A packet is replayed under its own number (R374). -/
def State.departReplay (s : State) (p : Nat) (ps : Places) (e : Sent) : State :=
  let l := noteEnd (s.link p) e.seq ps
  (s.setLink p { l with replaySvc := l.replaySvc.erase e.seq
                        sent := l.sent.map fun x => if x.seq = e.seq then { x with nakd := false, replay := true } else x }).fbump
    (R.lnkReplay p) F.lnkReplay_REPLAYED 1

/-- The next service packet of a port leaves. -/
def State.svcDepart (s : State) (p : Nat) : State :=
  if !s.portUp p || !s.portOpen p then s else
  match (match s.pickClass p true with | some x => some x | none => s.pickClass p false) with
  | none => s
  | some (w, served) =>
    let room := match w with
      | .replay _ => true
      | .fresh _ => s.svcOccupancy p + w.flits ≤ 6144 && s.occupancy p + w.flits ≤ 8192
    if !room then s else
    let g : SvcFig := tget {} s.svc.fig p
    let first := max s.nowFret g.lastFret
    match s.place p 65536 w.flits first (if first = g.lastFret then g.lastFlits else 0) with
    | none => s
    | some ps =>
      let f := endFret ps
      let s1 := s.reach (fretStart f)
      if s1.nowFret < f then s
      else
        let s2 := match w with
          | .replay e => s1.departReplay p ps e
          | .fresh h => s1.departFresh p ps h served
        let last := (ps.getLast?.map fun x => x.2.1 + x.2.2).getD 0
        s2.noteDepart p f last (ps.filter (·.2.1 == 0)).length w.flits

/-! ## Commands -/

/-- FRAME_RECEIVE (R370). -/
def execFrameReceive (port : Port) (frame : Frame) (s : State) : Host.Outcome State Fault Refusal := .next (s.frame port.val frame)
/-- LINK_PACKET_RECEIVE (R375). -/
def execLinkPacketReceive (port : Port) (pkt : LinkPkt) (s : State) : Host.Outcome State Fault Refusal := .next (s.packet port.val pkt)
/-- ACK_RECEIVED (R377). -/
def execAckReceived (port : Port) (ack : BitVec 20) (s : State) : Host.Outcome State Fault Refusal := .next (s.onAck port.val ack.toNat)
/-- NAK_RECEIVED (R377). -/
def execNakReceived (port : Port) (fret : BitVec 16) (mask : BitVec 6) (s : State) : Host.Outcome State Fault Refusal :=
  .next (s.onNak port.val fret.toNat mask.toNat)
/-- ACK_TIMEOUT (R379). -/
def execAckTimeout (port : Port) (s : State) : Host.Outcome State Fault Refusal := .next (s.ackExpire port.val)
/-- PARTNER_LEAVING (R382). -/
def execPartnerLeaving (port : Port) (s : State) : Host.Outcome State Fault Refusal :=
  .next (if s.portUp port.val then s.onGate port.val 2 else s)
/-- LANE_LOCK_LOSS (R384). -/
def execLaneLockLoss (port : Port) (lane : Fin 30) (s : State) : Host.Outcome State Fault Refusal := .next (s.laneFail port.val lane.val)
/-- LANE_SUB_REQ_RECEIVED (R385). -/
def execLaneSubReqReceived (port : Port) (lane : Fin 30) (s : State) : Host.Outcome State Fault Refusal := .next (s.subReq port.val lane.val)
/-- LANE_SUB_ACK_RECEIVED (R385). -/
def execLaneSubAckReceived (port : Port) (lane : Fin 30) (fret256 : BitVec 8) (s : State) : Host.Outcome State Fault Refusal :=
  .next (s.subAck port.val lane.val fret256.toNat)
/-- LANE_SWITCH_FRET (R385). -/
def execLaneSwitchFret (port : Port) (s : State) : Host.Outcome State Fault Refusal := .next (s.laneSwitch port.val)
/-- PORT_RECOVERED (R387). -/
def execPortRecovered (port : Port) (record : List Byte) (t : Relock) (s : State) : Host.Outcome State Fault Refusal :=
  .next (s.recovered port.val { rxUsable := t.rxUsable, txUsable := t.txUsable, record := record, fresh := t.fresh, scr := t.scr })
/-- LINK_DOWN_TIMEOUT (R387). -/
def execLinkDownTimeout (port : Port) (s : State) : Host.Outcome State Fault Refusal := .next (s.downTimeout port.val)
/-- PORT_TRAINING_COMPLETE (R389). -/
def execPortTrainingComplete (port : Port) (t : TrainData) (s : State) : Host.Outcome State Fault Refusal := .next (s.trained port.val t)
/-- TRAINING_ATTEMPT_FAIL (R389): `fewLanes` for fewer than 28 usable lanes. -/
def execTrainingAttemptFail (port : Port) (fewLanes : Bool) (s : State) : Host.Outcome State Fault Refusal :=
  .next (s.trainFail port.val (if fewLanes then 4 else 3))
/-- RESIDENCE_TIMEOUT (R351). -/
def execResidenceTimeout (port : Port) (s : State) : Host.Outcome State Fault Refusal := .next (s.residence port.val)
/-- SERVICE_PACKET_DEPART (R342). -/
def execServicePacketDepart (port : Port) (s : State) : Host.Outcome State Fault Refusal := .next (s.svcDepart port.val)
/-- LNK_TRAIN (R389). -/
def execLnkTrain (port : Port) (s : State) : Host.Outcome State Fault Refusal := .next (s.trainPort port.val)
/-- LNK_FORCE_DOWN (R389). -/
def execLnkForceDown (port : Port) (v : Bool) (s : State) : Host.Outcome State Fault Refusal := .next (s.forceDown port.val v)
/-- LNK_QUARANTINE_WRITE (R381). -/
def execLnkQuarantineWrite (port : Port) (v : Bool) (s : State) : Host.Outcome State Fault Refusal := .next (s.quarantineWrite port.val v)
/-- LNK_GATE_WRITE (R381). -/
def execLnkGateWrite (port : Port) (v : Bool) (s : State) : Host.Outcome State Fault Refusal := .next (s.gateWrite port.val v)
/-- LANE_RETIRE_WRITE (R385). -/
def execLaneRetireWrite (port : Port) (lane : BitVec 5) (s : State) : Host.Outcome State Fault Refusal := .next (s.retireLane port.val lane.toNat)

end Sys2Proof.Machine
end

