-- ==== Sys2Proof/Machine/Host.lean ====
section
/-!
DEFINITION. Mailbox channels, doorbells, the binding table, the reset of a side, the PCI Express endpoint, BAR2 and the BMC
interface (17; 08, R192; 18, R473).
-/
namespace Sys2Proof.Machine

/-! ## Identities and sides (R454, R458) -/

/-- Identity code of the binding table. -/
def idCode : Ident → Nat
  | .host => 1 | .stw0 => 2 | .stw1 => 3 | .bmc => 4 | .dbg => 5 | .remote _ => 6

/-- Key of an identity's own registers. -/
def idKey : Ident → Nat
  | .remote f => 16 + f
  | i => idCode i

/-- Whether an identity is a steward core. -/
def isCore (i : Ident) : Bool := i == .stw0 || i == .stw1

/-- Whether MBX_SEAL is set. -/
def State.sealed (s : State) : Bool := s.fget R.mbxSeal F.mbxSeal_SEAL == 1

/-- The side of channel `n` an identity is bound to: false the initiator, true the responder. -/
def State.sideOf (s : State) (i : Ident) (n : Nat) : Option Bool :=
  let here (resp : Bool) : Bool := s.sideCode n resp == idCode i && (match i with
    | .remote f => field (s.bind n) (if resp then 32 else 16) 10 == f
    | _ => true)
  if here false then some false else if here true then some true else none

/-- Whether an identity may act on channels at all: the cores always, others once the table is sealed (R458). -/
def State.mayAct (s : State) (i : Ident) : Bool := isCore i || s.sealed

/-- Bit number in DBL_STATUS of a bit offset of a side's half (R457). -/
def halfBit (resp : Bool) (o : Nat) : Nat := if resp then 16 + o else o
/-- Mask of a side's half. -/
def halfMask (resp : Bool) : Nat := if resp then 0xFFFF0000 else 0xFFFF

/-! ## Channel actions (R456) -/

/-- LENGTH of the message in a channel's area. -/
def Chan.length (c : Chan) : Nat := Mem.rdNat c.area 0 2

/-- A refused action: ERR and the ERROR doorbell of the acting side. -/
def State.refuse (s : State) (n : Nat) (resp : Bool) (err : Nat) : State :=
  (s.setChan n { s.chan n with err := err }).ringBit n (halfBit resp 3)

/-- Why a channel's ledger is wrong (R514): SEND actions, less CONSUME actions and withdrawals, are the exchanges open. -/
def Chan.broken (c : Chan) : Option (Nat × Nat) :=
  let want := c.consumes + c.withdrawn + b2n (c.st ≠ 0)
  if c.sends ≠ want then some (want, c.sends) else none

/-- The ledger unit checks a channel as it changes (R515). -/
def State.chanCheck (s : State) (n : Nat) : State :=
  if !s.ledgersOn then s
  else match (s.chan n).broken with
  | some (e, c) => s.ledgerFail 2 n e c
  | none => s

/-- What an action of a side does: bit 0 SEND, 1 TAKE, 2 REPLY, 3 CONSUME. -/
def State.sideMove (s : State) (n : Nat) (resp : Bool) (bits : Nat) : State :=
  let c := s.chan n
  if (below 4 (bit bits)).length > 1 then s.refuse n resp 3
  else if bits % 16 = 0 then s
  else if bit bits 0 ∧ !resp ∧ c.st = 0 then
    if c.length > 4032 then s.refuse n resp 2
    else (s.setChan n { c with st := 1, taken := false, posted := c.posted + 1, sends := c.sends + 1 }).ringBit n 16
  else if bit bits 1 ∧ resp ∧ c.st = 1 ∧ !c.taken then s.setChan n { c with taken := true }
  else if bit bits 2 ∧ resp ∧ c.st = 1 then
    if c.length > 4032 then s.refuse n resp 2
    else (s.setChan n { c with st := 2, taken := false, posted := c.posted + 1 }).ringBit n 0
  else if bit bits 3 ∧ resp ∧ c.st = 1 then
    (s.setChan n { c with st := 0, taken := false, consumes := c.consumes + 1 }).ringBit n 1
  else if bit bits 3 ∧ !resp ∧ c.st = 2 then
    (s.setChan n { c with st := 0, taken := false, consumes := c.consumes + 1 }).ringBit n 17
  else s.refuse n resp 1

/-- An action of a side, and the ledger's check of the channel. -/
def State.sideAction (s : State) (n : Nat) (resp : Bool) (bits : Nat) : State := (s.sideMove n resp bits).chanCheck n

/-- An identity writes action bits of MBX_CHn_CTL. -/
def State.action (s : State) (i : Ident) (n bits : Nat) : State :=
  match s.sideOf i n with
  | some resp => if s.mayAct i then s.sideAction n resp bits else s
  | none => s

/-! ## The window (R454, R456) -/

/-- Answer an access. -/
def State.answered (s : State) (k : AnswerKind) (bs : List Byte) : State :=
  { s with stw := { s.stw with answer := { kind := k, data := bs } } }

/-- An access through MBX_WIN to the channel an identity selected. -/
def State.window (s : State) (i : Ident) (off : Nat) (acc : WinAcc) : State :=
  let n := tget 0 s.stw.winSel (idKey i)
  let c := s.chan n
  let side := if s.mayAct i then s.sideOf i n else none
  match acc with
  | .rd k =>
    let k := min k (4096 - off)
    let may := (side == some true && c.st == 1) || (side == some false && c.st == 2)
    s.answered .ok (if may then Mem.rdBytes c.area off k else List.replicate k 0#8)
  | .wr bs =>
    let may := (side == some false && c.st == 0) || (side == some true && c.st == 1)
    if may then s.setChan n { c with area := Mem.wrBytes c.area off (bs.take (4096 - off)) } else s

/-! ## Doorbells (R457) -/

/-- Ring the peer: software bits of the peer's half. -/
def State.ring (s : State) (i : Ident) (n v : Nat) : State :=
  match s.sideOf i n with
  | none => s
  | some resp => if !s.mayAct i then s else
    (below 16 fun o => 4 ≤ o && bit v (halfBit (!resp) o)).foldl (fun z o => z.ringBit n (halfBit (!resp) o)) s

/-- W1C of the own half of DBL_STATUS. -/
def State.dblClear (s : State) (i : Ident) (n v : Nat) : State :=
  match s.sideOf i n with
  | none => s
  | some resp => if s.mayAct i then s.clearBits n (v &&& halfMask resp) else s

/-- A write of the own half of DBL_MASK; host software that unmasks a set bit is signalled (R451). -/
def State.dblMask (s : State) (i : Ident) (n v : Nat) : State :=
  match s.sideOf i n with
  | none => s
  | some resp =>
    if !s.mayAct i then s else
    let old := (s.reg (R.dblMaskN n)).toNat
    let m := halfMask resp
    let new := (old &&& (0xFFFFFFFF ^^^ m)) ||| (v &&& m)
    let s1 := s.setReg (R.dblMaskN n) (BitVec.ofNat 64 new)
    let opened := old &&& (0xFFFFFFFF ^^^ new) &&& m &&& (s.reg (R.dblStatusN n)).toNat
    if i = .host ∧ opened ≠ 0 then s1.signal (field (s.bind n) 48 6) else s1

/-- Whether ALERT_N is asserted (R461). -/
def State.alert (s : State) : Bool :=
  let st := s.fget R.devStatus F.devStatus_STATE
  st == 1 || st == 4 || (List.range 64).any fun n => match s.sideOf .bmc n with
    | some resp => ((s.reg (R.dblStatusN n)).toNat &&& (0xFFFFFFFF ^^^ (s.reg (R.dblMaskN n)).toNat) &&& halfMask resp) != 0
    | none => false

/-! ## Binding table and seal (R458) -/

/-- Whether a pair of identity codes may be bound: two different ones, exactly one of them a steward core. -/
def pairOk (a b : Nat) : Bool :=
  1 ≤ a && a ≤ 6 && 1 ≤ b && b ≤ 6 && a ≠ b && ((a == 2 || a == 3) != (b == 2 || b == 3))

/-- The defined bits of MBX_BIND_n. -/
def bindBits (v : Nat) : Nat :=
  field v 0 3 + field v 8 3 * 2 ^ 8 + field v 16 10 * 2 ^ 16 + field v 32 10 * 2 ^ 32 + field v 48 6 * 2 ^ 48 + field v 63 1 * 2 ^ 63

/-- Whether R458 lets a write of MBX_BIND_n take effect. -/
def bindOk (v : Nat) : Bool :=
  !bit v 63 ||
  (let a := field v 0 3
   let b := field v 8 3
   pairOk a b && (if a = 1 ∨ b = 1 then field v 48 6 ≠ 0 else field v 48 6 == 0))

/-- A core writes the binding table while it is not sealed. A reserved identity code leaves its field unchanged. -/
def State.bindWrite (s : State) (i : Ident) (n v : Nat) : State :=
  if !isCore i || s.sealed then s
  else
    let old := s.bind n
    let keep (lo : Nat) : Nat := let c := field v lo 3; if c = 0 ∧ !bit v 63 then 0 else if c = 0 ∨ c = 7 then field old lo 3 else c
    let w := putField (putField (bindBits v) 0 3 (keep 0)) 8 3 (keep 8)
    if bindOk w then s.setReg (R.mbxBindN n) (BitVec.ofNat 64 w) else s

/-- A core sets MBX_SEAL; DEV_STATUS shows it. -/
def State.sealSet (s : State) (i : Ident) : State :=
  if isCore i then (s.fset R.mbxSeal F.mbxSeal_SEAL 1).fset R.devStatus F.devStatus_SEALED 1 else s

/-! ## Reset of a side (R459) -/

/-- The message area turned into an aborted notice. -/
def abortedArea (a : List Host.Cell) : List Host.Cell :=
  Mem.wrNat (Mem.wrNat (Mem.wrNat a 0 2 0) 4 2 0x0400) 6 1 3

/-- One channel as a side of it is reset. -/
def State.chanReset (s : State) (n : Nat) (resp : Bool) : State :=
  let c := s.chan n
  let waits := (resp && c.st == 1) || (!resp && c.st == 2)
  let sent := (!resp && c.st == 1 && !c.taken) || (resp && c.st == 2)
  let notice := bit (Mem.rdNat c.area 6 1) 1
  let s1 :=
    if waits && notice then s.setChan n { c with st := 0, taken := false, withdrawn := c.withdrawn + 1 }
    else if waits then
      (s.setChan n { c with st := if resp then 2 else 1, taken := false, area := abortedArea c.area }).ringBit n (halfBit (!resp) 0)
    else if sent then
      (s.setChan n { c with st := 0, taken := false, withdrawn := c.withdrawn + 1 }).clearBits n (2 ^ halfBit (!resp) 0)
    else s
  let s2 := (s1.ringBit n (halfBit (!resp) 2)).clearBits n (halfMask resp)
  s2.setReg (R.dblMaskN n) (s2.reg (R.dblMaskN n) ||| BitVec.ofNat 64 (halfMask resp))

/-- Whether a channel's notices are those of a side: HOST notice channels 16 to 31, BMC 35 (R470). -/
def State.noticeOf (s : State) (n : Nat) (i : Ident) : Bool := (s.sideOf i n).isSome

/-- The side of an identity is reset on every channel bound to it; its queued notices are withdrawn and its bulk assemblies
discarded (R459, R470, R485). -/
def State.sideReset (s : State) (i : Ident) : State :=
  let chans := below 64 fun n => (s.sideOf i n).isSome
  let s1 := chans.foldl (fun z n => match s.sideOf i n with
    | some resp => (z.chanReset n resp).chanCheck n
    | none => z) s
  { s1 with stw := { s1.stw with notices := s1.stw.notices.filter (fun e => !(chans.contains e.1))
                                 bulkIn := s1.stw.bulkIn.filter (fun e => !(chans.contains e.1))
                                 winSel := tdel s1.stw.winSel (idKey i) } }

/-! ## Messages of remote identities (R454, R473) -/

/-- The REMOTE identity whose SVC_FLAT entry names a device's steward. -/
def State.remoteOf (s : State) (src : Nat) : Option Ident :=
  ((List.range 1024).find? fun i => s.fget (R.svcFlatN i) F.svcFlatN_VALID == 1 && s.fget (R.svcFlatN i) F.svcFlatN_ADDR == src).map
    Ident.remote

/-- MBX_ACTION: once the PUT of the message is complete, the staging area is copied into the message area and the action
applied; before that a SEND or REPLY is refused with ERR = 1. -/
def State.mbxMessage (s : State) : State :=
  match s.takeKind 1 with
  | none => s
  | some (m, s1) =>
    let n := leAt m.body 1 1 % 64
    let bits := leAt m.body 2 1 % 16
    match s1.remoteOf m.src with
    | none => s1
    | some i => match s1.sideOf i n with
      | none => s1
      | some resp =>
        if !s1.sealed then s1
        else if bit bits 0 || bit bits 2 then
          let full := match (s1.ctx m.stream).lastXfer with
            | some x => s1.fget (R.svcCcntN x) F.svcCcntN_STATE == 2
            | none => false
          if !full then s1.refuse n resp 1
          else
            let bs := s1.hbmBytes (s1.fget (R.svcSctxNRxbuf m.stream) F.svcSctxNRxbuf_BASE) 4096
            let c := s1.chan n
            let may := (!resp && c.st == 0) || (resp && c.st == 1)
            (if may then s1.setChan n { c with area := Mem.wrBytes [] 0 bs } else s1).sideAction n resp bits
        else s1.sideAction n resp bits

/-- PEER_RESET: a remote steward's device was reset (R459). -/
def State.peerReset (s : State) : State :=
  match s.takeKind 2 with
  | none => s
  | some (m, s1) => match s1.remoteOf m.src with
    | some i => { s1.sideReset i with stw := { (s1.sideReset i).stw with
        peers := tset 0 (s1.sideReset i).stw.peers (deviceOf m.src) (leAt m.body 4 8) } }
    | none => s1

/-! ## The endpoint (R446 to R452) -/

/-- Whether host memory can be reached for bulk data and log entries. -/
def State.bme (s : State) : Bool := s.dmaOn
/-- Hold the endpoint. -/
def State.setPcie (s : State) (p : Pcie) : State := { s with stw := { s.stw with pcie := p } }

/-- Size of BAR2 in bytes. -/
def State.bar2Size (s : State) : Nat := 2 ^ s.fget R.pciBar2 F.pciBar2_SIZE_LOG2
/-- BAR2_BASE in bytes. -/
def State.bar2Base (s : State) : Nat := s.fget R.pciBar2 F.pciBar2_BASE * 2 ^ 30

/-- Firmware writes BAR2_BASE: a multiple of the size, otherwise no effect. -/
def State.bar2BaseWrite (s : State) (b : Nat) : State :=
  if b * 2 ^ 30 % s.bar2Size = 0 then s.fset R.pciBar2 F.pciBar2_BASE b else s

/-- The host resizes BAR2; BASE is rounded down. -/
def State.bar2Resize (s : State) (log2 : Nat) : State :=
  if log2 < 30 ∨ 40 < log2 then s
  else
    let s1 := s.fset R.pciBar2 F.pciBar2_SIZE_LOG2 log2
    s1.fset R.pciBar2 F.pciBar2_BASE (s.fget R.pciBar2 F.pciBar2_BASE / 2 ^ (log2 - 30) * 2 ^ (log2 - 30))

/-- Whether a BAR2 access can be answered: Memory Space Enable is set, and no byte lies in the firmware region (R289) or in a
domain that cannot answer (R453). -/
def State.bar2Ok (s : State) (off len : Nat) : Bool :=
  s.stw.pcie.mse && off + len ≤ s.bar2Size && s.bar2Base + off + len ≤ 0xFF00000000 &&
  !((unitsOf (s.bar2Base + off) len).any fun u => s.hbmDead (64 * u))

/-- A posted write through BAR2 (R192, R452, R453). -/
def State.bar2Write (s : State) (off : Nat) (bs : List Byte) (ep : Bool) : State :=
  if s.bar2Ok off bs.length then s.hbmWrite (s.bar2Base + off) bs fun _ => ep else s

/-- A read through BAR2: poisoned data completes with EP and records HBM_UNCORRECTABLE (R192). -/
def State.bar2Read (s : State) (off len : Nat) (errs : List HbmErr) : State :=
  if !s.bar2Ok off len then s.answered .unsupported []
  else
    let a := s.bar2Base + off
    let was := s.hbmBad a len
    let s1 := s.hbmRead a len errs {} 0
    let s2 := if was then s1.raise 0x0202 2 {} (memDetail s1.ownSlot ((((unitsOf a len).find? s.hbmPoison.contains).getD 0) * 64) 0) else s1
    s2.answered (if s2.hbmBad a len then .poisoned else .ok) (s2.hbmBytes a len)

/-- The PCI Express link is up (R446). -/
def State.pcieUp (s : State) (speed width : Nat) : State :=
  let ok := 1 ≤ speed && speed ≤ 5 && [1, 2, 4, 8, 16].contains width
  if !ok then s
  else
    let s1 := ((s.fset R.pciLink F.pciLink_UP 1).fset R.pciLink F.pciLink_WIDTH width).fset R.pciLink F.pciLink_SPEED speed
    s1.setPcie { s1.stw.pcie with ready := true }

/-- MSI-X is enabled with the function unmasked, or is not: what is pending on an unmasked vector is sent once it is (R451). -/
def State.msixEnable (s : State) (on : Bool) : State :=
  let s1 := s.setPcie { s.stw.pcie with msixOn := on }
  if !on then s1
  else
    let send (x : Machine.Vector) : Machine.Vector := if x.pending && !x.masked then { x with pending := false, sent := x.sent + 1 } else x
    { s1 with stw := { s1.stw with msix := s1.stw.msix.map fun e => (e.1, send e.2) } }

/-- What a configuration read at a multiple of 4 answers (R446, R448, R449): the fixed fields of the header, the BARs with their
types and sizes, Interrupt Pin 0, elsewhere what stands there. The places are those of the PCI standard (PRESUMED, log 66). -/
def State.configWord (s : State) (off : Nat) : Nat :=
  let p := s.stw.pcie
  let held := Mem.rdNat p.cfg off 4
  let bar (size type : Nat) : Nat := (held / size * size + type) % 2 ^ 32
  if off = 0x00 then Config.vendorId.toNat + 0x9280 * 2 ^ 16
  else if off = 0x08 then Config.revisionId.toNat + 0x120000 * 2 ^ 8
  else if off = 0x10 then bar (2 ^ 24) 0x4
  else if off = 0x18 then bar (2 ^ min 32 (s.fget R.pciBar2 F.pciBar2_SIZE_LOG2)) 0xC
  else if off = 0x1C then bar (2 ^ (s.fget R.pciBar2 F.pciBar2_SIZE_LOG2 - 32)) 0
  else if off = 0x20 then bar (2 ^ 16) 0x4
  else if off = 0x2C then s.cfg.subsys
  else if off = 0x3C then held % 2 ^ 8
  else held

/-- A configuration write (R448, R450). The places of the capabilities are PRESUMED (log 66): Command at 0x04, power management
status at 0x84, MSI-X control at 0xB0, PTM capability (read-only) at 0x204 and control at 0x208, Resizable BAR control at 0x248. -/
def State.configWrite (s : State) (off v : Nat) : State :=
  let p := s.stw.pcie
  if !p.ready ∨ off = 0x204 then s
  else
    let s1 := s.setPcie { p with cfg := Mem.wrNat p.cfg off 4 v }
    let q := s1.stw.pcie
    if off = 0x04 then (s1.setPcie { q with mse := bit v 1 }).fset R.pciLink F.pciLink_BME (b2n (bit v 2))
    else if off = 0x84 then s1.setPcie { q with d3 := field v 0 2 == 3 }
    else if off = 0xB0 then s1.msixEnable (bit v 31 && !bit v 30)
    else if off = 0x208 then s1.ptmEnable (bit v 0)
    else if off = 0x248 then s1.bar2Resize (20 + field v 8 6)
    else if off = 0x3C ∨ (0x10 ≤ off ∧ off ≤ 0x24) then s1
    else s

/-- The host unmasks an MSI-X vector: one pending is sent (R451). -/
def State.unmaskVec (s : State) (v : Nat) : State :=
  let x := tget {} s.stw.msix v
  let x1 := if x.pending && s.stw.pcie.msixOn then { x with masked := false, pending := false, sent := x.sent + 1 }
    else { x with masked := false }
  { s with stw := { s.stw with msix := tset {} s.stw.msix v x1 } }

/-- A write of DEV_EVENT.MASK: an event already set whose mask is cleared signals vector 0 (R451). -/
def State.eventMask (s : State) (m : Nat) : State :=
  let old := s.fget R.devEvent F.devEvent_MASK
  let s1 := s.fset R.devEvent F.devEvent_MASK m
  let set := (s.reg R.devEvent).toNat % 16
  if set &&& old &&& (15 ^^^ (m % 16)) ≠ 0 then s1.signal 0 else s1

/-! ## The BMC interface (R461, R462) -/

/-- The device answers a block read. -/
def State.i2cRead (s : State) (bs : List Byte) : State := s.answered .ok bs

/-- The channel the BMC selected. -/
def State.bmcChan (s : State) : Nat := tget 0 s.stw.winSel (idKey .bmc)

/-- DEV_ID: the stepping is fixed at manufacture. -/
def State.devIdWord (s : State) : Nat :=
  0x9280 + Config.stepping.toNat * 2 ^ 16 + s.fget R.devId F.devId_FW_BUILD * 2 ^ 32

/-- MBX_DATA: window bytes from MBX_OFFSET, which advances by the block length. -/
def State.i2cData (s : State) (acc : WinAcc) : State :=
  let len := match acc with | .rd k => k | .wr bs => bs.length
  if len = 0 ∨ 240 < len then s.answered .nack []
  else
    let s1 := s.window .bmc s.stw.i2cOff acc
    { s1 with stw := { s1.stw with i2cOff := (s.stw.i2cOff + len) % 4096 } }

/-- DOORBELL read of the selected channel. -/
def State.i2cDoorbell (s : State) : State :=
  let v := if s.mayAct .bmc && (s.sideOf .bmc s.bmcChan).isSome then (s.reg (R.dblStatusN s.bmcChan)).toNat else 0
  s.i2cRead (leBytes 4 v)

/-! ## Commands -/

/-- BAR2_WRITE (R192). -/
def execBar2Write (off : BitVec 40) (data : List Byte) (ep : Bool) (s : State) : Host.Outcome State Fault Refusal :=
  .next (s.bar2Write off.toNat data ep)
/-- BAR2_READ (R192). -/
def execBar2Read (off : BitVec 40) (len : BitVec 13) (errs : List HbmErr) (s : State) : Host.Outcome State Fault Refusal :=
  .next (s.bar2Read off.toNat len.toNat errs)
/-- MBX_ACTION_MSG (R473). -/
def execMbxActionMsg (s : State) : Host.Outcome State Fault Refusal := .next s.mbxMessage
/-- PEER_RESET_MSG (R459). -/
def execPeerResetMsg (s : State) : Host.Outcome State Fault Refusal := .next s.peerReset
/-- DEV_EVENT_MASK_WRITE (R451). -/
def execDevEventMaskWrite (mask : BitVec 4) (s : State) : Host.Outcome State Fault Refusal := .next (s.eventMask mask.toNat)
/-- MBX_SEND (R456). -/
def execMbxSend (who : Ident) (ch : Fin 64) (s : State) : Host.Outcome State Fault Refusal := .next (s.action who ch.val 1)
/-- MBX_TAKE (R456). -/
def execMbxTake (who : Ident) (ch : Fin 64) (s : State) : Host.Outcome State Fault Refusal := .next (s.action who ch.val 2)
/-- MBX_REPLY (R456). -/
def execMbxReply (who : Ident) (ch : Fin 64) (s : State) : Host.Outcome State Fault Refusal := .next (s.action who ch.val 4)
/-- MBX_CONSUME (R456). -/
def execMbxConsume (who : Ident) (ch : Fin 64) (s : State) : Host.Outcome State Fault Refusal := .next (s.action who ch.val 8)
/-- MBX_WIN_ACCESS (R456). -/
def execMbxWinAccess (who : Ident) (off : BitVec 12) (acc : WinAcc) (s : State) : Host.Outcome State Fault Refusal :=
  .next (s.window who off.toNat acc)
/-- DBL_RING (R457). -/
def execDblRing (who : Ident) (ch : Fin 64) (v : BitVec 32) (s : State) : Host.Outcome State Fault Refusal :=
  .next (s.ring who ch.val v.toNat)
/-- DBL_STATUS_CLEAR (R457). -/
def execDblStatusClear (who : Ident) (ch : Fin 64) (v : BitVec 32) (s : State) : Host.Outcome State Fault Refusal :=
  .next (s.dblClear who ch.val v.toNat)
/-- DBL_MASK_WRITE (R457). -/
def execDblMaskWrite (who : Ident) (ch : Fin 64) (v : BitVec 32) (s : State) : Host.Outcome State Fault Refusal :=
  .next (s.dblMask who ch.val v.toNat)
/-- MBX_BIND_WRITE (R458). -/
def execMbxBindWrite (who : Ident) (ch : Fin 64) (v : Word) (s : State) : Host.Outcome State Fault Refusal :=
  .next (s.bindWrite who ch.val v.toNat)
/-- MBX_SEAL_SET (R458). -/
def execMbxSealSet (who : Ident) (s : State) : Host.Outcome State Fault Refusal := .next (s.sealSet who)
/-- I2C_DEV_ID (R462). -/
def execI2cDevId (s : State) : Host.Outcome State Fault Refusal := .next (s.i2cRead (leBytes 8 s.devIdWord ++ ownIdentity.take 8))
/-- I2C_STATUS (R462). -/
def execI2cStatus (s : State) : Host.Outcome State Fault Refusal := .next (s.i2cRead (leBytes 8 (s.reg R.devStatus).toNat))
/-- I2C_THERMAL (R462). -/
def execI2cThermal (s : State) : Host.Outcome State Fault Refusal :=
  .next (s.i2cRead (leBytes 2 (ofSigned 16 (signedOf 8 (s.fget R.pwrTherm F.pwrTherm_TJ_MAX_C))) ++
    leBytes 2 (ofSigned 16 (signedOf 8 (s.fget R.pwrTherm F.pwrTherm_HBM_MAX_C)))))
/-- I2C_POWER (R462). -/
def execI2cPower (s : State) : Host.Outcome State Fault Refusal := .next (s.i2cRead (leBytes 8 s.enr.i2cPower))
/-- I2C_MBX_SELECT (R462). -/
def execI2cMbxSelect (v : BitVec 8) (pecOk : Bool) (s : State) : Host.Outcome State Fault Refusal :=
  .next (if pecOk && v.toNat < 64 then { s with stw := { s.stw with winSel := tset 0 s.stw.winSel (idKey .bmc) v.toNat } } else s)
/-- I2C_MBX_OFFSET (R462). -/
def execI2cMbxOffset (v : BitVec 16) (pecOk : Bool) (s : State) : Host.Outcome State Fault Refusal :=
  .next (if pecOk && v.toNat < 4096 then { s with stw := { s.stw with i2cOff := v.toNat } } else s)
/-- I2C_MBX_DATA (R462). -/
def execI2cMbxData (acc : WinAcc) (pecOk : Bool) (s : State) : Host.Outcome State Fault Refusal := .next (if pecOk then s.i2cData acc else s)
/-- I2C_MBX_ACTION (R462). -/
def execI2cMbxAction (v : BitVec 8) (pecOk : Bool) (s : State) : Host.Outcome State Fault Refusal :=
  .next (if pecOk then s.action .bmc s.bmcChan (v.toNat % 16) else s)
/-- I2C_DOORBELL_READ (R462). -/
def execI2cDoorbellRead (s : State) : Host.Outcome State Fault Refusal := .next s.i2cDoorbell
/-- I2C_DOORBELL_RING (R462). -/
def execI2cDoorbellRing (v : BitVec 32) (pecOk : Bool) (s : State) : Host.Outcome State Fault Refusal :=
  .next (if pecOk then s.ring .bmc s.bmcChan v.toNat else s)
/-- I2C_DOORBELL_CLEAR (R462). -/
def execI2cDoorbellClear (v : BitVec 32) (pecOk : Bool) (s : State) : Host.Outcome State Fault Refusal :=
  .next (if pecOk then s.dblClear .bmc s.bmcChan v.toNat else s)
/-- I2C_SIDE_RESET (R459). -/
def execI2cSideReset (v : BitVec 8) (pecOk : Bool) (s : State) : Host.Outcome State Fault Refusal :=
  .next (if pecOk && v.toNat == 1 then s.sideReset .bmc else s)
/-- SMBUS_ALERT_RESPONSE (R461): the device answers with its address while it asserts ALERT_N. -/
def execSmbusAlertResponse (s : State) : Host.Outcome State Fault Refusal :=
  .next (if s.alert then s.i2cRead (leBytes 1 (2 * s.cfg.i2cAddr)) else s.answered .nack [])
/-- PCIE_LINK_UP (R446). -/
def execPcieLinkUp (speed : BitVec 4) (width : BitVec 6) (s : State) : Host.Outcome State Fault Refusal :=
  .next (s.pcieUp speed.toNat width.toNat)
/-- PCIE_CONFIG_WRITE (R450). -/
def execPcieConfigWrite (off : BitVec 12) (v : BitVec 32) (s : State) : Host.Outcome State Fault Refusal :=
  .next (s.configWrite off.toNat v.toNat)
/-- MSIX_VECTOR_UNMASK (R451). -/
def execMsixVectorUnmask (vec : BitVec 6) (s : State) : Host.Outcome State Fault Refusal := .next (s.unmaskVec vec.toNat)

end Sys2Proof.Machine
end

