-- ==== Sys2Proof/Machine/Cmd.lean ====
section
/-!
DEFINITION. How a command of a mailbox channel is carried (18, R466 to R472): taking a request, the checks of R467 in their
order, the reply, notices, held objects and bulk data.
-/
namespace Sys2Proof.Machine

/-! ## Requests and replies (R455, R466) -/

/-- A request: channel, identity code of the initiator, header fields, ARGS as a little-endian number, body, and whether the
fields the request must leave 0 are 0. `data` is the inbound bulk data. -/
structure Cmd where
  ch : Nat
  who : Nat
  len : Nat
  opcode : Nat
  tag : Nat
  args : Nat
  body : List Byte
  clean : Bool
  aborted : Bool
  data : List Byte := []
  deriving DecidableEq, Repr

/-- `n` bytes of ARGS from byte `lo`. -/
def Cmd.a (c : Cmd) (lo n : Nat) : Nat := hb c.args lo n

/-- A reply or notice: status, ARGS, body, whether STAMP is a hardware stamp; for a command that completes later, the status
it is known to end with, a figure of its own, and what is kept of it where that is not its body. -/
structure Rep where
  status : Nat
  args : Nat := 0
  body : List Byte := []
  hw : Bool := false
  done : Option Nat := none
  fig : Nat := 0
  keep : List Byte := []
  deriving DecidableEq, Repr

/-- A value at byte `lo` of ARGS. -/
def argAt (lo n v : Nat) : Nat := v % 2 ^ (8 * n) * 2 ^ (8 * lo)

/-- The request waiting in a channel. -/
def State.cmdAt (s : State) (n : Nat) : Cmd :=
  let a := (s.chan n).area
  let len := Mem.rdNat a 0 2
  let flags := Mem.rdNat a 6 1
  { ch := n, who := s.sideCode n false, len := len, opcode := Mem.rdNat a 2 2, tag := Mem.rdNat a 8 8, args := Mem.rdNat a 32 32,
    body := Mem.rdBytes a 64 len,
    clean := Mem.rdNat a 4 2 == 0 && (flags == 0 || flags == 4) && Mem.rdNat a 7 1 == 0 && Mem.rdNat a 24 8 == 0,
    aborted := bit flags 1 }

/-- The bytes of a message. -/
def messageBytes (opcode tag flags stamp : Nat) (r : Rep) : List Byte :=
  leBytes 2 r.body.length ++ leBytes 2 opcode ++ leBytes 2 r.status ++ leBytes 1 (flags + (if r.hw then 4 else 0)) ++ leBytes 1 0 ++
  leBytes 8 tag ++ leBytes 8 stamp ++ leBytes 8 0 ++ leBytes 32 r.args ++ r.body

/-- Identity code of the active core. -/
def State.activeCode (s : State) : Nat := 2 + s.fget R.devStatus F.devStatus_ACTIVE_STW

/-- Firmware serves channels in READY and FAULTED. -/
def State.serving (s : State) : Bool :=
  s.fget R.devStatus F.devStatus_STATE == 3 || s.fget R.devStatus F.devStatus_STATE == 4

/-- Whether a request waits in a channel for the active core. -/
def State.waits (s : State) (n : Nat) : Bool :=
  (s.chan n).st == 1 && !(s.chan n).taken && s.sideCode n true == s.activeCode

/-- The channel firmware serves next: round robin after the last one served (R467). -/
def State.nextWaiting (s : State) : Option Nat :=
  ((List.range 64).map fun k => (s.stw.lastTaken + 1 + k) % 64).find? s.waits

/-- Write a message and take the REPLY or SEND action as the steward. -/
def State.postMessage (s : State) (n opcode tag flags : Nat) (r : Rep) (resp : Bool) : State :=
  (s.setChan n { s.chan n with area := Mem.wrBytes [] 0 (messageBytes opcode tag flags s.ns r) }).sideAction n resp
    (if resp then 4 else 1)

/-- Reply to a channel's request; its journal entry ends. -/
def State.answer (s : State) (n opcode tag : Nat) (r : Rep) : State :=
  let s1 := s.postMessage n opcode tag 1 r true
  { s1 with stw := { s1.stw with journal := s1.stw.journal.filter fun j => j.chan ≠ n } }

/-! ## Notices (R469, R470) -/

/-- The notice channel of an initiator's channel: none for DBG and REMOTE, which hold their channel. -/
def State.noticeChan (s : State) (n : Nat) : Option Nat :=
  let c := s.sideCode n false
  if c = 1 ∧ n < 16 then some (n + 16) else if c = 4 ∧ 32 ≤ n ∧ n ≤ 34 then some 35 else none

/-- Queue a notice. -/
def State.queueNotice (s : State) (q opcode tag : Nat) (r : Rep) : State :=
  let note : Notice := { opcode := opcode, tag := tag, status := r.status, stamp := s.ns, args := leBytes 32 r.args, body := r.body }
  { s with stw := { s.stw with notices := tset [] s.stw.notices q (tget [] s.stw.notices q ++ [note]) } }

/-- A command ends: by a notice, or by the one reply of an initiator that holds its channel. -/
def State.complete (s : State) (n opcode tag : Nat) (r : Rep) : State :=
  match s.noticeChan n with
  | some q => s.queueNotice q opcode tag r
  | none => if (s.chan n).st = 1 ∧ (s.chan n).taken then s.answer n opcode tag r else s

/-- Firmware consumes an aborted notice that came back to it as initiator, and sends the next queued notice once the channel is
EMPTY (R459, R470). -/
def State.sendNotice (s : State) (q : Nat) : State :=
  if s.sideCode q false ≠ s.activeCode ∨ ¬s.serving then s
  else
    let s1 := if (s.chan q).st = 2 then (s.sideAction q false 8).clearBits q 1 else s
    if (s1.chan q).st ≠ 0 then s1
    else match tget [] s1.stw.notices q with
      | [] => s1
      | x :: xs =>
        let s2 := { s1 with stw := { s1.stw with notices := tset [] s1.stw.notices q xs } }
        let bs := messageBytes x.opcode x.tag 0 x.stamp { status := x.status, args := leNat x.args, body := x.body }
        ((s2.setChan q { s2.chan q with area := Mem.wrBytes [] 0 bs }).sideAction q false 1).clearBits q 2

/-! ## Held objects (R471) -/

/-- Commands of an opcode in progress. -/
def State.busyOp (s : State) (opcode : Nat) (q : AsyncCmd → Bool) : Bool := s.stw.cmds.any fun c => c.opcode == opcode && q c

/-- The program is held: by PROG_LOAD, PROG_ARM, PROG_STOP or a switch to a detour. -/
def State.progHeld (s : State) : Bool :=
  s.busyOp 0x0401 (fun _ => true) || s.busyOp 0x0402 (fun _ => true) || s.busyOp 0x0404 (fun _ => true) || s.prog.detour.isSome

/-- A port is held: by PORT_DRAIN or LANE_RETIRE. -/
def State.portHeld (s : State) (p : Nat) : Bool :=
  s.busyOp 0x0306 (fun c => bit (leAt c.args 0 1) p) || s.busyOp 0x0903 (fun c => leAt c.args 0 1 == p)

/-- Whether any port of a mask is held. -/
def State.portsHeld (s : State) (m : Nat) : Bool := (List.range 8).any fun p => bit m p && s.portHeld p

/-- Settle the status of the command of a channel and TAG. -/
def State.settleCmd (s : State) (ch tag status : Nat) : State :=
  { s with stw := { s.stw with cmds := s.stw.cmds.map fun c =>
      if c.chan = ch ∧ c.tag = tag ∧ c.result.isNone then { c with result := some status } else c } }

/-! ## Bulk data (R472) -/

/-- The bulk form of a command's layout, with the modes it permits and whether a length fits. -/
inductive BulkForm where
  | none
  | into (modes : List Nat) (fits : Nat → Bool)
  | outof (modes : List Nat)

/-- BULK_MODE, BULK_ADDR, BULK_LEN. -/
def Cmd.mode (c : Cmd) : Nat := c.a 15 1
def Cmd.bulkAddr (c : Cmd) : Nat := c.a 16 8
def Cmd.bulkLen (c : Cmd) : Nat := c.a 24 8

/-- Layout of a command: opcode, whether it is asynchronous, identity codes permitted, fitting lengths, bulk form, the bytes of
ARGS it uses, and its range check. -/
structure Layout where
  opcode : Nat
  async : Bool := false
  by_ : List Nat
  len : Nat → Bool := (· == 0)
  bulk : BulkForm := .none
  uses : List (Nat × Nat) := []
  ok : Cmd → Bool := fun _ => true

/-- ARGS with the bytes a layout uses cleared. -/
def Cmd.rest (c : Cmd) (uses : List (Nat × Nat)) : Nat := uses.foldl (fun v u => putField v (8 * u.1) (8 * u.2) 0) c.args

/-- Check 3 of R467. -/
def Layout.lengthOk (l : Layout) (c : Cmd) : Bool :=
  match l.bulk with
  | .none => l.len c.len
  | .into modes fits =>
    modes.contains c.mode && (c.mode ≠ 1 || c.who == 1) && fits c.bulkLen && (if c.mode = 2 then 1 ≤ c.len else c.len == 0)
  | .outof modes => l.len c.len && modes.contains c.mode && (c.mode ≠ 1 || c.who == 1)

/-- Check 4 of R467. -/
def Layout.argsOk (l : Layout) (c : Cmd) : Bool :=
  let uses := match l.bulk with | .none => l.uses | _ => l.uses ++ [(15, 17)]
  let bulkOk := match l.bulk with
    | .none => true
    | .into _ _ => c.mode ≠ 1 || c.bulkAddr % 64 == 0
    | .outof _ => if c.mode = 0 then c.a 16 16 == 0 else c.mode ≠ 1 || c.bulkAddr % 64 == 0
  c.clean && c.rest uses == 0 && bulkOk && l.ok c

/-- Commands served while the device is FAULTED. -/
def faultedOk : List Nat := [0x0101, 0x0102, 0x0103, 0x0104, 0x0901, 0x0A02, 0x0802, 0x0B01, 0x0F01]

/-- The opcodes of the command tables. -/
def opcodes : List Nat :=
  [0x0101, 0x0102, 0x0103, 0x0104, 0x0201, 0x0202, 0x0203, 0x0204, 0x0301, 0x0302, 0x0303, 0x0304, 0x0305, 0x0306,
   0x0401, 0x0402, 0x0403, 0x0404, 0x0405, 0x0406, 0x0407, 0x0501, 0x0502, 0x0503, 0x0504, 0x0505, 0x0601, 0x0602, 0x0603,
   0x0701, 0x0702, 0x0801, 0x0802, 0x0803, 0x0901, 0x0902, 0x0903, 0x0904, 0x0905, 0x0A01, 0x0A02, 0x0A03,
   0x0B01, 0x0B02, 0x0B03, 0x0F01, 0x0F02]

/-- Status of the first check of R467 that fails, none if checks 1 to 5 pass. REQ_COMPLETE (0x0610) is listed as a notice
that firmware sends, so no initiator is permitted it. -/
def State.firstFail (s : State) (l : Layout) (c : Cmd) : Option Nat :=
  if c.opcode ≠ l.opcode then some (if c.opcode = 0x0610 then 0x0300 else 0x0100)
  else if !l.by_.contains c.who || (c.opcode == 0x0F01 && c.who == 1 && !s.cfg.diagHost) then some 0x0300
  else if !l.lengthOk c then some 0x0101
  else if !l.argsOk c then some 0x0100
  else if s.fget R.devStatus F.devStatus_STATE = 4 ∧ !faultedOk.contains l.opcode then some 0x0800
  else none

/-- No assembly and no result. -/
def noBulk : Bulk := { opcode := 0, tag := 0, total := 0, bytes := [], since := 0 }

/-- Key of an outbound result. -/
def outKey (n opcode : Nat) : Nat := n + 64 * opcode

/-- Bytes that reach a bulk command: all of them, a piece that is not the last (with the state that holds it), a piece out of
order, or a transfer that failed. -/
inductive Inbound where
  | whole (bs : List Byte)
  | more (next : Nat) (s : State)
  | wrong (s : State)
  | failed

/-- Take a piece of an inbound bulk transfer, or read it from host memory (R472). -/
def State.inbound (s : State) (c : Cmd) (host : List Byte) : Inbound :=
  if c.mode = 1 then
    if s.bme ∧ host.length = c.bulkLen then .whole host else .failed
  else
    let kept := tget noBulk s.stw.bulkIn c.ch
    let old := if c.bulkAddr = 0 ∧ kept.total = 0 then { kept with opcode := c.opcode, tag := c.tag, total := c.bulkLen } else kept
    let drop (z : State) : State := { z with stw := { z.stw with bulkIn := tdel z.stw.bulkIn c.ch } }
    if old.opcode ≠ c.opcode ∨ old.tag ≠ c.tag ∨ old.total ≠ c.bulkLen ∨ c.bulkAddr ≠ old.bytes.length ∨
        c.bulkAddr + c.len > c.bulkLen then .wrong (drop s)
    else if c.bulkAddr + c.len = c.bulkLen then .whole (old.bytes ++ c.body)
    else .more (c.bulkAddr + c.len) { s with stw := { s.stw with bulkIn := tset noBulk s.stw.bulkIn c.ch { old with bytes := old.bytes ++ c.body, since := s.ns } } }

/-- Write bytes to host memory. -/
def State.toHostMem (s : State) (addr : Nat) (bs : List Byte) : State :=
  { s with stw := { s.stw with toHost := Mem.wrBytes s.stw.toHost addr bs } }

/-- Hold an outbound result. -/
def State.keepResult (s : State) (k : Nat) (b : Bulk) : State :=
  { s with stw := { s.stw with bulkOut := tset noBulk s.stw.bulkOut k b } }

/-- Discard an outbound result: the initiator's next request of its opcode with BULK_ADDR = 0 (R472). -/
def State.dropResult (s : State) (k : Nat) : State := { s with stw := { s.stw with bulkOut := tdel s.stw.bulkOut k } }

/-- Deliver an outbound result with a reply (R472): mode 0 none, mode 1 to host memory, mode 2 in the body, the rest kept. -/
def State.outbound (s : State) (ch who opcode tag mode addr len : Nat) (bs : List Byte) (r : Rep) : Rep × State :=
  if r.status ≠ 0 ∨ mode = 0 then (r, s)
  else if mode = 1 then
    if len < bs.length then ({ status := 0x0101 }, s)
    else if ¬s.bme ∨ who ≠ 1 then ({ status := 0x0400 }, s)
    else (r, s.toHostMem addr bs)
  else
    ({ r with body := bs.take 4032, args := putField r.args 192 64 bs.length },
     s.keepResult (outKey ch opcode) { opcode := opcode, tag := tag, total := bs.length, bytes := bs, since := s.ns })

/-- Further bytes of an outbound result. -/
def State.furtherBytes (s : State) (c : Cmd) : Rep :=
  let k := tget noBulk s.stw.bulkOut (outKey c.ch c.opcode)
  if k.opcode = c.opcode ∧ k.tag = c.tag ∧ c.bulkAddr < k.total then
    { status := 0, body := (k.bytes.drop c.bulkAddr).take 4032, args := argAt 24 8 k.total }
  else { status := 0x0100 }

/-- The outbound results of a channel kept for 10 s are discarded. -/
def State.expireBulk (s : State) (n : Nat) : State :=
  match s.stw.bulkOut.filter fun e => e.1 % 64 == n with
  | [] => s
  | e :: es =>
    let s1 := s.reach ((es.foldl (fun t x => min t x.2.since) e.2.since + 10 ^ 10) <<< 48)
    { s1 with stw := { s1.stw with bulkOut := s1.stw.bulkOut.filter fun x => !(x.1 % 64 == n && x.2.since + 10 ^ 10 ≤ s1.ns) } }

/-! ## Serving (R467, R469) -/

/-- Firmware takes the request of a channel: it clears its MSG bit and writes TAKE; the journal notes the command. -/
def State.takeRequest (s : State) (n : Nat) : State :=
  let c := s.cmdAt n
  let s1 := (s.sideAction n true 2).clearBits n (2 ^ 16)
  { s1 with stw := { s1.stw with lastTaken := n
                                 journal := s1.stw.journal ++ [{ chan := n, opcode := c.opcode, tag := c.tag, result := none }] } }

/-- Run a command whose checks 1 to 5 passed: its own checks and effect are `run`. An accepted asynchronous command is held in
progress; HOST and BMC are answered ACCEPTED, DBG and REMOTE when it ends. -/
def State.runCmd (s : State) (l : Layout) (c : Cmd) (run : Cmd → State → Rep × State) : State :=
  if l.async ∧ l.opcode ≠ 0x0601 ∧ (s.stw.cmds.filter fun x => x.chan == c.ch).length ≥ 256 then
    s.answer c.ch c.opcode c.tag { status := 0x0200 }
  else
    let (r, s1) := run c s
    let x : AsyncCmd := { chan := c.ch, tag := c.tag, opcode := c.opcode, args := leBytes 32 c.args,
                          data := if !r.keep.isEmpty then r.keep else if c.data.isEmpty then c.body else c.data,
                          progress := r.fig, result := r.done }
    if l.async ∧ r.status = 1 ∧ l.opcode ≠ 0x0601 then
      let s2 := { s1 with stw := { s1.stw with cmds := s1.stw.cmds ++ [x] } }
      if (s2.noticeChan c.ch).isSome then s2.answer c.ch c.opcode c.tag r else s2
    else s1.answer c.ch c.opcode c.tag r

/-- A command row: firmware serves the request of channel `n` if it is the next one and carries the row's opcode, or an opcode no
table lists. An aborted notice that came back is consumed. `host` holds the bytes host memory gave for an inbound transfer. -/
def State.serve (s : State) (n : Nat) (l : Layout) (host : List Byte) (run : Cmd → State → Rep × State) : State :=
  let c := s.cmdAt n
  if ¬s.serving ∨ s.nextWaiting ≠ some n then s
  else if c.aborted then
    let z := (s.sideAction n true 8).clearBits n (2 ^ 16)
    { z with stw := { z.stw with lastTaken := n } }
  else if c.opcode ≠ l.opcode ∧ opcodes.contains c.opcode then s
  else
    let s1 := s.takeRequest n
    match s1.firstFail l c with
    | some st => s1.answer n c.opcode c.tag { status := st }
    | none =>
      match l.bulk with
      | .none => s1.runCmd l c run
      | .outof _ =>
        if c.mode = 2 ∧ c.bulkAddr > 0 then s1.answer n c.opcode c.tag (s1.furtherBytes c)
        else (if c.bulkAddr = 0 then s1.dropResult (outKey n l.opcode) else s1).runCmd l c run
      | .into _ _ =>
        match s1.inbound c host with
        | .more next s2 => s2.answer n c.opcode c.tag { status := 0, args := argAt 16 8 next }
        | .wrong s2 => s2.answer n c.opcode c.tag { status := 0x0100 }
        | .failed => s1.runCmd l c fun c z =>
            let st := (run c z).1.status
            ({ status := if st = 1 then 1 else if st = 0 then 0x0400 else st, done := some 0x0400 }, z)
        | .whole bs =>
          let s2 := { s1 with stw := { s1.stw with bulkIn := tdel s1.stw.bulkIn n } }
          s2.runCmd l { c with data := bs } run

/-- The command in progress of a channel and TAG. -/
def State.findCmd (s : State) (ch tag : Nat) : Option AsyncCmd := s.stw.cmds.find? fun c => c.chan == ch && c.tag == tag

/-- End a command in progress with its final figures. -/
def State.endCmd (s : State) (c : AsyncCmd) (r : Rep) : State :=
  ({ s with stw := { s.stw with cmds := s.stw.cmds.erase c } }).complete c.chan c.opcode c.tag r

/-! ## Commands -/

/-- NOTICE_SEND (R470). -/
def execNoticeSend (ch : Fin 64) (s : State) : Host.Outcome State Fault Refusal := .next (s.sendNotice ch.val)

/-- BULK_RESULT_EXPIRY (R472). -/
def execBulkResultExpiry (ch : Fin 64) (s : State) : Host.Outcome State Fault Refusal := .next (s.expireBulk ch.val)

end Sys2Proof.Machine
end

