-- ==== Sys2Proof/Machine/Trust.lean ====
section
/-!
DEFINITION. Keys, the trust store, firmware images and their update, attestation, and weight manifests with the fetching and
serving of shards (16; 18, Weights and trust).
-/
namespace Sys2Proof.Machine

/-! ## Records of security faults (R439) -/

/-- A security fault: bytes 0-7 of a digest, an index, a coordinate and a reason. -/
def State.secRecord (s : State) (code : Nat) (digest : List Byte) (idx coord reason : Nat) : State :=
  s.raise code 1 {} (leAt digest 0 8 + idx % 2 ^ 32 * 2 ^ 64 + coord * 2 ^ 96 + reason * 2 ^ 128)

/-! ## The trust store (R418 to R422) -/

/-- The root public key. -/
def rootPublic : List Byte := (List.range 32).map Config.rootKey
/-- ROOT_DIGEST: the KEY_ID of the root key. -/
def rootId : List Byte := sha256 rootPublic

/-- The root record's body: USAGE FIRMWARE and TRUST. -/
def rootBody : List Byte :=
  rootId ++ rootPublic ++ (List.range 32).map Config.rootRest ++ leBytes 4 9 ++ leBytes 1 1 ++ leBytes 3 0 ++
  (List.range 8).map (fun i => Config.rootRest (32 + i)) ++ leBytes 16 0

/-- The bytes of a trust-store slot. -/
def State.trustSlot (s : State) (i : Nat) : List Byte :=
  if i = 0 then rootBody ++ List.replicate 8064 0#8
  else match s.sec.trust.find? fun e => e.1 == i with
    | some e => e.2.body ++ e.2.sig ++ List.replicate 208 0#8
    | none => List.replicate 8192 0#8

/-- KEY_ID, PUBLIC_KEY, SIGNER_ID, USAGE, STATE and ENROLL_SEQ of a key body. -/
def keyId (b : List Byte) : List Byte := b.take 32
def keyPublic (b : List Byte) : List Byte := (b.drop 32).take 32
def keySigner (b : List Byte) : List Byte := (b.drop 64).take 32
def keyUsage (b : List Byte) : Nat := leAt b 96 4
def keyState (b : List Byte) : Nat := leAt b 100 1
def keySeq (b : List Byte) : Nat := leAt b 104 8

/-- A key body is well formed. -/
def bodyFormed (b : List Byte) : Bool :=
  b.length == 128 && keyId b == sha256 (keyPublic b) && keyUsage b < 16 && (keyState b == 1 || keyState b == 2) &&
  zeroAt b 101 3 && 1 ≤ keySeq b && zeroAt b 112 16

/-- Why a record is not in force: 1 header, 3 signer, 4 signature; none if it is in force, its chain to the root having at most
`links` links (R420). -/
def keyBar (store : List (Nat × TrustRec)) : Nat → TrustRec → Option Nat
  | 0, _ => some 3
  | links + 1, r =>
    if !bodyFormed r.body || keyState r.body ≠ 1 then some 1
    else if keySigner r.body = rootId then
      if Config.slhVerify false rootPublic r.body r.sig then none else some 4
    else if bit (keyUsage r.body) 0 then some 3
    else match store.find? fun e => keyId e.2.body == keySigner r.body with
      | none => some 3
      | some e =>
        if !bit (keyUsage e.2.body) 3 || (keyBar store links e.2).isSome then some 3
        else if Config.slhVerify false (keyPublic e.2.body) r.body r.sig then none else some 4

/-- Whether a record is in force: at most four links. -/
def keyInForce (store : List (Nat × TrustRec)) (r : TrustRec) : Bool := (keyBar store 4 r).isNone

/-- The public key of a KEY_ID in force whose USAGE carries bit `use` (0 FIRMWARE, 1 ALMANAC, 2 WEIGHTS, 3 TRUST). -/
def keyFor (store : List (Nat × TrustRec)) (id : List Byte) (use : Nat) : Option (List Byte) :=
  if id = rootId then (if use = 0 ∨ use = 3 then some rootPublic else none)
  else match store.find? fun e => keyId e.2.body == id with
    | some e => if bit (keyUsage e.2.body) use && keyInForce store e.2 then some (keyPublic e.2.body) else none
    | none => none

/-- Whether an object verifies under a key in force with a usage. -/
def State.verifies (s : State) (id : List Byte) (use : Nat) (msg sig : List Byte) : Bool :=
  match keyFor s.sec.trust id use with
  | some k => Config.slhVerify false k msg sig
  | none => false

/-- Records in force, the root among them. -/
def State.keysInForce (s : State) : Nat := 1 + (s.sec.trust.filter fun e => keyInForce s.sec.trust e.2).length

/-- Firmware checks every record at a warm or cold reset. -/
def State.checkTrust (s : State) : State :=
  let s1 := s.sec.trust.foldl (fun z e => match keyBar s.sec.trust 4 e.2 with
    | none => z
    | some r => z.secRecord 0x0901 (keyId e.2.body) e.1 0 r) s
  s1.fset R.secStatus F.secStatus_KEYS_IN_FORCE s.keysInForce

/-! ## Firmware images (R423 to R427) -/

/-- SVN, SIZE, SIGNER and BUILD_ID of a firmware image. -/
def imgSvn (b : List Byte) : Nat := leAt b 6 2
def imgSize (b : List Byte) : Nat := leAt b 8 4
def imgSigner (b : List Byte) : List Byte := (b.drop 16).take 32
def imgBuild (b : List Byte) : Nat := leAt b 48 8

/-- A firmware image header is well formed. -/
def imgFormed (b : List Byte) : Bool :=
  leAt b 0 4 == 0x57465A4F && leAt b 4 2 == 1 && imgSvn b < 64 && 128 + 7856 ≤ imgSize b && imgSize b ≤ 2 ^ 21 &&
  imgSize b ≤ b.length && leAt b 12 4 < imgSize b && zeroAt b 56 72

/-- Reason an image fails step 3 of R423: 1 header, 2 SVN, 3 signer, 4 signature. -/
def State.imgBar (s : State) (b : List Byte) : Option Nat :=
  if !imgFormed b then some 1
  else if imgSvn b < s.sec.svnFuse then some 2
  else match keyFor s.sec.trust (imgSigner b) 0 with
    | none => some 3
    | some k =>
      if Config.slhVerify false k (b.take (imgSize b - 7856)) ((b.drop (imgSize b - 7856)).take 7856) then none else some 4

/-- The bytes of a firmware slot (false A, true B). -/
def State.slot (s : State) (b : Bool) : List Byte := if b then s.sec.slotB else s.sec.slotA

/-- BOOT_SLOT, PREF and TRIAL. -/
def State.bootSlot (s : State) : Nat := s.fget R.secStatus F.secStatus_BOOT_SLOT
def State.pref (s : State) : Bool := s.fget R.secBootCtl F.secBootCtl_PREF == 1
def State.trial (s : State) : Bool := s.fget R.secBootCtl F.secBootCtl_TRIAL == 1

/-- The slot an update goes to: the one that is not running; after a recovery boot, the one PREF does not name. -/
def State.idleSlot (s : State) : Bool := if s.bootSlot = 2 then !s.pref else s.bootSlot == 0

/-- A STAGE ends: the image in the idle slot is checked (R425). Reason 0: staged. -/
def State.stageImage (s : State) : Nat × State :=
  let k := s.idleSlot
  match s.imgBar (s.slot k) with
  | some r => (r, s)
  | none => (0, ({ s with sec := { s.sec with stage := some k } }).fset R.secBootCtl
      (if k then F.secBootCtl_REJECT_B else F.secBootCtl_REJECT_A) 0)

/-- A STAGE that begins clears the commit of an earlier staged image not yet booted. -/
def State.uncommit (s : State) : State :=
  if s.sec.committed then
    ({ (s.fset R.secBootCtl F.secBootCtl_PREF (b2n (!s.pref))).fset R.secBootCtl F.secBootCtl_TRIAL 0 with
       sec := { s.sec with committed := false } }).fset R.secBootCtl F.secBootCtl_TRIES 0
  else s

/-- A STAGE whose last piece has come begins: the image stands in the idle slot, and nothing is staged until it is checked (R425). -/
def State.beginStage (s0 : State) (b : List Byte) : State :=
  let s := s0.uncommit
  { s with sec := if s.idleSlot then { s.sec with slotB := b, stage := none } else { s.sec with slotA := b, stage := none } }

/-- Whether R427 allows an advance. -/
def State.advanceOk (s : State) : Bool := !s.trial && s.sec.svnFuse < s.fget R.secStatus F.secStatus_RUN_SVN

/-- ADVANCE raises SVN_FUSE to RUN_SVN when R427 allows it. -/
def State.advance (s : State) : State :=
  if s.advanceOk then { s with sec := { s.sec with svnFuse := s.fget R.secStatus F.secStatus_RUN_SVN } } else s

/-! ## Enrolment (R421, R422) -/

/-- Signers of the objects in force: running image, active almanac, loaded manifests, with their usage. -/
def State.signersInUse (s : State) : List (List Byte × Nat) :=
  [(imgSigner s.sec.running, 0)] ++ (match s.top.active with | some a => [(almanacSigner a.raw, 1)] | none => []) ++
  s.sec.manifests.map fun e => (e.2.signer, 2)

/-- Enrol a key body with its signature: status, slot. -/
def State.enroll (s : State) (b sig : List Byte) : Nat × Nat × State :=
  let old := s.sec.trust.find? fun e => keyId e.2.body == keyId b
  let slot := match old with
    | some e => some e.1
    | none => (List.range 64).find? fun i => i ≠ 0 && !s.sec.trust.any (·.1 == i)
  let r : TrustRec := { body := b, sig := sig }
  if !bodyFormed b then (Status.badArg, 0, s)
  else if keySeq b ≤ (s.reg R.secTrustSeq).toNat ∨ keyId b = rootId then (Status.notPermitted, 0, s)
  else
    match slot with
    | none => (Status.notPermitted, 0, s)
    | some i =>
      let store := s.sec.trust.filter (fun e => e.1 ≠ i) ++ [(i, r)]
      let bar := if keyState b = 2 then
          (if old.isNone then some Status.notPermitted
           else match keyFor s.sec.trust (keySigner b) 3 with
             | none => some Status.signatureInvalid
             | some k => if Config.slhVerify false k b sig then none else some Status.signatureInvalid)
        else match old with
          | some e => if keyState e.2.body = 2 then some Status.notPermitted
              else (keyBar store 4 r).map fun _ => Status.signatureInvalid
          | none => (keyBar store 4 r).map fun _ => Status.signatureInvalid
      match bar with
      | some st => (st, 0, s)
      | none =>
        let was := s.signersInUse.filter fun x => (keyFor s.sec.trust x.1 x.2).isSome
        let s1 := { s with sec := { s.sec with trust := store } }
        let s2 := (s1.setReg R.secTrustSeq (BitVec.ofNat 64 (keySeq b))).fset R.secStatus F.secStatus_KEYS_IN_FORCE s1.keysInForce
        let lost := was.any fun x => (keyFor s2.sec.trust x.1 x.2).isNone
        (Status.ok, i, if lost then s2.fset R.secStatus F.secStatus_REVOKED_IN_USE 1 else s2)

/-! ## Attestation (R429) -/

/-- Bytes 0 to 255 of an attestation report. -/
def State.reportBody (s : State) (nonce : List Byte) : List Byte :=
  let zero32 := List.replicate 32 0#8
  leBytes 4 0x5454415A ++ leBytes 2 1 ++
  leBytes 2 (s.fget R.secStatus F.secStatus_RECOVERY + 2 * s.fget R.secStatus F.secStatus_REVOKED_IN_USE) ++ nonce.take 32 ++
  ownIdentity ++ sha256 s.sec.running ++ sha256 ((List.range 64).flatMap s.trustSlot) ++
  (match s.top.active with | some a => sha256 a.raw | none => zero32) ++
  (if s.prog.st == .none || s.prog.st == .loading then zero32 else s.prog.hdr.digest) ++
  (if s.sec.manifests.isEmpty then zero32 else sha256 (s.sec.manifests.flatMap fun e => e.2.root)) ++
  leBytes 8 s.ns ++ leBytes 8 (s.reg R.ngtEpochId).toNat ++ leBytes 1 (s.fget R.secStatus F.secStatus_RUN_SVN) ++
  leBytes 1 s.sec.svnFuse ++ leBytes 6 0

/-- The signed report: 17,344 bytes. -/
def signedReport (b : List Byte) : List Byte := b ++ (List.range 17088).map (Config.slhSign b)

/-- The attestation being signed, the first of those in progress (R429): its data is the nonce until signing begins, the report's
body from then on. -/
def State.attest (s : State) : Option AsyncCmd := s.stw.cmds.find? (·.opcode == 0x0B01)

/-- ATTEST: a report begins to be signed at once where the SEC block is free, otherwise its nonce is kept for its turn (R429). -/
def State.attestCmd (s : State) (c : Cmd) : Rep × State :=
  ({ status := Status.accepted, keep := if s.attest.isNone then s.reportBody c.body else [] }, s)

/-- The SEC block begins to sign the next report once it is free: its NGT is that of this instant (R429). -/
def State.signNext (s : State) : State :=
  match s.attest with
  | none => s
  | some c =>
    if c.data.length = 256 then s
    else { s with stw := { s.stw with cmds := s.stw.cmds.map fun (x : AsyncCmd) => if x = c then { x with data := s.reportBody x.data } else x } }

/-! ## Manifests (R430 to R433) -/

/-- One reduction pass over a digest list (R432). -/
def merklePass : List (List Byte) → List (List Byte)
  | x :: y :: rest => sha256 (1#8 :: (x ++ y)) :: merklePass rest
  | xs => xs

/-- Reduction to one digest; `fuel` bounds the levels. -/
def merkle : Nat → List (List Byte) → List Byte
  | 0, xs => xs.headD []
  | fuel + 1, xs => if xs.length ≤ 1 then xs.headD [] else merkle fuel (merklePass xs)

/-- The leaf digest of a chunk of 1 MiB. -/
def leafOf (bs : List Byte) : List Byte := sha256 (0#8 :: bs)

/-- A shard entry. -/
def shardOf (e : List Byte) : Shard :=
  { target := leAt e 0 4, tier := leAt e 4 1, segment := leAt e 5 1, bytes := leAt e 8 8, imageOff := leAt e 16 8,
    leafOff := leAt e 24 8, subroot := (e.drop 32).take 32, presOff := leAt e 64 8, presBits := leAt e 72 4 }

/-- Chunks of a shard. -/
def Shard.chunks (x : Shard) : Nat := cdiv x.bytes (2 ^ 20)

/-- A shard entry is well formed; `pres` is the size of the presence section. -/
def shardFormed (pres : Nat) (e : List Byte) : Bool :=
  let x := shardOf e
  isCoord x.target && x.tier ≤ 2 && x.segment ≤ 63 && zeroAt e 6 2 && 1 ≤ x.bytes && x.bytes ≤ 2 ^ 40 &&
  x.imageOff % 2 ^ 20 == 0 && x.leafOff % 64 == 0 && zeroAt e 76 20 &&
  (x.presBits == 0 || x.presOff + cdiv x.presBits 8 ≤ pres)

/-- A manifest well formed under R430 and R431. -/
def parseManifest (b : List Byte) : Option Manifest :=
  let n := leAt b 16 4
  let t := leAt b 32 8
  let po := leAt b 40 8
  let ps := leAt b 48 8
  let es := (List.range n).map (recAt b t 96)
  if 128 + 7856 ≤ b.length && b.length ≤ 2 ^ 24 && leAt b 0 4 == 0x49574842 && leAt b 4 2 == 1 && leAt b 6 2 < 2 &&
      1 ≤ n && n ≤ 65536 && zeroAt b 20 4 && leAt b 24 8 == b.length && zeroAt b 56 8 && 128 ≤ t &&
      t + 96 * n ≤ b.length - 7856 && (po == 0 && ps == 0 || (128 ≤ po && po + ps ≤ b.length - 7856)) &&
      es.all (shardFormed ps) then
    some { root := (b.drop 64).take 32, modelId := leAt b 8 8, rackAny := bit (leAt b 6 2) 0, signer := (b.drop 96).take 32,
           shards := es.map shardOf, presence := (b.drop po).take ps, bytes := b }
  else none

/-- The held manifest with a ROOT. -/
def State.manifestOf (s : State) (root : List Byte) : Option (Nat × Manifest) := s.sec.manifests.find? fun e => e.2.root == root

/-- WEIGHT_MANIFEST_LOAD: status, failing check, slot (R433). -/
def State.loadManifest (s : State) (b : List Byte) : Nat × Nat × State :=
  match parseManifest b with
  | none => (Status.badArg, 1, s)
  | some m =>
    let mine := m.shards.filter (s.shardApplies m.rackAny)
    if !pairwise (fun x y => x.segment != y.segment) mine then (Status.badArg, 2, s)
    else if !s.verifies m.signer 2 (b.take (b.length - 7856)) (b.drop (b.length - 7856)) then (Status.signatureInvalid, 3, s)
    else if m.root ≠ merkle 17 (m.shards.map (·.subroot)) then (Status.signatureInvalid, 4, s)
    else match s.manifestOf m.root with
      | some e => (Status.ok, e.1, s)
      | none =>
        match (List.range 8).find? fun i => !s.sec.manifests.any (·.1 == i) with
        | none => (Status.notPermitted, 5, s)
        | some i =>
          let ms := s.sec.manifests.filter (fun e => e.1 < i) ++ [(i, m)] ++ s.sec.manifests.filter (fun e => i < e.1)
          (Status.ok, i, { s with sec := { s.sec with manifests := ms } })

/-- Change a shard of a held manifest. -/
def State.modShard (s : State) (slot k : Nat) (f : Shard → Shard) : State :=
  { s with sec := { s.sec with manifests := s.sec.manifests.map fun e =>
    if e.1 = slot then (e.1, { e.2 with shards := lmod e.2.shards k f }) else e } }

/-- Shard `k` of the manifest in a slot. -/
def State.shard (s : State) (slot k : Nat) : Option (Manifest × Shard) :=
  (s.sec.manifests.find? (·.1 == slot)).bind fun e => (e.2.shards[k]?).map fun x => (e.2, x)

/-- Whether every chunk of a shard is verified. -/
def Shard.done (x : Shard) : Bool := x.verified.length == x.chunks

/-- PROG_ARM step 5 (R438): every WEIGHTS segment of kind LOCAL, LOCAL_FIXED or HOST has a verified shard; HOST segments are
hashed again, `host` holding their chunks in segment order. -/
def State.weightsOk (s : State) (host : List Byte) : Bool :=
  let gs := segDecls s.prog.secs
  ((List.range gs.length).foldl (fun (acc : Bool × List Byte) i =>
    match gs[i]? with
    | none => acc
    | some g =>
      if !bit g.flags 1 || g.kind == 2 || g.kind == 4 then acc
      else
        match s.sec.manifests.findSome? fun e => (e.2.shards.find? fun x =>
            s.shardApplies e.2.rackAny x && x.segment == i && x.done && (x.tier == 2) == (g.kind == 3)) with
        | none => (false, acc.2)
        | some x =>
          if g.kind ≠ 3 then acc
          else
            let n := x.chunks
            (acc.1 && acc.2.length ≥ n * 2 ^ 20 && (List.range n).all (fun c =>
              some (leafOf ((acc.2.drop (c * 2 ^ 20)).take (2 ^ 20))) == x.leaves[c]?), acc.2.drop (n * 2 ^ 20)))
    (true, host)).1

/-! ## Fetching (R434 to R436) -/

/-- Sources named by a SHARD_FETCH body. -/
def sourcesOf (b : List Byte) : List Source :=
  (List.range (leAt b 36 1)).map fun i => { kind := leAt b (40 + 16 * i) 1, addr := leAt b (48 + 16 * i) 8 }

/-- Whether the sources of a SHARD_FETCH are legal for a tier. -/
def sourcesOk (tier : Nat) (b : List Byte) : Bool :=
  (List.range (leAt b 36 1)).all (fun i => zeroAt b (41 + 16 * i) 7) &&
  (sourcesOf b).all fun x => (x.kind == 1 && isCoord x.addr) || x.kind == 2 || (x.kind == 3 && tier == 2 && x.addr == 0)

/-- Peer chunks outstanding at a source. -/
def Fetch.atSource (f : Fetch) (k : Nat) : Nat := (f.out.filter (·.src == k)).length

/-- Whether source `k` may be asked for a chunk. -/
def Fetch.usable (f : Fetch) (chunk k : Nat) : Bool :=
  match f.sources[k]? with
  | none => false
  | some x => !x.excluded && !x.declined.contains chunk && (x.kind ≠ 1 || f.atSource k < 4)

/-- The next source in round robin that may be asked for a chunk. -/
def Fetch.pick (f : Fetch) (chunk : Nat) : Option Nat :=
  ((List.range f.sources.length).map fun i => (f.rr + i) % f.sources.length).find? (f.usable chunk)

/-- A transfer slot (context and completion counter) no chunk uses. -/
def State.freeTransfer (s : State) : Option Nat :=
  (List.range 16).find? fun k => !s.sec.fetches.any fun f => f.out.any (·.counter == k)

/-- Body of CHUNK_REQUEST and CHUNK_DECLINE (R474). -/
def chunkBody (kind : Nat) (root : List Byte) (shard chunk ctx ccnt : Nat) : List Byte :=
  leBytes 1 kind ++ root.take 16 ++ leBytes 4 shard ++ leBytes 4 chunk ++ leBytes 2 ctx ++ leBytes 2 ccnt ++ leBytes 3 0

/-- Firmware prepares context and counter of a transfer slot for a chunk at memory address `addr` and asks the peer. A HOST segment
gives the PUT no receive buffer: it lies outside HBM (R352). -/
def State.askPeer (s : State) (k peer addr : Nat) (root : List Byte) (shard chunk : Nat) (host : Bool) : State :=
  let n := Config.fetchContext.val + k
  let q := Config.fetchCounter.val + k
  let s1 := (s.resetCtx n).writeRoutes (Config.routeBase.val + 32 + 4 * k) peer
  let o := R.svcSctxNCfg n
  let s2 := (((s1.setReg o 0).fset o F.svcSctxNCfg_DEST (deviceOf peer * 2 ^ 15 + 0x400)).fset o F.svcSctxNCfg_PEER n).fset o
    F.svcSctxNCfg_ROUTE_BASE (Config.routeBase.val + 32 + 4 * k)
  let b := R.svcSctxNRxbuf n
  let s3 := ((s2.fset o F.svcSctxNCfg_ROUTE_CNT_M1 3).fset b F.svcSctxNRxbuf_BASE addr).fset b F.svcSctxNRxbuf_LIMIT_64K
    (if host then 0 else 16)
  let s4 := ((s3.ccntClear q).ccntArm q (2 ^ 60)).grantWindow n 4096
  s4.tell peer (chunkBody 9 root shard chunk n q)

/-- Hold a fetch. -/
def State.setFetch (s : State) (i : Nat) (f : Fetch) : State :=
  { s with sec := { s.sec with fetches := lset s.sec.fetches i f } }

/-- A fetch ends: the command's status is settled; a fetch that failed is recorded (R436). -/
def State.endFetch (s : State) (i : Nat) (ok : Bool) : State :=
  match s.sec.fetches[i]? with
  | none => s
  | some f =>
    let s1 := (s.setFetch i { f with ended := some ok, out := [] }).settleCmd f.chan f.tag (if ok then 0 else Status.aborted)
    if ok then s1
    else match s.shard f.slot f.shard with
      | some (m, _) => s1.secRecord 0x0905 m.root 0 0 0
      | none => s1

/-- Whether a fetch can no longer verify its shard. -/
def Fetch.hopeless (f : Fetch) (todo : List Nat) : Bool :=
  f.sources.all (·.excluded) || todo.any fun c => f.sources.all fun x => x.excluded || x.declined.contains c

/-- Assign one chunk to a source. -/
def State.assignChunk (s : State) (i chunk : Nat) : State :=
  match s.sec.fetches[i]? with
  | none => s
  | some f =>
    if f.out.length ≥ 16 then s else
    match f.pick chunk, s.freeTransfer, s.shard f.slot f.shard with
    | some k, some t, some (m, x) =>
      let s1 := s.setFetch i { f with out := f.out ++ [{ chunk := chunk, src := k, counter := t }], rr := (k + 1) % f.sources.length }
      (match f.sources[k]?, s.prog.segs[x.segment]? with
       | some src, some g => if src.kind = 1 then s1.askPeer t src.addr (g.base + chunk * 2 ^ 20) m.root f.shard chunk (g.kind == 3) else s1
       | _, _ => s1)
    | _, _, _ => s

/-- A fetch goes on: it ends verified or hopeless, or its unverified chunks are assigned. -/
def State.pumpFetch (s : State) (i : Nat) : State :=
  match s.sec.fetches[i]? with
  | none => s
  | some f =>
    match s.shard f.slot f.shard with
    | none => s
    | some (_, x) =>
      let todo := below x.chunks fun c => !x.verified.contains c
      if f.ended.isSome then s
      else if todo.isEmpty then s.endFetch i true
      else if f.hopeless todo then s.endFetch i false
      else (todo.filter fun c => !f.out.any (·.chunk == c)).foldl (fun z c => z.assignChunk i c) s

/-- SHARD_FETCH: whether R434 accepts it, and the fetch with its leaf list, `leaves` being what each source delivered. -/
def State.startFetch (s : State) (c : Cmd) (leaves : List (List Byte)) : Rep × State :=
  let k := leAt c.body 32 4
  match s.manifestOf (c.body.take 32) with
  | none => ({ status := Status.badArg }, s)
  | some (slot, m) =>
  match m.shards[k]? with
  | none => ({ status := Status.badArg }, s)
  | some x =>
  if !s.shardApplies m.rackAny x || !sourcesOk x.tier c.body then ({ status := Status.badArg }, s)
  else if s.busyOp 0x0502 (fun _ => true) then ({ status := Status.busyDeferred }, s)
  else
    let g := (segDecls s.prog.secs)[x.segment]?
    let segOk := match g with
      | some d => bit d.flags 1 && (if x.tier = 2 then d.kind == 3 else d.kind ≤ 1) && x.chunks * 2 ^ 20 ≤ d.size
      | none => false
    if s.prog.st ≠ .loaded || !segOk || s.sec.fetches.any (fun f => f.slot == slot && f.shard == k && f.ended.isNone) then
      ({ status := Status.notPermitted }, s)
    else
      let good := leaves.find? fun l => l.length == 32 * x.chunks &&
        merkle 21 ((List.range x.chunks).map (recAt l 0 32)) == x.subroot
      let have_ := !x.leaves.isEmpty
      let s1 := match good with
        | some l => if have_ then s else s.modShard slot k fun y => { y with leaves := (List.range x.chunks).map (recAt l 0 32) }
        | none => s
      let f : Fetch := { slot := slot, shard := k, sources := sourcesOf c.body, chan := c.ch, tag := c.tag }
      let s2 := { s1 with sec := { s1.sec with fetches := s1.sec.fetches ++ [f] } }
      let i := s1.sec.fetches.length
      if have_ || good.isSome then
        ({ status := Status.accepted, done := if x.done then some 0 else none }, s2.pumpFetch i)
      else ({ status := Status.accepted, done := some Status.aborted }, s2.endFetch i false)

/-- A chunk of a fetch was not delivered: it goes to the next source (R436). -/
def State.chunkMissed (s : State) (i : Nat) (o : ChunkOut) (declined : Bool) : State :=
  match s.sec.fetches[i]? with
  | none => s
  | some f =>
    let srcs := if declined then lmod f.sources o.src fun x => { x with declined := x.declined ++ [o.chunk] } else f.sources
    (s.setFetch i { f with out := f.out.erase o, sources := srcs, rr := (o.src + 1) % f.sources.length }).pumpFetch i

/-- A chunk's digest does not match its leaf (R436). -/
def State.chunkWrong (s : State) (i : Nat) (o : ChunkOut) : State :=
  match s.sec.fetches[i]? with
  | none => s
  | some f =>
    match s.shard f.slot f.shard, f.sources[o.src]? with
    | some (m, _), some src =>
      let coord := if src.kind = 1 then src.addr else 0
      let bad := src.bad + 1
      let s1 := (s.secRecord 0x0903 m.root o.chunk coord 0).fbump R.secShaStat F.secShaStat_MISMATCHES 1
      let s2 := if bad = 2 then s1.secRecord 0x0904 m.root o.chunk coord 0 else s1
      (s2.setFetch i { f with out := f.out.erase o, rr := (o.src + 1) % f.sources.length,
                              sources := lset f.sources o.src { src with bad := bad, excluded := bad ≥ 2 } }).pumpFetch i
    | _, _ => s

/-- A chunk has been hashed (R435, R436). A chunk of a PEER counts once its completion counter is COMPLETE; `host` holds the 1 MiB
a HOST source delivered or that stands in the host window, and is empty where the transfer failed. -/
def State.chunkHashed (s : State) (i chunk : Nat) (host : List Byte) : State :=
  match s.sec.fetches[i]? with
  | none => s
  | some f =>
    match f.out.find? (·.chunk == chunk), s.shard f.slot f.shard with
    | some o, some (_, x) =>
      match f.sources[o.src]?, s.prog.segs[x.segment]? with
      | some src, some g =>
        let off := g.base % 2 ^ 40 + chunk * 2 ^ 20
        let peer := src.kind = 1
        if peer ∧ s.fget (R.svcCcntN (Config.fetchCounter.val + o.counter)) F.svcCcntN_STATE ≠ 2 then s
        else if ¬peer ∧ host.length ≠ 2 ^ 20 then s.chunkMissed i o false
        else
          let place (z : State) : State := match tierOf g.base with
            | .host w o => (match z.hostAddr w (o + chunk * 2 ^ 20) host.length with | some h => z.toHostMem h host | none => z)
            | _ => z.hbmWrite off host fun _ => false
          let s1 := if src.kind = 2 then place s else s
          if g.kind ≠ 3 ∧ s1.hbmBad off (2 ^ 20) then s1.chunkMissed i o false
          else
            let bs := if g.kind = 3 then host else s1.hbmBytes off (2 ^ 20)
            if some (leafOf bs) == x.leaves[chunk]? then
              let s2 := s1.modShard f.slot f.shard fun y => { y with verified := sins y.verified chunk }
              ((s2.fbump R.secShaStat F.secShaStat_CHUNKS_VERIFIED 1).setFetch i { f with out := f.out.erase o }).pumpFetch i
            else s1.chunkWrong i o
      | _, _ => s
    | _, _ => s

/-- Chunks of a peer whose transfer a PROBE has ended: a sequence of it is fenced (R349, R436). They go to another source. -/
def State.fetchesFenced (s : State) : State :=
  let lost := (List.range s.sec.fetches.length).flatMap fun i => match s.sec.fetches[i]? with
    | none => []
    | some f => (f.out.filter fun o => (match f.sources[o.src]? with | some x => x.kind == 1 | none => false) &&
        (s.ctx (Config.fetchContext.val + o.counter)).fenced ≠ []).map fun o => (i, o)
  lost.foldl (fun z x => z.chunkMissed x.1 x.2 false) s

/-- SHA-256 engines hashing now (SEC_SHA_STAT): on the chunks that stand complete and wait for their digest. A HOST chunk is in
transfer until then. -/
def State.enginesBusy (s : State) : Nat :=
  let stands (f : Fetch) (o : ChunkOut) : Bool := match f.sources[o.src]? with
    | some x => x.kind == 3 || x.kind == 1 && s.fget (R.svcCcntN (Config.fetchCounter.val + o.counter)) F.svcCcntN_STATE == 2
    | none => false
  sumOf (s.sec.fetches.map fun f => (f.out.filter (stands f)).length)

/-- CHUNK_DECLINE arrives: the chunk goes to another source. -/
def State.onDecline (s : State) : State :=
  match s.takeKind 0x0A with
  | none => s
  | some (m, s1) =>
    let peer := deviceOf m.src * 2 ^ 15 + 0x7FFF
    let hit (f : Fetch) (o : ChunkOut) : Bool :=
      o.chunk == leAt m.body 21 4 && f.shard == leAt m.body 17 4 && (match f.sources[o.src]? with
        | some x => x.kind == 1 && x.addr == peer | none => false) &&
      (match s1.shard f.slot f.shard with | some (k, _) => k.root.take 16 == (m.body.drop 1).take 16 | none => false)
    match (List.range s1.sec.fetches.length).findSome? fun i => (s1.sec.fetches[i]?).bind fun f =>
        (f.out.find? (hit f)).map fun o => (i, o) with
    | some (i, o) => s1.chunkMissed i o true
    | none => s1

/-! ## Serving (R437) -/

/-- The PUT packets of a chunk (R352): 260 of 63 flits and one of 4, LAST with TOTAL = 261 on the last. -/
def chunkPieces : List (Nat × Nat) := (List.range 261).map fun i => (4032 * i, if i = 260 then 256 else 4032)

/-- This steward's context towards a device whose peer context is `ctx`. -/
def State.contextTo (s : State) (dev ctx : Nat) : Option Nat :=
  s.configured.find? fun n => s.ctxPeer n == ctx && (match s.resolve (s.ctxDest n) with
    | some d => deviceOf d == dev | none => false) && (s.ctx n).tx != .off

/-- CHUNK_REQUEST arrives: the chunk goes out by PUT on the requester's stream, or the request is declined. -/
def State.onChunkRequest (s : State) (errs : List HbmErr) : State :=
  match s.takeKind 9 with
  | none => s
  | some (m, s1) =>
    let root := (m.body.drop 1).take 16
    let k := leAt m.body 17 4
    let c := leAt m.body 21 4
    let ctx := leAt m.body 25 2
    let ccnt := leAt m.body 27 2
    let decline (z : State) : State := z.tell (deviceOf m.src * 2 ^ 15 + 0x7FFF) (0x0A#8 :: m.body.drop 1)
    match s1.sec.manifests.filter fun e => e.2.root.take 16 == root with
    | [(slot, man)] =>
      match man.shards[k]? with
      | none => decline s1
      | some x =>
        match s1.prog.segs[x.segment]?, s1.contextTo (deviceOf m.src) ctx with
        | some g, some n =>
          if !man.serving || !s1.shardApplies man.rackAny x || !x.verified.contains c || g.kind > 1 then decline s1
          else
            let off := g.base % 2 ^ 40 + c * 2 ^ 20
            let s2 := s1.hbmRead off (2 ^ 20) errs {} 0
            let s3 := if s2.hbmBad off (2 ^ 20) then s2.modShard slot k fun y => { y with verified := sdel y.verified c } else s2
            chunkPieces.foldl (fun z pc =>
              let last := pc.1 == 4032 * 260
              let req : SendReq := { op := 4, addr := pc.1, xfer := ccnt, last := last, total := if last then 261 else 0,
                                     body := z.hbmBytes (off + pc.1) pc.2 }
              let pk := z.reqPkt n req
              (z.offer n { pk with flit := pk.flit ||| BitVec.ofNat 512 (z.poisonBits (off + pc.1) pc.2 * 2 ^ (8 * 48)) } .steward).2) s3
        | _, _ => decline s1
    | _ => decline s1

/-! ## Command layouts (18, Weights and trust) -/

/-- ROOT of a request's body. -/
def rootOf (c : Cmd) : List Byte := c.body.take 32

/-- TRUST_ENROLL. -/
def layTrustEnroll : Layout := { opcode := 0x0501, async := true, by_ := [1, 4, 6], bulk := .into [1, 2] (· == 7984) }
/-- WEIGHT_MANIFEST_LOAD. -/
def layManifest : Layout :=
  { opcode := 0x0502, async := true, by_ := [1, 6], bulk := .into [1, 2] fun n => 1 ≤ n && n ≤ 2 ^ 24 }
/-- SHARD_FETCH. -/
def layFetch : Layout :=
  { opcode := 0x0503, async := true, by_ := [1, 6], len := fun n => 56 ≤ n && n ≤ 168 && (n - 40) % 16 == 0,
    ok := fun c => c.len == 40 + 16 * leAt c.body 36 1 && zeroAt c.body 37 3 }
/-- SHARD_SERVE. -/
def layServe : Layout := { opcode := 0x0504, by_ := [1, 6], len := (· == 32), uses := [(0, 1)], ok := fun c => c.a 0 1 < 2 }
/-- SHARD_STATUS. -/
def layShardStatus : Layout :=
  { opcode := 0x0505, by_ := [1, 4, 5, 6], len := (· == 32), bulk := .outof [0, 1, 2], uses := [(0, 4)] }
/-- ATTEST. -/
def layAttest : Layout := { opcode := 0x0B01, async := true, by_ := [1, 4, 5, 6], len := (· == 32), bulk := .outof [1, 2] }
/-- FW_UPDATE_STAGE. -/
def layStage : Layout := { opcode := 0x0B02, async := true, by_ := [1, 4], bulk := .into [1, 2] fun n => 1 ≤ n && n ≤ 2 ^ 21 }
/-- FW_UPDATE_COMMIT. -/
def layCommit : Layout := { opcode := 0x0B03, by_ := [1, 4], uses := [(0, 1)], ok := fun c => c.a 0 1 < 4 }

/-- SHARD_SERVE. -/
def State.shardServe (s : State) (c : Cmd) : Rep × State :=
  match s.manifestOf (rootOf c) with
  | none => ({ status := Status.badArg }, s)
  | some (slot, _) =>
    let on := c.a 0 1 == 1
    let ms := s.sec.manifests.map fun e => if e.1 = slot then (e.1, { e.2 with serving := on }) else e
    ({ status := 0, args := argAt 0 1 (b2n on) }, { s with sec := { s.sec with manifests := ms } })

/-- SHARD_STATUS. -/
def State.shardStatus (s : State) (c : Cmd) : Rep × State :=
  match (s.manifestOf (rootOf c)).bind fun e => (e.2.shards[c.a 0 4]?).map fun x => (e.1, e.2, x) with
  | none => ({ status := Status.badArg }, s)
  | some (slot, m, x) =>
    let f := s.sec.fetches.find? fun f => f.slot == slot && f.shard == c.a 0 4 && f.ended.isNone
    let st := if f.isSome then 1 else if x.done then 2 else if x.verified.isEmpty then 0 else 3
    let used := match f with | some f => (f.sources.filter (!·.excluded)).length | none => 0
    let body := leBytes 1 st ++ leBytes 8 x.verified.length ++ leBytes 8 x.chunks ++ leBytes 1 used ++ leBytes 4 x.presBits
    s.outbound c.ch c.who c.opcode c.tag c.mode c.bulkAddr c.bulkLen
      ((m.presence.drop x.presOff).take (cdiv x.presBits 8)) { status := 0, body := body }

/-- FW_UPDATE_COMMIT (R426, R427, R440). -/
def State.fwCommit (s : State) (c : Cmd) : Rep × State :=
  let busy := s.busyOp 0x0B02 fun _ => true
  let confirm := bit (c.a 0 1) 0
  let adv := bit (c.a 0 1) 1
  let ctl (z : State) : Rep := { status := 0, args := argAt 0 8 (z.reg R.secBootCtl).toNat }
  if !confirm && !adv then
    if busy then ({ status := Status.busyDeferred }, s)
    else match s.sec.stage with
      | none => ({ status := Status.notPermitted }, s)
      | some k =>
        let z := ((s.fset R.secBootCtl F.secBootCtl_PREF (b2n k)).fset R.secBootCtl F.secBootCtl_TRIAL 1).fset R.secBootCtl
          F.secBootCtl_TRIES 0
        let z1 := { z with sec := { z.sec with committed := true } }
        (ctl z1, z1)
  else
    let s1 := if confirm then (s.fset R.secBootCtl F.secBootCtl_TRIAL 0).fset R.secBootCtl F.secBootCtl_TRIES 0 else s
    if (confirm && busy) || (adv && !s1.advanceOk) then ({ status := Status.notPermitted }, s)
    else
      let s2 := if adv then s1.advance else s1
      (ctl s2, s2)

/-! ## Completions of the asynchronous commands -/

/-- TRUST_ENROLL ends. -/
def State.finishEnroll (s : State) (c : AsyncCmd) : Rep × State :=
  let b := c.data.take 128
  let (st, slot, s1) := s.enroll b ((c.data.drop 128).take 7856)
  if st = 0 then ({ status := 0, args := argAt 0 8 (keySeq b) + argAt 8 1 slot }, s1) else ({ status := st }, s1)

/-- WEIGHT_MANIFEST_LOAD ends. -/
def State.finishManifest (s : State) (c : AsyncCmd) : Rep × State :=
  let (st, v, s1) := s.loadManifest c.data
  ({ status := st, args := if st = 0 then argAt 0 8 v else argAt 0 1 v }, s1)

/-- SHARD_FETCH ends: chunks verified, chunks, sources excluded. -/
def State.finishFetch (s : State) (c : AsyncCmd) (st : Nat) : Rep × State :=
  match s.sec.fetches.find? fun f => f.chan == c.chan && f.tag == c.tag with
  | none => ({ status := st }, s)
  | some f =>
    let s1 := { s with sec := { s.sec with fetches := s.sec.fetches.filter fun x => !(x.chan == c.chan && x.tag == c.tag) } }
    match s.shard f.slot f.shard with
    | none => ({ status := st }, s1)
    | some (_, x) =>
      if st ≠ 0 then ({ status := st }, s1)
      else
        let gone := (f.sources.filter (·.excluded)).length
        ({ status := 0, args := argAt 0 8 x.verified.length + argAt 8 8 x.chunks + argAt 16 1 gone }, s1)

/-- ATTEST ends: the report is signed and delivered; one asked for later waits for its turn (R429). -/
def State.finishAttest (s : State) (c : AsyncCmd) : Option Rep × State :=
  if s.attest ≠ some c then (none, s)
  else
    let r := s.outbound c.chan (s.sideCode c.chan false) c.opcode c.tag (leAt c.args 15 1) (leAt c.args 16 8) (leAt c.args 24 8)
      (signedReport c.data) { status := 0, args := argAt 24 8 17344 }
    (some r.1, r.2)

/-- FW_UPDATE_STAGE ends. -/
def State.finishStage (s : State) (c : AsyncCmd) : Rep × State :=
  let k := s.idleSlot
  if imgSize c.data ≠ c.data.length ∧ imgFormed c.data then ({ status := Status.badArg, args := argAt 0 1 1 }, s)
  else
    let (r, s1) := s.stageImage
    if r = 0 then ({ status := 0, args := argAt 0 1 (b2n k) }, s1)
    else ({ status := if r ≤ 2 then Status.badArg else Status.signatureInvalid, args := argAt 0 1 r }, s1)

/-! ## Commands -/

/-- CHUNK_REQUEST (R437). -/
def execChunkRequest (errs : List HbmErr) (s : State) : Host.Outcome State Fault Refusal := .next (s.onChunkRequest errs)
/-- CHUNK_DECLINE (R436). -/
def execChunkDecline (s : State) : Host.Outcome State Fault Refusal := .next s.onDecline
/-- CHUNK_HASH_COMPLETE (R435). -/
def execChunkHashComplete (f chunk : Nat) (host : List Byte) (s : State) : Host.Outcome State Fault Refusal :=
  .next (s.chunkHashed f chunk host)
/-- SEC_ADVANCE_WRITE (R427). -/
def execSecAdvanceWrite (s : State) : Host.Outcome State Fault Refusal := .next s.advance
/-- TRUST_ENROLL (R421). -/
def execTrustEnroll (ch : Fin 64) (host : List Byte) (s : State) : Host.Outcome State Fault Refusal :=
  .next (s.serve ch.val layTrustEnroll host fun _ z =>
    ({ status := if z.busyOp 0x0501 (fun _ => true) then Status.busyDeferred else Status.accepted }, z))
/-- WEIGHT_MANIFEST_LOAD (R433). -/
def execWeightManifestLoad (ch : Fin 64) (host : List Byte) (s : State) : Host.Outcome State Fault Refusal :=
  .next (s.serve ch.val layManifest host fun _ z =>
    ({ status := if z.busyOp 0x0502 (fun _ => true) then Status.busyDeferred else Status.accepted }, z))
/-- SHARD_FETCH (R434): `leaves` holds the leaf list each source delivered, empty where it delivered none. -/
def execShardFetch (ch : Fin 64) (leaves : List (List Byte)) (s : State) : Host.Outcome State Fault Refusal :=
  .next (s.serve ch.val layFetch [] fun c z => z.startFetch c leaves)
/-- SHARD_SERVE (R437). -/
def execShardServe (ch : Fin 64) (s : State) : Host.Outcome State Fault Refusal :=
  .next (s.serve ch.val layServe [] fun c z => z.shardServe c)
/-- SHARD_STATUS. -/
def execShardStatus (ch : Fin 64) (s : State) : Host.Outcome State Fault Refusal :=
  .next (s.serve ch.val layShardStatus [] fun c z => z.shardStatus c)
/-- ATTEST (R429). -/
def execAttest (ch : Fin 64) (s : State) : Host.Outcome State Fault Refusal :=
  .next (s.serve ch.val layAttest [] fun c z => z.attestCmd c)
/-- PROBE (R349): a chunk whose transfer it ends goes to another source. -/
def execSvcProbe (port : Port) (s : State) : Host.Outcome State Fault Refusal :=
  .next (s.takeCtl port.val 0x92 fun z f => z.onProbe f).fetchesFenced
/-- FW_UPDATE_STAGE (R425). -/
def execFwUpdateStage (ch : Fin 64) (host : List Byte) (s : State) : Host.Outcome State Fault Refusal :=
  .next (s.serve ch.val layStage host fun c z =>
    if z.busyOp 0x0B02 (fun _ => true) then ({ status := Status.busyDeferred }, z)
    else ({ status := Status.accepted }, z.beginStage c.data))
/-- FW_UPDATE_COMMIT (R426). -/
def execFwUpdateCommit (ch : Fin 64) (s : State) : Host.Outcome State Fault Refusal :=
  .next (s.serve ch.val layCommit [] fun c z => z.fwCommit c)

end Sys2Proof.Machine
end

