-- ==== Sys2Proof/Machine/Repair.lean ====
section
/-!
DEFINITION. Ledgers and their checks, the fault queue and its log, SRAM rows, capo-map changes and the retirement of tiles and
districts (20).
-/
namespace Sys2Proof.Machine

/-! ## Ledgers (R514 to R516) -/

/-- One instance of a ledger: ledger, instance, expected value, counted value. -/
structure LedgerItem where
  ledger : Nat
  inst : Nat
  expected : Nat
  counted : Nat
  deriving DecidableEq, Repr

/-- Bound, spare and retired slots of a capo map. -/
def Capo.slotCount (c : Capo) : Nat :=
  (below 17 c.slots.contains).length + (below 17 (bit c.retired)).length +
  (below 17 fun x => !c.slots.contains x && !bit c.retired x).length

/-- Whether no two indices share a slot. -/
def Capo.distinct (c : Capo) : Bool := pairwise (fun x y => x ≠ y || x == 0x1F) c.slots

/-- Tags OUTSTANDING over the tiles of a district. -/
def State.tagsOut (s : State) (d : Nat) : Nat :=
  sumOf ((s.tiles.filter fun e => districtOf e.1 == d).map fun e => (e.2.tags.filter fun t => t.2.st == .outstanding).length)

/-- Items outstanding of a ledger (LDG_CHECK_n.OUTSTANDING). -/
def State.ledgerOut (s : State) (n : Nat) : Nat :=
  match n with
  | 0 => sumOf (s.svc.ctx.map fun e => e.2.outstanding + e.2.held)
  | 1 => (below 4096 fun i => s.fget (R.svcCcntN i) F.svcCcntN_STATE ≠ 0 || s.fget (R.svcCcntN i) F.svcCcntN_COUNT ≠ 0).length
  | 2 => (s.stw.chans.filter fun e => e.2.st ≠ 0).length
  | 3 => sumOf ((List.range 8).map s.occupancy)
  | 4 => sumOf ((List.range 32).map fun d => (s.mqe d).ops.length)
  | 5 => s.fget R.enrTokens F.enrTokens_ADMITTED
  | 6 => sumOf ((List.range 32).map fun d => (below 17 (s.capo d).slots.contains).length)
  | 7 => (s.reqs.filter fun e => e.2.st != .free).length
  | _ => 0

/-- CONSUMED of the request queue, as the program wrote it (R479). -/
def State.reqConsumed (s : State) : Nat :=
  match s.reqBase with
  | some b => leNat (s.hbmBytes (b + 16) 8)
  | none => 0

/-- Request contexts whose ledger is wrong (R514): one beyond the 16,384 there are, or a QUEUED one that has not exactly one ring entry
posted and not consumed. -/
def State.reqBroken (s : State) : List LedgerItem :=
  let queued := s.reqs.filter fun e => e.2.st == .queued
  let used := s.reqConsumed
  let more := (s.reqs.filter fun e => 16384 ≤ e.1).length
  (if more ≠ 0 then [{ ledger := 7, inst := 0, expected := 16384, counted := 16384 + more }] else []) ++
  queued.filterMap fun e =>
    let posted := e.2.ring < s.prog.posted && used ≤ e.2.ring && s.prog.posted ≤ e.2.ring + 16384
    let n := if posted then (queued.filter fun x => x.2.ring == e.2.ring).length else 0
    if n ≠ 1 then some { ledger := 7, inst := e.1, expected := 1, counted := n } else none

/-- Instances of a ledger whose invariant is broken (R514). -/
def State.ledgerBroken (s : State) (n : Nat) : List LedgerItem :=
  match n with
  | 0 => s.svc.ctx.filterMap fun e =>
      e.2.broken.map fun b => { ledger := 0, inst := e.1, expected := b.1, counted := b.2 }
  | 1 => (List.range 4096).filterMap fun i =>
      (s.ccntBroken i).map fun b => { ledger := 1, inst := i, expected := b.1, counted := b.2 }
  | 2 => s.stw.chans.filterMap fun e =>
      e.2.broken.map fun b => { ledger := 2, inst := e.1, expected := b.1, counted := b.2 }
  | 3 => (List.range 8).filterMap fun p =>
      if 8192 < s.occupancy p then some { ledger := 3, inst := p, expected := 8192, counted := s.occupancy p }
      else if 6144 < s.svcOccupancy p then some { ledger := 3, inst := p, expected := 6144, counted := s.svcOccupancy p }
      else none
  | 4 => (List.range 32).filterMap fun d =>
      let k := (s.mqe d).ops.length
      let ovf := (List.range 64).find? fun q =>
        let depth := s.fget (R.mqeQcfgN d q) F.mqeQcfgN_DEPTH
        depth ≠ 0 && depth < ((s.mqe d).ops.filter (·.queue == q)).length
      if k ≠ s.tagsOut d then some { ledger := 4, inst := d, expected := s.tagsOut d, counted := k }
      else if 2048 < k then some { ledger := 4, inst := d, expected := 2048, counted := k }
      else ovf.map fun q => { ledger := 4, inst := d, expected := s.fget (R.mqeQcfgN d q) F.mqeQcfgN_DEPTH, counted := k }
  | 5 =>
      let b := s.fget R.enrTokens F.enrTokens_BUDGET
      let a := s.fget R.enrTokens F.enrTokens_ADMITTED
      if b < a then [{ ledger := 5, inst := 0, expected := b, counted := a }] else []
  | 6 => (List.range 32).filterMap fun d =>
      let c := s.capo d
      if c.slotCount ≠ 17 || !c.distinct then some { ledger := 6, inst := d, expected := 17, counted := c.slotCount } else none
  | 7 => s.reqBroken
  | _ => []

/-- Check one ledger. -/
def State.ledgerCheck (s : State) (n : Nat) : State :=
  if s.ledgersOn then (s.ledgerBroken n).foldl (fun z x => z.ledgerFail x.ledger x.inst x.expected x.counted) s else s

/-- The checkpoint of a meridian (R515): every invariant, and the items outstanding. -/
def State.checkpoint (s : State) : State :=
  if !s.ledgersOn then s else
  let s1 := (List.range 8).foldl (fun z n => z.fset (R.ldgCheckN n) F.ldgCheckN_OUTSTANDING (s.ledgerOut n)) s
  (List.range 8).foldl (fun z n => z.ledgerCheck n) s1

/-- One entry of a LEDGER_AUDIT notice (R516). -/
def State.auditEntry (s : State) (n : Nat) : List Byte :=
  let bad := s.ledgerBroken n
  let exp := match bad with | x :: _ => x.expected | [] => s.ledgerOut n
  let cnt := match bad with | x :: _ => x.counted | [] => s.ledgerOut n
  leBytes 2 n ++ leBytes 1 (b2n (!bad.isEmpty)) ++ leBytes 5 0 ++ leBytes 8 exp ++ leBytes 8 cnt

/-! ## Reconciliation (R517) -/

/-- The count of items a reset returns is written, and what is left must be none. -/
def State.returned (s : State) (n count left : Nat) : State :=
  let s1 := s.fset (R.ldgCheckN n) F.ldgCheckN_RETURNED (satN 16 count)
  if left = 0 then s1 else s1.raise 0x0C03 5 {} 0

/-! ## The fault queue and the log (R519, R521) -/

/-- The 64 bytes of a record. -/
def FaultRec.bytes (r : FaultRec) : List Byte :=
  leBytes 2 r.code ++ leBytes 1 r.cls ++ leBytes 1 (1 + 2 * b2n r.loss) ++ leBytes 1 r.district ++ leBytes 1 r.slot ++
  leBytes 2 r.ptile ++ leBytes 2 r.ltile ++ leBytes 2 (r.bundle % 2 ^ 13) ++ leBytes 2 (r.ngt % 2 ^ 16) ++ leBytes 2 0 ++
  leBytes 8 (r.ngt / 2 ^ 16) ++ leBytes 8 r.transit ++ leBytes 8 r.index ++ leBytes 24 r.detail

/-- Records the log holds. -/
def logSize : Nat := 262144

/-- Append a record to the MRAM log with its index. -/
def State.logRecord (s : State) (r : FaultRec) : State :=
  let l := s.ras.log ++ [{ r with index := s.ras.nextIndex }]
  { s with ras := { s.ras with log := l.drop (l.length - logSize), nextIndex := s.ras.nextIndex + 1 } }

/-- The head record goes to the log. -/
def State.drainHead (s : State) : State :=
  match s.ras.queue with
  | [] => s
  | r :: rest =>
    if s.fget R.devStatus F.devStatus_STATE < 2 then s
    else (({ s with ras := { s.ras with queue := rest } }).logRecord r).event F.devEvent_FAULT_LOGGED

/-- The queue is emptied into the log (R532). -/
def State.drainAll (s : State) : State := s.ras.queue.foldl (fun z r => z.logRecord r) { s with ras := { s.ras with queue := [] } }

/-- Index of the oldest record held. -/
def State.oldestIndex (s : State) : Nat := s.ras.nextIndex - s.ras.log.length

/-! ## Capo maps (R526 to R529) -/

/-- Whether a program is loaded that names a district's tiles: armed or running. -/
def State.armedOrRunning (s : State) : Bool := s.armed

/-- RESTART holes of the program: phase, first and last logical tile. -/
def State.holes (s : State) : List (Nat × Nat × Nat) :=
  match findSect s.prog.secs 0xE 0 0 with
  | none => []
  | some x => (x.entries 16).filterMap fun e => if leAt e 0 1 = 2 then some (leAt e 2 2, leAt e 4 2, leAt e 6 2) else none

/-- RETUNE_HALT phases of the program (R296). -/
def State.haltPhases (s : State) : List Nat :=
  match findSect s.prog.secs 0xE 0 0 with
  | none => []
  | some x => (x.entries 16).filterMap fun e => if leAt e 0 1 = 1 then some (leAt e 2 2) else none

/-- Whether the meridian of transit `t` is a RESTART hole covering a logical tile. -/
def State.holeAt (s : State) (t l : Nat) : Bool :=
  s.prog.startAt ≤ t && s.holes.any fun h => h.1 == s.phaseOf t && h.2.1 ≤ l && l ≤ h.2.2

/-- Where a slot stands: bound to an index, the spare, or retired. -/
inductive SlotUse where
  | bound (i : Nat) | spare | retired
  deriving DecidableEq, Repr

/-- Use of a slot. -/
def Capo.use (c : Capo) (slot : Nat) : SlotUse :=
  if bit c.retired slot then .retired
  else match c.indexOf slot with
    | some i => .bound i
    | none => .spare

/-- What R526 answers for the retirement of slot `slot` of district `d` at transit `at'` (0 the earliest): a refusal, or the change
transit, none for at once. -/
def State.retireWhen (s : State) (d slot at' : Nat) : Except Nat (Option Nat) :=
  let c := s.capo d
  let next : Except Nat (Option Nat) :=
    if !s.valid then (if at' = 0 then .ok none else .error Status.badArg)
    else if at' = 0 then .ok (some (s.transit + 1))
    else if at' = s.transit + 1 then .ok (some at') else .error Status.badArg
  match c.use slot with
  | .retired => .error Status.notPermitted
  | .spare =>
    if s.valid ∧ at' > s.transit + 1 then .ok (some at') else next
  | .bound i =>
    if !s.armedOrRunning then next
    else if c.spare.isNone then .error Status.notPermitted
    else
      let l := d * 16 + i
      let from_ := s.transit + 4
      if at' ≠ 0 then
        if s.valid && from_ ≤ at' && s.holeAt at' l then .ok (some at') else .error Status.badArg
      else
        match (if s.valid then (List.range s.prog.hdr.cycle).find? fun k => s.holeAt (max from_ s.prog.startAt + k) l else none) with
        | some k => .ok (some (max from_ s.prog.startAt + k))
        | none => .error Status.notPermitted

/-- A tile as it stands after a reset, its memories kept (R67). -/
def Tile.afterReset (t : Tile) (st : TileStatus) : Tile :=
  { store := t.store, storePoison := t.storePoison, imem := t.imem, imemPoison := t.imemPoison, tables := t.tables,
    issue := { status := st, wiped := st == .stopped } }

/-- Registers of a tile that a reset returns to their reset values. -/
def State.resetTileRegs (s : State) (p : Nat) : State :=
  s.resetRegs fun o => 0x2000000 + p * 0x8000 ≤ o && o < 0x2000000 + (p + 1) * 0x8000

/-- Reset one tile into a state (R67): its queue operations are cancelled and returned. -/
def State.resetTile (s : State) (p : Nat) (st : TileStatus) : State :=
  let s1 := (s.cancelOps (districtOf p) (·.tile == p)).resetTileRegs p
  s1.setTile p ((s1.tile p).afterReset st)

/-- A slot is power-gated: its operations are cancelled and its contents lost. TIL_CTL keeps its fields until the tile leaves the gated
state, which resets it (R66). -/
def State.gateTile (s : State) (p : Nat) : State :=
  let s1 := s.cancelOps (districtOf p) (·.tile == p)
  (s1.setTile p ((s1.tile p).afterReset .powerGated)).fset (R.tilCtl p) F.tilCtl_POWER_GATE 1

/-- The steps of a capo-map change (R527, R529): the slot that now carries its index, or 0xFFFF. -/
def State.capoMoved (s : State) (d slot : Nat) : Nat × State :=
  let c := s.capo d
  let p := d * 17 + slot
  let gone := c.retired ||| 2 ^ slot
  let pl : Place := { district := d, ptile := p, ltile := s.ltileOf p }
  match c.use slot with
  | .retired => (0xFFFF, s)
  | .spare => (0xFFFF, ((s.setCapo d { c with retired := gone }).gateTile p).record 0x0C0A 1 pl 0)
  | .bound i =>
    match c.spare with
    | none => (0xFFFF, (s.setCapo d { slots := lset c.slots i 0x1F, retired := gone }).gateTile p)
    | some x =>
      let s1 := s.setCapo d { slots := lset c.slots i x, retired := gone }
      let s2 := if s1.armedOrRunning then s1.armTile s1.prog.secs (d * 16 + i) else s1
      let old := s2.tile p
      let s3 := s2.setTile (d * 17 + x)
        (armOutbox { s2.tile (d * 17 + x) with tables := old.tables } s2.version (s2.phaseOf s2.transit) (max s2.prog.hdr.cycle 1))
      (x, (((s3.gateTile p).record 0x0C09 1 pl 0).record 0x0C0A 1 pl 0))

/-- The ledger unit checks a district's map as it changes (R515). -/
def State.capoCheck (s : State) (d : Nat) : State :=
  if s.ledgersOn then ((s.ledgerBroken 6).filter (·.inst == d)).foldl (fun z x => z.ledgerFail 6 d x.expected x.counted) s else s

/-- A capo-map change takes effect and is checked. -/
def State.capoChange (s : State) (d slot : Nat) : Nat × State :=
  let r := s.capoMoved d slot
  (r.1, r.2.capoCheck d)

/-- End the TILE_RETIRE of a slot, if a command asked for it. -/
def State.settleRetire (s : State) (d slot now : Nat) : State :=
  { s with stw := { s.stw with cmds := s.stw.cmds.map fun c =>
      if c.opcode = 0x0902 ∧ leAt c.args 0 2 = d * 17 + slot ∧ c.result.isNone then { c with result := some 0, progress := now } else c } }

/-- A write of RAS_CAPO_d_PEND: none while a change is pending (R527). -/
def State.capoPend (s : State) (d v : Nat) : State :=
  let o := R.rasCapoDPend d
  if s.fget o F.rasCapoDPend_VALID = 1 then s
  else
    let slot := field v 0 5
    let s1 := if slot ≤ 16 then s.fset o F.rasCapoDPend_SLOT slot else s
    (s1.fset o F.rasCapoDPend_VALID (field v 15 1)).fset o F.rasCapoDPend_AT_TRANSIT (field v 16 48)

/-- The pending change of a district takes effect. -/
def State.capoApply (s : State) (d : Nat) : State :=
  let o := R.rasCapoDPend d
  let slot := s.fget o F.rasCapoDPend_SLOT
  let (now, s1) := s.capoChange d slot
  (s1.fset o F.rasCapoDPend_VALID 0).settleRetire d slot now

/-- Pending changes due at a meridian. -/
def State.capoChanges (s : State) (t : Nat) : State :=
  (List.range 32).foldl (fun z d =>
    if z.fget (R.rasCapoDPend d) F.rasCapoDPend_VALID = 1 ∧ z.fget (R.rasCapoDPend d) F.rasCapoDPend_AT_TRANSIT ≤ t then
      z.capoApply d else z) s

/-- Firmware retires a slot (R526): status, and the state with the change pending or made. -/
def State.retire (s : State) (p at' : Nat) : Nat × State :=
  let d := districtOf p
  if s.fget (R.rasCapoDPend d) F.rasCapoDPend_VALID = 1 then (Status.busyDeferred, s)
  else match s.retireWhen d (p % 17) at' with
    | .error e => (e, s)
    | .ok (some t) => (Status.accepted, s.capoPend d (p % 17 + 2 ^ 15 + t % 2 ^ 48 * 2 ^ 16))
    | .ok none => (Status.accepted, (s.capoPend d (p % 17 + 2 ^ 15)))

/-- A change that needs no meridian is made at once. -/
def State.retireNow (s : State) (p : Nat) : State :=
  if s.valid ∨ s.fget (R.rasCapoDPend (districtOf p)) F.rasCapoDPend_VALID = 0 then s else s.capoApply (districtOf p)

/-- A district is retired whole (R529). -/
def State.retireDistrict (s : State) (d : Nat) : State :=
  let s1 := (s.setCapo d { slots := List.replicate 16 0x1F, retired := 2 ^ 17 - 1 }).setClk d { s.clk d with retire := false }
  (((List.range 17).foldl (fun z k => z.gateTile (d * 17 + k)) s1).setClkState d clkGated).record 0x0C0B 1 { district := d } 0

/-- Count of failed district resets: the second in succession retires the district (R529), at the next meridian while there are
any (R14). -/
def State.retireIfFailing (s : State) (d : Nat) : State :=
  if 2 ≤ (s.clk d).failedResets && !((s.capo d).retired == 2 ^ 17 - 1) then
    (if s.valid then s.setClk d { s.clk d with retire := true } else s.retireDistrict d)
  else s

/-- Retirements that waited for a meridian. -/
def State.retireDistricts (s : State) : State :=
  (List.range 32).foldl (fun z d => if (z.clk d).retire then z.retireDistrict d else z) s

/-! ## SRAM rows (R524, R525, R528) -/

/-- Firmware retires a slot by itself under R528. -/
def State.autoRetire (s : State) (p : Nat) : State :=
  if s.fget R.rasCtl F.rasCtl_AUTO_RETIRE = 1 then ((s.retire p 0).2).retireNow p else s

/-- Firmware retires the slots whose errors ask for it. -/
def State.retireDue (s : State) : State :=
  s.ras.due.foldl (fun z p => z.autoRetire p) { s with ras := { s.ras with due := [] } }

/-- Firmware moves the head record to the log, and acts on the SRAM errors it learns of (R528). -/
def State.drainFault (s : State) : State := s.drainHead.retireDue

/-- One step of the SRAM scrub: `e` is the error it finds; words errors have struck stay latent until read (log 19). -/
def State.sramScrub (s0 : State) (e : Option SramErr) (x : ScrubStep) : State :=
  let s : State := { s0 with ras := { s0.ras with latent := s0.ras.latent ++ x.struck } }
  if s.fget R.rasScrubCtl F.rasScrubCtl_PERIOD_S = 0 then s
  else
    let s1 := match e with | some w => (s.sramFound w).retireDue | none => s
    if x.last then s1.fset R.rasScrubCtl F.rasScrubCtl_PASSES (s1.fget R.rasScrubCtl F.rasScrubCtl_PASSES + 1) else s1

/-- Firmware substitutes the row of an error (R525). -/
def State.substituteRow (s : State) (e : SramErr) : State :=
  let r := s.sramRow e
  let due := r.ue || s.fget R.rasCtl F.rasCtl_CE_ROW_THRESH ≤ r.ces.length
  if !due || s.sparesUsed e ≥ 2 then s
  else
    let s1 := (s.setRow e { r with moved := r.moved + 1, ue := false, ces := [] }).record 0x0C07 1 (s.sramPlace e) (sramDetail e)
    if s1.sparesUsed e = 2 then s1.record 0x0C08 1 (s.sramPlace e) (sramDetail e) else s1

/-! ## Commands -/

/-- FAULT_RECORD_DRAIN (R521). -/
def execFaultRecordDrain (s : State) : Host.Outcome State Fault Refusal := .next s.drainFault
/-- RAS_LOG_POP (R521). -/
def execRasLogPop (s : State) : Host.Outcome State Fault Refusal := .next { s with ras := { s.ras with queue := s.ras.queue.tail } }
/-- RAS_CAPO_PEND_WRITE (R527). -/
def execRasCapoPendWrite (d : District) (v : Word) (s : State) : Host.Outcome State Fault Refusal := .next (s.capoPend d.val v.toNat)
/-- SRAM_SCRUB_STEP (R525). -/
def execSramScrubStep (e : Option SramErr) (x : ScrubStep) (s : State) : Host.Outcome State Fault Refusal := .next (s.sramScrub e x)
/-- SRAM_ROW_SUBSTITUTE (R525). -/
def execSramRowSubstitute (e : SramErr) (s : State) : Host.Outcome State Fault Refusal := .next (s.substituteRow e)

end Sys2Proof.Machine
end

