-- ==== Sys2Proof/Machine/Power.lean ====
section
/-!
DEFINITION. Energy meters and intervals, the planner and the budget, temperatures, rails and the power failure (19).
-/
namespace Sys2Proof.Machine

/-! ## Intervals (R486 to R488) -/

/-- Energy of meter `m` in an interval: PACKAGE is the sum of the others. -/
def ujOf (x : Meas) (m : Nat) : Nat := if m = 11 then sumOf (x.uj.take 11) else x.uj.getD m 0

/-- Close an interval of `len` ns with a number and a KIND. -/
def State.closeInterval (s : State) (x : Meas) (index kind len : Nat) : State :=
  let s1 := (List.range 12).foldl (fun z m =>
    let z1 := z.setReg (R.enrRailMTotal m) (z.reg (R.enrRailMTotal m) + BitVec.ofNat 64 (ujOf x m))
    (z1.fset (R.enrRailMLast m) F.enrRailMLast_UJ (satN 32 (ujOf x m))).fset (R.enrRailMLast m) F.enrRailMLast_MAX_MW
      (satN 32 (x.mw.getD m 0))) s
  let s2 := (s1.fset R.enrInterval F.enrInterval_INDEX index).fset R.enrInterval F.enrInterval_KIND kind
  let i : Interval := { transit := index, package := ujOf x 11, vcore := ujOf x 0 + ujOf x 1, hbm := ujOf x 3 + ujOf x 4 + ujOf x 5,
                        vser := ujOf x 6 + ujOf x 7, other := ujOf x 2 + ujOf x 8 + ujOf x 9 + ujOf x 10 }
  let h := s2.enr.history ++ [i]
  { s2 with enr := { s2.enr with history := h.drop (h.length - 4096), i2cPower := ujOf x 11 * 10 ^ 6 / len } }

/-- The traffic registers of a port take the figures of `frets` frets, `reserved` of them scheduled or set aside for copies. -/
def State.closeTraffic (s : State) (p frets reserved : Nat) : State :=
  let o := R.svcPortNTraffic p
  let g := tget {} s.svc.fig p
  let s1 := (s.fset o F.svcPortNTraffic_OPEN_FRETS (satN 16 (frets - reserved))).fset o F.svcPortNTraffic_USED_FRETS (satN 16 g.used)
  let s2 := s1.fset o F.svcPortNTraffic_TX_FLITS (satN 32 g.txFlits)
  { s2 with svc := { s2.svc with fig := tset {} s2.svc.fig p { g with used := 0, txFlits := 0 } } }

/-- A free-running interval closes at the next multiple of 8,192 ns (R487). -/
def State.closeFree (s : State) (x : Meas) : State :=
  if s.valid ∨ s.enr.failed then s
  else
    let k := s.ns / 8192
    let s1 := (s.reach (((k + 1) * 8192) <<< 48)).closeInterval x k 1 8192
    (List.range 8).foldl (fun z p => z.closeTraffic p 2048 0) s1

/-! ## Records (R511) -/

/-- Detail of an energy or power record. -/
def enrDetail (rail setting : Nat) (temp : Int) (uj decl : Nat) : Nat :=
  rail + setting * 2 ^ 8 + ofSigned 8 temp * 2 ^ 16 + uj % 2 ^ 32 * 2 ^ 32 + decl % 2 ^ 32 * 2 ^ 64

/-- Hottest junction as PWR_THERM holds it. -/
def State.tj (s : State) : Int := signedOf 8 (s.fget R.pwrTherm F.pwrTherm_TJ_MAX_C)

/-- Record an energy or power fault. -/
def State.enrRecord (s : State) (code cls district rail uj decl : Nat) : State :=
  s.raise code cls { district := district } (enrDetail rail s.setting s.tj uj decl)

/-! ## The planner (R489 to R496) -/

/-- CLK_MIN_SETTING. -/
def State.minSetting (s : State) : Nat := s.fget R.clkMinSetting F.clkMinSetting_MIN
/-- The thermal cap. -/
def State.thermCap (s : State) : Nat := s.fget R.pwrTherm F.pwrTherm_CAP

/-- Whether a setting satisfies R495 for a budget in mW; without a program armed or running W(S) is 0. -/
def State.settingFits (s : State) (mw v : Nat) : Bool :=
  s.minSetting ≤ v && v ≤ 42 && v ≤ s.thermCap && (!s.armed || s.worstAt v ≤ perTransit mw s.progPeriod)

/-- S* for a budget, none if no setting satisfies R495. -/
def State.sStar (s : State) (mw : Nat) : Option Nat := ((List.range 23).map fun i => 42 - i).find? (s.settingFits mw)

/-- The setting firmware moves to: S*, or with AUTO = 0 the setting in force or pending while it satisfies R495. -/
def State.target (s : State) (mw : Nat) : Option Nat :=
  if s.fget R.enrCtl F.enrCtl_AUTO = 0 ∧ s.settingFits mw s.settingNext then some s.settingNext else s.sStar mw

/-- Firmware moves to its target after a change. -/
def State.replan (s : State) : State :=
  match s.target (s.fget R.enrBudget F.enrBudget_IN_FORCE_MW) with
  | some v => s.planTo v
  | none => s

/-- The tokens follow and their ledger is checked (R493). -/
def State.tokensChanged (s : State) : State := s.setTokens.ledgerCheck 5

/-- A budget takes effect. -/
def State.putBudget (s : State) (mw : Nat) : State :=
  ((s.fset R.enrBudget F.enrBudget_IN_FORCE_MW mw).fset R.enrBudget F.enrBudget_PENDING 0).tokensChanged

/-- ENERGY_BUDGET_SET (R490, R491, R493): status, transit of the reply. -/
def State.budgetSet (s : State) (mw at' : Nat) : Nat × Nat × State :=
  let t := if at' = 0 then s.transit + 4 else at'
  if mw < 300000 ∨ 2200000 < mw ∨ (at' ≠ 0 ∧ at' < s.transit + 4) then (Status.badArg, 0, s)
  else if !s.armed then (0, 0, (s.putBudget mw).replan)
  else
    match s.target mw with
    | none => (Status.energyDenied, 0, s)
    | some v =>
      let moves := v ≠ s.settingNext
      if !s.running && (!s.valid || !moves) then
        (0, 0, if moves then (s.putBudget mw).planTo v else s.putBudget mw)
      else if moves && !s.retuneOk v t then (Status.notPermitted, 0, s)
      else
        let s1 := ((s.fset R.enrBudget F.enrBudget_PENDING 1).fset R.enrBudget F.enrBudget_PENDING_MW mw).fset R.enrBudgetAt
          F.enrBudgetAt_AT_TRANSIT t
        (0, t, if moves then s1.retuneRequest v t else s1)

/-- The cap comes down by two settings below the one in force, recorded (R496, R498). -/
def State.lowerCap (s : State) (district : Nat) : State :=
  let c := max s.minSetting (s.setting - 2)
  (((s.fset R.pwrTherm F.pwrTherm_CAP c).fset R.pwrTherm F.pwrTherm_THROTTLED (b2n (decide (c < 42)))).enrRecord 0x0B02 1 district 0xFF 0 0).event
    F.devEvent_THERMAL |>.replan

/-- After an interval of the running program: its measured energy, E_WORST(S) of its phase, and B_T (R496). -/
def State.afterInterval (s : State) (pkg decl bt : Nat) : State :=
  let s1 := if decl < pkg then (s.enrRecord 0x0B01 1 0 11 pkg decl).fbump R.enrOver F.enrOver_OVER_DECLARED 1 else s
  let run := if bt < pkg then satN 8 (s1.fget R.enrOver F.enrOver_OVER_BUDGET_RUN + 1) else 0
  let s2 := s1.fset R.enrOver F.enrOver_OVER_BUDGET_RUN run
  let n := s2.fget R.enrCtl F.enrCtl_OVER_TRANSITS
  if run ≠ 0 ∧ run % (if n = 0 then 1 else n) = 0 then
    { (s2.lowerCap 0) with enr := { (s2.lowerCap 0).enr with capHold := true } }
  else s2

/-! ## Temperatures (R497 to R500) -/

/-- Greatest of a list of temperatures. -/
def hottest (xs : List Int) : Int := xs.foldl (fun a b => if a < b then b else a) (-128)

/-- District of the hottest district sensor. -/
def hotDistrict (t : Temps) : Nat := (t.districts.findIdx? (· == hottest t.districts)).getD 0

/-- The junction sensors: districts, ports, steward. -/
def junctions (t : Temps) : List Int := t.districts ++ t.ports ++ [t.steward]

/-- THERMTRIP (R500). -/
def State.thermTrip (s : State) (district : Nat) : State :=
  if s.pins.thermtrip then s
  else
    let s1 : State := { s with pins := { s.pins with thermtrip := true } }
    (s1.fset R.pwrRailStatus F.pwrRailStatus_THERMTRIP 1).enrRecord 0x0B04 5 district 0xFF 0 0

/-- LIMIT_C reached at the floor (R499). -/
def State.thermLimit (s : State) (district : Nat) : State :=
  if s.armed then (if s.prog.st == .stopping then s else s.enrRecord 0x0B03 4 district 0xFF 0 0)
  else if s.setting = 20 then s
  else (s.minSettingWrite 20).planTo 20

/-- A stack shows its hottest die; refresh is doubled above 85 °C (R187). -/
def State.stackTemps (s : State) (t : Temps) : State :=
  (List.range 8).foldl (fun z h =>
    let c := t.hbmStacks.getD h 0
    (z.fset (R.hbmStatus h) F.hbmStatus_TEMP_C (ofSigned 8 (clampI (-128) 127 c))).fset (R.hbmStatus h) F.hbmStatus_REFRESH_2X
      (b2n (decide (85 < c)))) s

/-- All sensors are sampled (R497). -/
def State.sample (s : State) (t : Temps) : State :=
  if s.enr.failed then s else
  let top := hottest (junctions t)
  let d := hotDistrict t
  let o := R.pwrTherm
  let s1 := (((s.stackTemps t).fset o F.pwrTherm_TJ_MAX_C (ofSigned 8 (clampI (-128) 127 top))).fset o F.pwrTherm_HBM_MAX_C
    (ofSigned 8 (clampI (-128) 127 (hottest t.hbmStacks)))).fset o F.pwrTherm_DISTRICT (if hottest t.districts = top then d else 0xFF)
  let ctl (f : RField) : Int := (s1.fget R.pwrThermCtl f : Int)
  let hot := decide (ctl F.pwrThermCtl_THROTTLE_C ≤ top) || (s1.enr.hot && !s1.enr.throttled)
  let cool := decide (top ≤ ctl F.pwrThermCtl_RELEASE_C)
  let s2 := { s1 with enr := { s1.enr with hot := hot, throttled := hot && s1.enr.throttled,
                                           coolSince := if cool then (match s1.enr.coolSince with
                                             | some x => some x
                                             | none => some s1.ngt.now) else none } }
  let s3 := if decide (ctl F.pwrThermCtl_LIMIT_C ≤ top) && s2.setting ≤ s2.minSetting then s2.thermLimit d else s2
  if 115 ≤ top then s3.thermTrip d else s3

/-- The thermal part of a meridian (R498): `retuned` says whether a retune took effect. -/
def State.throttle (s : State) (retuned : Bool) : State :=
  if s.enr.hot && (!s.enr.throttled || retuned) then
    let z := s.lowerCap (let d := s.fget R.pwrTherm F.pwrTherm_DISTRICT; if d = 0xFF then 0 else d)
    { z with enr := { z.enr with throttled := true } }
  else s

/-- The cap rises by one a second after 1 s at or below RELEASE_C (R498). -/
def State.releaseStep (s : State) : State :=
  match s.enr.coolSince with
  | none => s
  | some t =>
    let due := t + (10 ^ 9) <<< 48
    let s1 := s.reach due
    if s1.ngt.now < due ∨ s1.enr.capHold ∨ 42 ≤ s1.thermCap then s1
    else
      let c := s1.thermCap + 1
      let s2 := (s1.fset R.pwrTherm F.pwrTherm_CAP c).fset R.pwrTherm F.pwrTherm_THROTTLED (b2n (decide (c < 42)))
      ({ s2 with enr := { s2.enr with coolSince := some due } }).replan

/-! ## Power failure (R503 to R508) -/

/-- The save is begun (R506, R507): not before READY was reached, and never over a complete save. -/
def State.beginSave (s : State) (x : Meas) (vkeep : Nat) : State :=
  if !s.enr.readySeen || s.enr.save.st == 2 then s
  else
    let sv : Save :=
      { st := 1, epoch := (s.reg R.ldgEpoch).toNat, ns := s.ns, transit := s.transit,
        items := (List.range 8).map s.ledgerOut, ngt := s.ngt.now, epochId := s.reg R.ngtEpochId, rate := BitVec.ofNat 64 s.rateWord,
        ngtStatus := s.reg R.ngtStatus, totals := (List.range 12).map fun m => (s.reg (R.enrRailMTotal m)).toNat,
        openUj := (List.range 12).map (ujOf x), log := s.ras.queue, chans := s.stw.chans,
        doorbells := (List.range 64).map fun n => (n, (s.reg (R.dblStatusN n)).toNat), reqs := s.reqs, vkeepStart := vkeep }
    { s with enr := { s.enr with save := sv } }

/-- PWRFAIL_N is recognised (R505): the faults are recorded, gates leave, the transit is abandoned and failed, the loads are
released, the meters close the open interval (R487), and the save begins. HBM contents are lost. -/
def State.powerFail (s : State) (x : Meas) (vkeep : Nat) : State :=
  if s.enr.failed then s
  else
    let s0 := { s with enr := { s.enr with failed := true }, pins := { s.pins with pwrfail := true } }
    let s1 := (s0.fset R.pwrRailStatus F.pwrRailStatus_PWRFAIL 1).fset R.pwrVkeep F.pwrVkeep_NOW_MV vkeep
    let s2 := s1.fset R.pwrVkeep F.pwrVkeep_MIN_MV (min vkeep (s1.fget R.pwrVkeep F.pwrVkeep_MIN_MV))
    let s3 := (s2.enrRecord 0x0B05 5 0 0xFF 0 0).markFailed s.transit 0x0B05 false
    let s4 := (List.range 8).foldl (fun z h => z.fset (R.hbmStatus h) F.hbmStatus_STATE 0) s3
    let s5 := if s.valid then s4.closeInterval x s.transit 0 (s.ns % s.period) else s4.closeInterval x (s.ns / 8192) 1 (s.ns % 8192)
    s5.beginSave x vkeep

/-- A rail of orders 2 to 7 leaves its range without PWRFAIL_N (R503). -/
def State.railFault (s : State) (rail : Nat) (x : Meas) : State :=
  let good := s.fget R.pwrRailStatus F.pwrRailStatus_GOOD
  let s1 := s.fset R.pwrRailStatus F.pwrRailStatus_GOOD (if bit good rail then good - 2 ^ rail else good)
  if rail = 10 ∨ s.enr.failed then s1
  else (s1.enrRecord 0x0B07 5 0 rail 0 0).powerFail x (s1.fget R.pwrVkeep F.pwrVkeep_NOW_MV)

/-- The save completes, and all but the VKEEP domain is held in reset (R508). -/
def State.saveComplete (s : State) (us vkeepEnd : Nat) : State :=
  if !s.enr.failed || s.enr.saved then s
  else
    let sv := s.enr.save
    let sv1 := if sv.st = 1 then { sv with st := 2, digestOk := true, us := us, vkeepEnd := vkeepEnd } else sv
    let s1 : State := { s with enr := { s.enr with saved := true, save := sv1 }, stw := { s.stw with pcie := {} } }
    let s2 := (s1.fset R.pwrVkeep F.pwrVkeep_NOW_MV vkeepEnd).fset R.pwrVkeep F.pwrVkeep_MIN_MV
      (min vkeepEnd (s1.fget R.pwrVkeep F.pwrVkeep_MIN_MV))
    s2.fset R.devStatus F.devStatus_STATE 0

/-! ## Commands -/

/-- FREE_INTERVAL_CLOSE (R487). -/
def execFreeIntervalClose (m : Meas) (s : State) : Host.Outcome State Fault Refusal := .next (s.closeFree m)
/-- THERMAL_SAMPLE (R497). -/
def execThermalSample (t : Temps) (s : State) : Host.Outcome State Fault Refusal := .next (s.sample t)
/-- THERMAL_RELEASE_STEP (R498). -/
def execThermalReleaseStep (s : State) : Host.Outcome State Fault Refusal := .next s.releaseStep
/-- RAIL_FAULT (R503). -/
def execRailFault (rail : Fin 11) (m : Meas) (s : State) : Host.Outcome State Fault Refusal := .next (s.railFault rail.val m)
/-- POWER_FAIL (R505). -/
def execPowerFail (m : Meas) (vkeep : BitVec 16) (s : State) : Host.Outcome State Fault Refusal := .next (s.powerFail m vkeep.toNat)
/-- SAVE_COMPLETE (R508). -/
def execSaveComplete (us vkeepEnd : BitVec 16) (s : State) : Host.Outcome State Fault Refusal :=
  .next (s.saveComplete us.toNat vkeepEnd.toNat)

end Sys2Proof.Machine
end

