-- ==== Sys2Proof/Machine/Meridian.lean ====
section
/-!
DEFINITION. The meridian (01 R20): the device closes the transit that has ended, makes the scheduled changes together, and starts the
blocks of the next transit.
-/
namespace Sys2Proof.Machine

/-! ## Closing the transit (step 1 of R20) -/

/-- Every powered district closes its count (R251): N_nom at the setting in force, LOSS, and the droop events. A district that has run
the whole transit since its reset is RUNNING again (R264). -/
def State.closeStretch (s : State) (x : Meas) (old d : Nat) : State :=
  if s.clkState d = clkGated then s else
  let c := x.cycles.getD d 0
  let nom := s.period * s.fget (R.clkStatus d) F.clkStatus_SETTING / 40
  let loss := nom - c
  let last := R.clkStretchLast d
  let most := R.clkStretchMax d
  let s1 := (s.fset last F.clkStretchLast_CYCLES (satN 32 c)).fset last F.clkStretchLast_LOSS (satN 32 loss)
  let s2 := if s1.fget most F.clkStretchMax_LOSS < loss then
      ((s1.fset most F.clkStretchMax_LOSS (satN 32 loss)).fset most F.clkStretchMax_NOM (satN 16 nom)).fset most
        F.clkStretchMax_TRANSIT (old % 2 ^ 16)
    else s1
  let k := s2.clk d
  let s3 := s2.fset (R.clkDroopCount d) F.clkDroopCount_LAST_TRANSIT (satN 16 k.droops)
  let k1 : Clk := { k with droops := 0, worstNom := if s1.fget most F.clkStretchMax_LOSS < loss then nom else k.worstNom }
  match k.trial with
  | some t => if t < old then
      (s3.setClk d { k1 with trial := none, failedResets := 0 }).setClkState d
        (if s.clkState d = clkCal then clkRunning else s.clkState d)
    else s3.setClk d k1
  | none => s3.setClk d k1

/-- An MQE shows the figures of the transit (R203). -/
def State.closeQueues (s : State) (d : Nat) : State :=
  let m := s.mqe d
  let s1 := (List.range 64).foldl (fun z q =>
    let g := tget {} m.figs q
    ((z.fset (R.mqeQstatN d q) F.mqeQstatN_OPS (satN 32 g.ops)).fset (R.mqeQstatN d q) F.mqeQstatN_MAX_LAT_NS (satN 16 g.maxLat)).fbump
      (R.mqeQstatN d q) F.mqeQstatN_OVER_BOUND g.late) s
  s1.setMqe d { m with figs := [] }

/-- Scheduled frets of a port's map in force, in one transit (R301). -/
def State.reserved (s : State) (p : Nat) : Nat :=
  if !s.mapOn p then 0
  else sumOf ((List.range (s.mapCount p s.version)).map fun k => field (s.mapEntry p s.version k) 20 12 + 1)

/-- A port shows the traffic of the transit that ends: the frets that fell in it. A scheduled fret that no vector took carried a filler
(R303). -/
def State.closePort (s : State) (p : Nat) : State :=
  let b := s.fab p
  let o := R.fabCountVec p
  let kept := s.reserved p
  let copies := if s.mapOn p then s.fretsPer / s.replayQ p else 0
  let upto := (s.transit + 1) * s.fretsPer
  let past (fs : List Nat) : List Nat := fs.filter (· < upto)
  let ahead (fs : List Nat) : List Nat := fs.filter (upto ≤ ·)
  let took := ((past b.fig.vectors).filter fun f => (s.mapSource p s.version f).isSome).length
  let fill := if s.portUp p then kept - took else 0
  let s1 := (s.fset o F.fabCountVec_VOIDS (satN 16 (past b.fig.voids).length)).fset o F.fabCountVec_VECTORS (satN 16 (past b.fig.vectors).length)
  let s2 := (s1.fset o F.fabCountVec_FILLERS (satN 16 fill)).fset o F.fabCountVec_REPLAYS (satN 16 (past b.fig.replays).length)
  (s2.setFab p { b with fig := { voids := ahead b.fig.voids, vectors := ahead b.fig.vectors, replays := ahead b.fig.replays } }).closeTraffic p s.fretsPer (kept + copies)

/-- The TIL registers take the figures of a block that ended (R553): cycles from cycle 0 to its end point, and the slack. -/
def State.blockFigures (s : State) (p active slack : Nat) : State :=
  let g := (s.tile p).fig
  let f2 (z : State) (o : Nat) (f1 : RField) (v1 : Nat) (f2 : RField) (v2 : Nat) : State :=
    (z.fset o f1 (satN f1.len v1)).fset o f2 (satN f2.len v2)
  let s1 := f2 s (R.tilCycles p) F.tilCycles_ACTIVE active F.tilCycles_STALL g.stall
  let s2 := s1.fset (R.tilSlack p) F.tilSlack_LAST_NS (satN 32 slack)
  let s3 := s2.fset (R.tilSlack p) F.tilSlack_MIN_NS (min (s2.fget (R.tilSlack p) F.tilSlack_MIN_NS) (satN 32 slack))
  let s4 := f2 s3 (R.tilMatrixPasses p) F.tilMatrixPasses_MMA g.mma F.tilMatrixPasses_MMAS g.mmas
  let s5 := f2 s4 (R.tilZgate p) F.tilZgate_ELEMENTS g.elements F.tilZgate_GATED g.gated
  let s6 := f2 s5 (R.tilGateStats p) F.tilGateStats_PLACED g.placed F.tilGateStats_OVERFLOW g.overflow
  let s7 := f2 s6 (R.tilVoids p) F.tilVoids_DEPARTURES g.deps F.tilVoids_VOID_DEPARTURES g.voidDeps
  let s8 := f2 s7 (R.tilVoids p) F.tilVoids_ARRIVALS g.arrs F.tilVoids_VOID_ARRIVALS g.voidArrs
  f2 s8 (R.tilTpOff p) F.tilTpOff_CYCLES g.tpOff F.tilTpOff_NOOPS g.noops

/-- The block of a tile ends at meridian instant `m` (R64, R553). A tile in TEND_WAIT shows its slack. One that has not reached TEND
overruns: the cycles that begin before the meridian pass, and what is still in flight is cancelled. A halted district has no
cycles. -/
def State.closeBlock (s : State) (p m : Nat) : State :=
  let t := s.tile p
  if !t.active || !t.issue.started then s
  else if t.issue.status = .tendWait then
    s.blockFigures p t.issue.tendCycle ((m - t.issue.reached.getD m) >>> 48)
  else
    let t1 := if s.clkOn (districtOf p) then ticksPast (s.beat p) m ((m - t.issue.start) / 2 ^ 47 + 1) t else t
    ((s.setTile p (cancelInFlight t1)).blockFigures p t1.issue.cycle 0).cancelOps (districtOf p) (·.tile == p)

/-- Whether a tile overruns: its block was started and has not reached TEND. -/
def Tile.overruns (t : Tile) : Bool := t.issue.started && (t.issue.status == .running || t.issue.status == .qwaitStall)

/-- Physical tiles bound to the program, in order of their logical tiles. -/
def State.boundTiles (s : State) : List Nat := (blockTiles s.prog.secs).filterMap s.ptileOf

/-- OVERRUN of a tile in transit `old`, recorded as the transit closes (R20, R21, R64). -/
def State.overrun (s : State) (p old : Nat) : State :=
  let b := (s.tile p).issue.last
  (s.summary p 6 b old .overrun 0).recordIn old 0x0110 3 (s.tilePlace p 6 b) 0

/-- The overruns of a transit fail it: noted and flooded as it closes. -/
def State.overruns (s : State) (ps : List Nat) (old : Nat) : State :=
  let s1 := ps.foldl (fun z p => z.overrun p old) s
  if ps.isEmpty || !s1.mayFail old then s1 else (s1.noteFailed old 0x0110).floodFailed old 0x0110 false

/-! ## The scheduled changes (step 2 of R20) -/

/-- A pending flip takes effect (R326): the other table version and the variant it holds are in force. -/
def State.flip (s : State) (t : Nat) : State :=
  if s.fget R.fabEpoch F.fabEpoch_PENDING = 1 ∧ s.fget R.fabEpoch F.fabEpoch_AT_TRANSIT ≤ t then
    let s1 := ((s.fset R.fabEpoch F.fabEpoch_ACTIVE (1 - s.fget R.fabEpoch F.fabEpoch_ACTIVE)).fset R.fabEpoch F.fabEpoch_PENDING 0).fset
      R.fabEpoch F.fabEpoch_DRAINED 0
    { s1 with prog := { s1.prog with variant := s1.prog.inactive, inactive := s1.prog.variant, detour := none } }
  else s

/-- The program starts at its start transit (R409). -/
def State.startProgram (s : State) (t : Nat) : State :=
  if s.prog.startPend && s.prog.st == .starting && s.prog.startAt ≤ t then
    let s1 := (mapPorts s.prog.secs 0 ++ mapPorts s.prog.secs s.prog.variant).foldl (fun z p => z.fset (R.fabCtl p) F.fabCtl_ENABLE 1) s
    ({ s1 with prog := { s1.prog with st := .running, startPend := false } }).settle 0x0403 Status.ok
  else s

/-- The program stops at its stop meridian (R475); its PROG_STOP names the transit. -/
def State.stopProgram (s : State) (t : Nat) : State :=
  match s.prog.stopAt with
  | some u =>
    if u ≤ t ∧ s.armed then
      let s1 : State := { s with stw := { s.stw with cmds := s.stw.cmds.map fun (c : AsyncCmd) =>
        if c.opcode = 0x0404 ∧ c.result.isNone then { c with progress := t, result := some 0 } else c } }
      s1.stopNow.closeDue
    else s
  | none => s

/-- A pending retune takes effect (R253); while a version 3 program runs, through a halt (R257). -/
def State.retuneEffect (s : State) (t m : Nat) : State :=
  if s.fget R.clkRetune F.clkRetune_PENDING = 1 ∧ s.fget R.clkRetune F.clkRetune_AT_TRANSIT ≤ t then
    (if s.running ∧ s.prog.hdr.version = 3 then s.haltDistricts m else s).applyRetune
  else s

/-- A pending budget takes effect (R491). -/
def State.budgetEffect (s : State) (t : Nat) : State :=
  if s.fget R.enrBudget F.enrBudget_PENDING = 1 ∧ s.fget R.enrBudgetAt F.enrBudgetAt_AT_TRANSIT ≤ t then
    s.putBudget (s.fget R.enrBudget F.enrBudget_PENDING_MW)
  else s

/-- A device that is not armed at meridian S − 2 cancels its start and floods NOT_ARMED (R410). -/
def State.startCheck (s : State) (t : Nat) : State :=
  if s.prog.startPend && s.prog.st != .starting && s.prog.startAt ≤ t + 2 then
    s.cancelStart.floodStart s.prog.hdr.programId s.prog.startAt
  else s

/-! ## The next transit (steps 3 and 4 of R20) -/

/-- Claims of frets that are past are dropped. -/
def State.dropClaims (s : State) : State :=
  let now := s.nowFret
  { s with meshClaims := s.meshClaims.filter fun c => now ≤ c.2.2
           fabs := s.fabs.map fun e => (e.1, { e.2 with claims := e.2.claims.filter (now ≤ ·) }) }

/-- What every tile does at a meridian: capacity counters cleared (R58), DONE tags FREE (R111), figures and releases of the new
transit, and no block in progress. -/
def Tile.newTransit (t : Tile) (stop : Bool) : Tile :=
  let st := match t.issue.status with
    | .running | .tendWait | .qwaitStall | .idle => if stop then TileStatus.stopped else .idle
    | x => x
  { t with gateCnt := [], fig := {}
           tags := t.tags.filter fun e => e.2.st != .done
           outbox := t.outbox.map fun e => (e.1, { e.2 with released := 0 })
           issue := { status := st, pc := t.issue.pc, last := t.issue.last, transit := t.issue.transit } }

/-- A bound tile starts the block of transit `t` in cycle `cyc0` of its district, which begins at `start` (R62, R247, R283): an EMPTY block
reaches TEND at cycle 0. A STOPPED tile starts at the first meridian after STOP_AT_MERIDIAN was cleared. -/
def State.startBlock (s : State) (p t cyc0 start : Nat) : State :=
  let x := s.tile p
  let entry := (x.tables.blocks.getD (s.phaseOf t) 0).toNat
  let go := x.issue.status == .idle ||
    (x.issue.status == .stopped && s.fget (R.tilCtl p) F.tilCtl_STOP_AT_MERIDIAN == 0)
  if !go then s
  else
    let base : Issue :=
      { last := x.issue.last, transit := t, start := start, cyc0 := cyc0, pc := field entry 0 13, started := true }
    s.setTile p { x with issue := if bit entry 15 then
      { base with status := .tendWait, ended := .tend, reached := some start } else { base with status := .running } }

/-- The tiles bound to the running program start, each in its district's first cycle at or after meridian instant `m` (R247); after a halt
that cycle is put off to the restart (R257). -/
def State.startBlocks (s : State) (t m : Nat) : State :=
  let ps := s.boundTiles
  (below 32 fun d => ps.any fun p => districtOf p == d).foldl (fun z d =>
    let z1 := if z.clkState d = clkHalted then z else z.anchorClk d m
    let c := z1.clk d
    (ps.filter fun p => districtOf p == d).foldl (fun y p => y.startBlock p t c.cyc c.at_) z1) s

/-- At an input meridian POSTED is copied into SNAPSHOT (R31, R479): the requests posted are in flight from here on. -/
def State.snapshot (s : State) (t : Nat) : State :=
  let input := match findSect s.prog.secs 0xB 0 0 with
    | some x => bit (leAt x.data (16 * s.phaseOf t + 8) 4) 0
    | none => false
  match input, s.reqBase with
  | true, some b =>
    let s1 := s.hbmPut (b + 8) (s.hbmBytes b 8)
    { s1 with reqs := s1.reqs.map fun (e : Nat × Request) =>
        (e.1, if e.2.st == .queued then { e.2 with st := .inFlight, inputT := t } else e.2) }
  | _, _ => s

/-- A transit that a bound tile does not run is failed, with no new fault (R293). -/
def State.failAbsent (s : State) (t : Nat) : State :=
  if s.boundTiles.any fun p => !(s.tile p).issue.started then s.markFailed t s.prog.lastCode false else s

/-- The meridian that ends the transit in progress (R20). -/
def State.meridian (s0 : State) (x : Meas) : State :=
  match s0.nextMeridian with
  | none => s0
  | some m =>
  if s0.enr.failed then s0 else
  let old := s0.transit
  let t := old + 1
  -- step 1
  let s1 := (List.range 8).foldl (fun z p => z.closePort p) ((s0.tiles.map (·.1)).foldl (fun z p => z.reachTend p) s0)
  let s2 : State := { s1 with ngt := { s1.ngt with now := m } }
  let ran := s2.running && s2.prog.startAt ≤ old
  let decl := s2.scaled (s2.prog.worsts.getD (s2.phaseOf old) 0) s2.setting
  let bt := perTransit (s2.fget R.enrBudget F.enrBudget_IN_FORCE_MW) s2.progPeriod
  let s3 := ((s2.closeInterval x old 0 s2.period).checkpoint)
  let s4 := (List.range 32).foldl (fun z d => (z.closeStretch x old d).closeQueues d) s3
  let late := (s4.tiles.filter (·.2.overruns)).map (·.1)
  let s5 := ((s4.tiles.map (·.1)).foldl (fun z p => z.closeBlock p m) s4).overruns late old
  let s7 : State := { s5 with tiles := s5.tiles.map fun e => (e.1, e.2.newTransit (s5.fget (R.tilCtl e.1) F.tilCtl_STOP_AT_MERIDIAN == 1)) }
  -- step 2
  let retuned := decide (s7.fget R.clkRetune F.clkRetune_PENDING = 1 ∧ s7.fget R.clkRetune F.clkRetune_AT_TRANSIT ≤ t)
  let s8 := (((s7.retireDistricts.capoChanges t).flip t).startProgram t).stopProgram t
  let s9 := ((s8.retuneEffect t m).budgetEffect t).tokensChanged
  -- steps 3 and 4
  let s10 := s9.dropClaims
  let s11 := if s10.running && s10.prog.startAt ≤ t then ((s10.startBlocks t m).snapshot t).failAbsent t else s10
  -- what firmware and the tiles' faults bring about next
  let s12 := if !late.isEmpty && s4.mayFail old && s11.running then s11.repost old else s11
  let s13 := if ran then s12.afterInterval (ujOf x 11) decl bt else s12
  let s14 := if s13.armed then s13 else { s13 with enr := { s13.enr with capHold := false } }
  (s14.startCheck t).throttle retuned

/-! ## Commands -/

/-- MERIDIAN (R20). -/
def execMeridian (m : Meas) (s : State) : Host.Outcome State Fault Refusal := .next (s.meridian m)

end Sys2Proof.Machine
end

