-- ==== Sys2Proof/Machine/RegView.lean ====
section
/-!
DEFINITION. What each register reads: the stored word with the fields that show other state put in (the register tables of
02 to 20). No read here has a side effect.
-/
namespace Sys2Proof.Machine

/-- Put values into fields of a word. -/
def overlay (w : Nat) (fs : List (RField × Nat)) : Nat := fs.foldl (fun v f => putField v f.1.lo f.1.len f.2) w

/-! ## Tiles, queues and district state (02, 08) -/

/-- TIL_STATUS.STATE codes. -/
def TileStatus.code : TileStatus → Nat
  | .reset => 0 | .idle => 1 | .running => 2 | .tendWait => 3 | .qwaitStall => 4 | .stopped => 5 | .faulted => 6 | .powerGated => 7

/-- TIL_STATUS (R66). -/
def State.tilStatusWord (s : State) (p : Nat) : Nat :=
  let c := s.capo (districtOf p)
  let i := c.indexOf (p % 17)
  overlay 0 [(F.tilStatus_RETIRED, b2n (bit c.retired (p % 17))), (F.tilStatus_LOGICAL_VALID, b2n i.isSome),
    (F.tilStatus_LOGICAL_INDEX, i.getD 0), (F.tilStatus_STATE, (s.tile p).issue.status.code)]

/-- TIL_PC. -/
def State.tilPcWord (s : State) (p : Nat) : Nat :=
  overlay 0 [(F.tilPc_TRANSIT, (s.tile p).issue.transit), (F.tilPc_BUNDLE_ADDR, (s.tile p).issue.last)]

/-- MQE_STATUS. -/
def State.mqeStatusWord (s : State) (d : Nat) : Nat :=
  overlay 0 [(F.mqeStatus_OUTSTANDING, (s.mqe d).ops.length), (F.mqeStatus_RATE_SUM, s.rateSum d 64 0 0),
    (F.mqeStatus_POOL_FREE, 2048 - s.depthSum d 64 0)]

/-! ## Time (09) -/

/-- NGT_NOW_LATCH as a path reads it: bits 63:32 of the latched count and its fraction. -/
def latchWord (latched : Nat) : Nat :=
  overlay 0 [(F.ngtNowLatch_NS_HI, latched / 2 ^ 80), (F.ngtNowLatch_FRAC, latched / 2 ^ 32)]

/-- NGT_HOLDOVER with the time in the current holdover. -/
def State.holdoverWord (s : State) : Nat :=
  let w := (s.reg R.ngtHoldover).toNat
  if s.ngtState = ngtHold then
    overlay w [(F.ngtHoldover_ELAPSED_MS, satN 32 (((s.ngt.now - s.ngt.holdStart) >>> 48) / 10 ^ 6))]
  else w

/-- NGT_CAPT_n_DATA and NGT_CAPT_n_META of the head entry. -/
def State.captHead (s : State) (n : Nat) (isMeta : Bool) : Nat :=
  match (s.capt n).fifo with
  | [] => 0
  | e :: _ => if isMeta then overlay 0 [(F.ngtCaptNMeta_VALID, 1), (F.ngtCaptNMeta_RISING, b2n e.rising), (F.ngtCaptNMeta_SEQ, e.seq),
      (F.ngtCaptNMeta_FRAC, e.stamp)] else e.stamp / 2 ^ 16

/-- A register of the NGT block. -/
def State.ngtWord (s : State) (host : Bool) (off : Nat) : Nat :=
  let w := (s.reg off).toNat
  let n := (off - 0x30300) / 0x20
  if off = R.ngtNow then s.ns
  else if off = R.ngtNowLatch then latchWord (if host then s.ngt.latchHost else s.ngt.latchStw)
  else if off = R.ngtTransit then s.transit
  else if off = R.ngtRate then s.rateWord
  else if off = R.ngtHoldover then s.holdoverWord
  else if 0x30300 ≤ off ∧ off < 0x30380 then
    if off = R.ngtCaptNCtl n then overlay w [(F.ngtCaptNCtl_LEVEL, (s.capt n).fifo.length)]
    else if off = R.ngtCaptNData n then s.captHead n false
    else s.captHead n true
  else w

/-! ## Scheduled plane, service plane and links (12 to 14) -/

/-- FAB_STATUS. -/
def State.fabStatusWord (s : State) (p : Nat) : Nat :=
  overlay (s.reg (R.fabStatus p)).toNat [(F.fabStatus_OLD_RESIDENT, s.oldResident p), (F.fabStatus_VERSION, b2n s.version),
    (F.fabStatus_ENABLED, b2n (s.mapOn p && (s.link p).st != .disabled))]

/-- Streams with packets waiting whose oldest has no usable route, and those that wait for credits or sequence space. -/
def State.svcStatusWord (s : State) : Nat :=
  let ws := s.svc.ctx.filter fun e => e.2.waiting ≠ []
  let stuck := ws.filter fun e => match e.2.waiting with | w :: _ => !s.maySend e.1 w | [] => false
  overlay 0 [(F.svcStatus_NO_ROUTE, (ws.filter fun e => (s.pickRoute e.1).isNone).length), (F.svcStatus_BLOCKED, stuck.length)]

/-- SVC_SCTX_n_TX. -/
def State.sctxTxWord (s : State) (n : Nat) : Nat :=
  let c := s.ctx n
  overlay 0 [(F.svcSctxNTx_WINDOW, c.window), (F.svcSctxNTx_OUTSTANDING, c.outstanding), (F.svcSctxNTx_NEXT_SEQ, c.next),
    (F.svcSctxNTx_BASE_SEQ, c.base)]

/-- SVC_SCTX_n_RX.STATE codes. -/
def TxState.code : TxState → Nat
  | .off => 0 | .waitGrant => 1 | .opened => 2

/-- SVC_SCTX_n_RX. -/
def State.sctxRxWord (s : State) (n : Nat) : Nat :=
  let c := s.ctx n
  overlay (s.reg (R.svcSctxNRx n)).toNat [(F.svcSctxNRx_HELD, c.held), (F.svcSctxNRx_RX_BASE_SEQ, c.rxBase),
    (F.svcSctxNRx_STATE, c.tx.code)]

/-- Parity arrangement of a direction: none, one group of 28, two groups of 14. -/
def Link.parityCode (l : Link) (rx : Bool) : Nat :=
  let ps := (l.withRole rx .parity).map fun n => (l.lane rx n).logical
  if ps = [] then 0 else if ps.contains 30 then 1 else 2

/-- LNK_STATUS. -/
def State.lnkStatusWord (s : State) (p : Nat) : Nat :=
  let l := s.link p
  overlay 0 [(F.lnkStatus_DOWN_REASON, l.downReason), (F.lnkStatus_TX_SPARES, (l.withRole false .parity).length),
    (F.lnkStatus_RX_SPARES, (l.withRole true .parity).length), (F.lnkStatus_TX_PARITY, l.parityCode false),
    (F.lnkStatus_RX_PARITY, l.parityCode true), (F.lnkStatus_PARTNER_GATE, l.partner.code), (F.lnkStatus_GATE, l.gate.code),
    (F.lnkStatus_STATE, l.st.code)]

/-- LNK_SEQ. -/
def State.lnkSeqWord (s : State) (p : Nat) : Nat :=
  let l := s.link p
  overlay 0 [(F.lnkSeq_RX_NEXT, l.rxNext), (F.lnkSeq_TX_OLDEST, l.txOldest), (F.lnkSeq_TX_NEXT, l.txNext)]

/-- LNK_REPLAY. -/
def State.lnkReplayWord (s : State) (p : Nat) : Nat :=
  overlay (s.reg (R.lnkReplay p)).toNat [(F.lnkReplay_OCCUPANCY, s.occupancy p)]

/-- Lane roles. -/
def LaneRole.code : LaneRole → Nat
  | .active => 0 | .parity => 1 | .failed => 2 | .retired => 3

/-- LNK_LANE_n. EYE_MV is a measurement: a free value. -/
def State.lnkLaneWord (s : State) (p n : Nat) : Nat :=
  let l := s.link p
  let r := l.lane true n
  let t := l.lane false n
  overlay (s.reg (R.lnkLaneN p n)).toNat [(F.lnkLaneN_EYE_MV, (Config.eyeMv s.draws).toNat),
    (F.lnkLaneN_RX_LOGICAL, if r.role = .active then r.logical else 0), (F.lnkLaneN_TX_LOGICAL, if t.role = .active then t.logical else 0),
    (F.lnkLaneN_RX_LOCK, b2n r.lock), (F.lnkLaneN_RX_ROLE, r.role.code), (F.lnkLaneN_TX_ROLE, t.role.code)]

/-- A register of the LNK block. -/
def State.lnkWord (s : State) (off : Nat) : Nat :=
  let p := (off - 0x7000000) / 0x10000
  if off = R.lnkStatus p then s.lnkStatusWord p
  else if off = R.lnkSeq p then s.lnkSeqWord p
  else if off = R.lnkReplay p then s.lnkReplayWord p
  else if R.lnkLaneN p 0 ≤ off ∧ off ≤ R.lnkLaneN p 29 then s.lnkLaneWord p ((off - R.lnkLaneN p 0) / 8)
  else (s.reg off).toNat

/-- A register of the SVC block. -/
def State.svcWord (s : State) (off : Nat) : Nat :=
  let n := (off - 0x8100000) / 0x20
  if off = R.svcStatus then s.svcStatusWord
  else if 0x8100000 ≤ off ∧ off < 0x8180000 then
    if off = R.svcSctxNTx n then s.sctxTxWord n else if off = R.svcSctxNRx n then s.sctxRxWord n else (s.reg off).toNat
  else (s.reg off).toNat

/-! ## Security, power, repair (16, 19, 20) -/

/-- A register of the SEC block. -/
def State.secWord (s : State) (off : Nat) : Nat :=
  let w := (s.reg off).toNat
  if off = R.secStatus then overlay w [(F.secStatus_SVN_FUSE, s.sec.svnFuse)]
  else if R.secIdDigestI 0 ≤ off ∧ off ≤ R.secIdDigestI 3 then leAt ownIdentity (off - R.secIdDigestI 0) 8
  else if off = R.secShaStat then
    overlay w [(F.secShaStat_ENGINES_BUSY, s.enginesBusy)]
  else w

/-- PWR_SAVE_STATUS: the header of the save region and the figures of the last save (R506). -/
def State.saveWord (s : State) : Nat :=
  let v := s.enr.save
  overlay 0 [(F.pwrSaveStatus_VKEEP_END_MV, v.vkeepEnd), (F.pwrSaveStatus_VKEEP_START_MV, v.vkeepStart),
    (F.pwrSaveStatus_DURATION_US, v.us), (F.pwrSaveStatus_STATE, v.st)]

/-- A register of the PWR block. VKEEP is a measurement: a free value while the device operates. -/
def State.pwrWord (s : State) (off : Nat) : Nat :=
  let w := (s.reg off).toNat
  if off = R.pwrSaveStatus then s.saveWord
  else if off = R.pwrVkeep ∧ !s.enr.failed then overlay w [(F.pwrVkeep_NOW_MV, (Config.vkeepMv s.draws).toNat)]
  else w

/-- Slots of a run of indices, five bits each. -/
def packSlots (xs : List Nat) : Nat := (List.range xs.length).foldl (fun v i => v + xs.getD i 0 % 32 * 2 ^ (5 * i)) 0

/-- RAS_CAPO_d_MAP0 and RAS_CAPO_d_MAP1. -/
def State.capoWord (s : State) (d : Nat) (second : Bool) : Nat :=
  let c := s.capo d
  if second then
    overlay (packSlots (c.slots.drop 12)) [(F.rasCapoDMap1_DEGRADED, b2n (c.slots.contains 0x1F)),
      (F.rasCapoDMap1_SPARE, c.spare.getD 0x1F), (F.rasCapoDMap1_RETIRED, c.retired)]
  else packSlots (c.slots.take 12)

/-- A register of the RAS block: bytes of the head record at 0x40 to 0x7F (R521). -/
def State.rasWord (s : State) (off : Nat) : Nat :=
  let w := (s.reg off).toNat
  let d := (off - 0xB001000) / 0x20
  if off = R.rasLogStatus then overlay w [(F.rasLogStatus_LEVEL, s.ras.queue.length)]
  else if 0xB000040 ≤ off ∧ off < 0xB000080 then (match s.ras.queue with | r :: _ => leAt r.bytes (off - 0xB000040) 8 | [] => 0)
  else if 0xB001000 ≤ off ∧ off < 0xB001400 then
    if off = R.rasCapoDMap0 d then s.capoWord d false else if off = R.rasCapoDMap1 d then s.capoWord d true else w
  else w

/-! ## Mailboxes and doorbells (17) -/

/-- MBX_CHn_STATE. -/
def State.chanWord (s : State) (n : Nat) : Nat :=
  let c := s.chan n
  overlay 0 [(F.mbxChnState_POSTED, c.posted.toNat), (F.mbxChnState_ERR, c.err), (F.mbxChnState_TAKEN, b2n c.taken),
    (F.mbxChnState_STATE, c.st)]

/-- Whether an identity sees the registers of a channel (R457, R458): the cores every channel's, another identity those of its
own channels once the table is sealed. -/
def State.seesChan (s : State) (i : Ident) (n : Nat) : Bool := isCore i || (s.sealed && (s.sideOf i n).isSome)

/-- A register of the MBX or DBL block as an identity reads it: before the seal only the cores read anything (R458). -/
def State.mbxWord (s : State) (i : Ident) (off : Nat) : Nat :=
  let w := (s.reg off).toNat
  if !s.mayAct i then 0
  else if off = R.mbxWinSel then tget 0 s.stw.winSel (idKey i)
  else if R.mbxChnCtl 0 ≤ off ∧ off < R.mbxChnCtl 64 then
    let n := (off - R.mbxChnCtl 0) / 0x10
    if s.seesChan i n && off == R.mbxChnState n then s.chanWord n else 0
  else if R.dblRingN 0 ≤ off ∧ off < R.dblRingN 64 then (if s.seesChan i ((off - R.dblRingN 0) / 0x20) then w else 0)
  else w

/-! ## Any register -/

/-- The word an identity reads at an offset, before the side effects of the read. -/
def State.word (s : State) (i : Ident) (off : Nat) : Nat :=
  if off < 0x10000 then (if off = R.devId then s.devIdWord else (s.reg off).toNat)
  else if off < 0x30000 then s.mbxWord i off
  else if off < 0x40000 then s.ngtWord (i == .host) off
  else if off < 0x2000000 then
    let d := (off - 0x1000000) / 0x1000
    if off = R.clkStatus d then overlay (s.reg off).toNat [(F.clkStatus_STRETCH_NOW, s.stretchNow d)] else (s.reg off).toNat
  else if off < 0x4000000 then
    let p := (off - 0x2000000) / 0x8000
    if off = R.tilStatus p then s.tilStatusWord p else if off = R.tilPc p then s.tilPcWord p else (s.reg off).toNat
  else if off < 0x5000000 then
    let d := (off - 0x4000000) / 0x1000
    if off = R.mqeStatus d then s.mqeStatusWord d else (s.reg off).toNat
  else if off < 0x6000000 then (s.reg off).toNat
  else if off < 0x7000000 then
    let p := (off - 0x6000000) / 0x10000
    if off = R.fabStatus p then s.fabStatusWord p
    else if off = R.fabEpoch then overlay (s.reg off).toNat [(F.fabEpoch_DRAINED, b2n s.drainedNow)]
    else (s.reg off).toNat
  else if off < 0x8000000 then s.lnkWord off
  else if off < 0x9000000 then s.svcWord off
  else if off < 0xB000000 then (s.reg off).toNat
  else if off < 0xC000000 then s.rasWord off
  else if off < 0xD000000 then s.secWord off
  else if off < 0xE000000 then s.pwrWord off
  else (s.reg off).toNat

/-- A register as firmware reads it. -/
def State.fw (s : State) (off : Nat) : Nat := s.word .stw0 off

end Sys2Proof.Machine
end

