-- ==== Sys2Proof/Machine/CmdDevice.lean ====
section
/-!
DEFINITION. Firmware commands on identity, status and time (18, tables 0x01xx and 0x02xx; 09, R219, R237 to R239).
-/
namespace Sys2Proof.Machine

/-! ## Identity and status -/

/-- State code of the program (R477): a start accepted and not yet reached reads STARTING. -/
def State.progCode (s : State) : Nat :=
  match s.prog.st with
  | .loading => 1
  | .arming => 3
  | .running => 6
  | .stopping => 7
  | .none => 0
  | .loaded => if s.prog.startPend then 5 else 2
  | .armed => if s.prog.startPend then 5 else 4
  | .starting => 5

/-- Request contexts not FREE. -/
def State.busyReqs (s : State) : Nat := (s.reqs.filter fun e => e.2.st != .free).length

/-- The body of DEV_INFO. -/
def State.infoBody (s : State) : List Byte :=
  (List.range 32).map Config.identityKey ++ ownIdentity ++ leBytes 8 s.devIdWord ++
  leBytes 1 (s.fget R.secStatus F.secStatus_RUN_SVN) ++ leBytes 1 s.sec.svnFuse ++ leBytes 4 s.coord ++ leBytes 8 (imgBuild s.sec.running)

/-- DEV_INFO: the certificate is its bulk result. -/
def State.devInfo (s : State) (c : Cmd) : Rep × State :=
  s.outbound c.ch c.who c.opcode c.tag c.mode c.bulkAddr c.bulkLen ((List.range Config.certificateLen).map Config.certificate)
    { status := 0, body := s.infoBody }

/-- Index an identity acknowledged. -/
def State.ackOf (s : State) (who : Nat) : Nat := tget 0 s.ras.acks who

/-- The body of DEV_STATUS. -/
def State.statusBody (s : State) (who : Nat) : List Byte :=
  leBytes 8 (s.fw R.devStatus) ++ leBytes 8 (s.fw R.ngtStatus) ++ leBytes 8 (s.fw R.topStatus) ++ leBytes 1 s.progCode ++
  leBytes 1 0 ++ leBytes 2 s.busyReqs ++ leBytes 8 s.ras.nextIndex ++ leBytes 8 (s.ras.nextIndex - s.ackOf who)

/-- FAULT_LOG_READ: records from the first index still held. -/
def State.logRead (s : State) (c : Cmd) : Rep :=
  let first := max (c.a 0 8) s.oldestIndex
  let rs := (s.ras.log.drop (first - s.oldestIndex)).take (c.a 8 1)
  { status := 0, args := argAt 0 8 (first + rs.length) + argAt 8 8 s.oldestIndex, body := rs.flatMap FaultRec.bytes }

/-- FAULT_ACK: the acknowledged index never moves back. -/
def State.logAck (s : State) (c : Cmd) : Rep × State :=
  let i := c.a 0 8
  if i > s.ras.nextIndex then ({ status := Status.badArg }, s)
  else
    let v := max i (s.ackOf c.who)
    ({ status := 0, args := argAt 0 8 v }, { s with ras := { s.ras with acks := tset 0 s.ras.acks c.who v } })

/-! ## Time -/

/-- TIME_ROLE_SET. -/
def State.timeRoleSet (s : State) (c : Cmd) : Rep × State :=
  let r := c.a 0 1
  let pa := c.a 1 1 % 16
  let pb := c.a 1 1 / 16
  let fresh := bit (c.a 2 1) 0
  if (bit r 0 ∧ bit r 1) ∨ !parentOk pa ∨ !parentOk pb ∨ (fresh ∧ (bit r 0 = false ∨ c.a 8 8 = 0)) then
    ({ status := Status.badArg }, s)
  else if s.armed then ({ status := Status.notPermitted }, s)
  else
    let o := R.ngtRole
    let s1 := (((((s.fset o F.ngtRole_MASTER_A (b2n (bit r 0))).fset o F.ngtRole_MASTER_B (b2n (bit r 1))).fset o
      F.ngtRole_PPS_A_USE (b2n (bit r 2))).fset o F.ngtRole_PPS_B_USE (b2n (bit r 3))).fset o F.ngtRole_PARENT_A pa).fset o
      F.ngtRole_PARENT_B pb
    let s2 := s1.roleChanged
    let s3 := if fresh then s2.newEpoch (c.a 8 8) else s2
    ({ status := 0, args := argAt 0 8 (s3.fw o) }, s3)

/-- The body of TIME_STATUS. -/
def State.timeBody (s : State) : List Byte :=
  [R.ngtStatus, R.ngtNow, R.ngtEpochId, R.ngtRate, R.ngtOffsetD 0, R.ngtOffsetD 1, R.ngtHoldover].flatMap (fun o => leBytes 8 (s.fw o)) ++
  (List.range 8).flatMap fun p => leBytes 8 (s.fw (R.ngtPortNDelay p)) ++ leBytes 8 (s.fw (R.ngtPortNAsym p))

/-- TRIG_SCHEDULE: the writes of TIME and CTL that R237 and R238 govern. -/
def State.trigSchedule (s : State) (c : Cmd) : Rep × State :=
  let n := c.a 0 1
  let mode := c.a 1 1
  let width := c.a 4 2
  let per := c.a 16 8
  if (mode = 2 ∧ per ≤ width) ∨ (mode ≠ 0 ∧ width = 0) then ({ status := Status.badArg }, s)
  else
    let s1 := s.trigWrites n { time := some (c.a 8 8, 2 ^ 64 - 1), ctl := some (mode + c.a 2 1 * 2 ^ 4 + width * 2 ^ 16 + per * 2 ^ 32, 2 ^ 64 - 1) }
    ({ status := 0, args := argAt 0 8 (s1.fw (R.ngtTrigNCtl n)) }, s1)

/-- One entry of CAPT_READ. -/
def CaptEntry.bytes (e : CaptEntry) : List Byte :=
  leBytes 8 (e.stamp / 2 ^ 16) ++ leBytes 2 (e.stamp % 2 ^ 16) ++ leBytes 2 e.seq ++ leBytes 1 (b2n e.rising) ++ leBytes 3 0

/-- CAPT_READ: entries are popped, OVERFLOW is read and cleared. -/
def State.captRead (s : State) (c : Cmd) : Rep × State :=
  let n := c.a 0 1
  let es := (s.capt n).fifo.take (c.a 1 1)
  let s1 := (List.range es.length).foldl (fun z _ => z.captPop n) s
  let ovf := s.fget (R.ngtCaptNCtl n) F.ngtCaptNCtl_OVERFLOW
  ({ status := 0, args := argAt 0 4 ovf, body := es.flatMap CaptEntry.bytes }, s1.fset (R.ngtCaptNCtl n) F.ngtCaptNCtl_OVERFLOW 0)

/-! ## Layouts -/

/-- DEV_INFO. -/
def layDevInfo : Layout := { opcode := 0x0101, by_ := [1, 4, 5, 6], bulk := .outof [0, 1, 2] }
/-- DEV_STATUS. -/
def layDevStatus : Layout := { opcode := 0x0102, by_ := [1, 4, 5, 6] }
/-- FAULT_LOG_READ. -/
def layLogRead : Layout :=
  { opcode := 0x0103, by_ := [1, 4, 5, 6], uses := [(0, 9)], ok := fun c => 1 ≤ c.a 8 1 && c.a 8 1 ≤ 63 }
/-- FAULT_ACK. -/
def layLogAck : Layout := { opcode := 0x0104, by_ := [1, 4, 5], uses := [(0, 8)] }
/-- TIME_ROLE_SET. -/
def layTimeRole : Layout :=
  { opcode := 0x0201, by_ := [1, 6], uses := [(0, 3), (8, 8)], ok := fun c => c.a 0 1 < 16 && c.a 2 1 < 2 }
/-- TIME_STATUS. -/
def layTimeStatus : Layout := { opcode := 0x0202, by_ := [1, 4, 5, 6] }
/-- TRIG_SCHEDULE. -/
def layTrig : Layout :=
  { opcode := 0x0203, by_ := [1, 6], uses := [(0, 3), (4, 2), (8, 16)],
    ok := fun c => c.a 0 1 < 4 && c.a 1 1 < 4 && c.a 2 1 < 2 && c.a 20 4 == 0 }
/-- CAPT_READ. -/
def layCapt : Layout :=
  { opcode := 0x0204, by_ := [1, 6], uses := [(0, 2)], ok := fun c => c.a 0 1 < 4 && 1 ≤ c.a 1 1 && c.a 1 1 ≤ 16 }

/-! ## Commands -/

/-- DEV_INFO (R475). -/
def execDevInfo (ch : Fin 64) (s : State) : Host.Outcome State Fault Refusal :=
  .next (s.serve ch.val layDevInfo [] fun c z => z.devInfo c)
/-- DEV_STATUS (R475). -/
def execDevStatus (ch : Fin 64) (s : State) : Host.Outcome State Fault Refusal :=
  .next (s.serve ch.val layDevStatus [] fun c z => ({ status := 0, body := z.statusBody c.who }, z))
/-- FAULT_LOG_READ (R475). -/
def execFaultLogRead (ch : Fin 64) (s : State) : Host.Outcome State Fault Refusal :=
  .next (s.serve ch.val layLogRead [] fun c z => (z.logRead c, z))
/-- FAULT_ACK (R475). -/
def execFaultAck (ch : Fin 64) (s : State) : Host.Outcome State Fault Refusal :=
  .next (s.serve ch.val layLogAck [] fun c z => z.logAck c)
/-- TIME_ROLE_SET (R219, R475). -/
def execTimeRoleSet (ch : Fin 64) (s : State) : Host.Outcome State Fault Refusal :=
  .next (s.serve ch.val layTimeRole [] fun c z => z.timeRoleSet c)
/-- TIME_STATUS (R475). -/
def execTimeStatus (ch : Fin 64) (s : State) : Host.Outcome State Fault Refusal :=
  .next (s.serve ch.val layTimeStatus [] fun _ z => ({ status := 0, body := z.timeBody, hw := true }, z))
/-- TRIG_SCHEDULE (R237, R475). -/
def execTrigSchedule (ch : Fin 64) (s : State) : Host.Outcome State Fault Refusal :=
  .next (s.serve ch.val layTrig [] fun c z => z.trigSchedule c)
/-- CAPT_READ (R239, R475). -/
def execCaptRead (ch : Fin 64) (s : State) : Host.Outcome State Fault Refusal :=
  .next (s.serve ch.val layCapt [] fun c z => z.captRead c)

end Sys2Proof.Machine
end

