-- ==== Sys2Proof/Machine/CmdTopology.lean ====
section
/-!
DEFINITION. Firmware commands on the almanac and the ports (18, table 0x03xx; 12, R330; 15, R400, R401, R406 to R408).
-/
namespace Sys2Proof.Machine

/-! ## Almanac (R400, R401) -/

/-- ALMANAC_LOAD ends: the conditions of R400 in order. -/
def State.finishAlmanac (s : State) (c : AsyncCmd) : Rep × State :=
  match parseAlmanac c.data with
  | none => ({ status := Status.badArg, args := argAt 0 1 1 }, s)
  | some a =>
    let (msg, sig) := almanacSigned c.data
    let old := match s.top.active with | some b => b.id == a.id && a.seq ≤ b.seq | none => false
    if !s.verifies (almanacSigner c.data) 1 msg sig then ({ status := Status.signatureInvalid, args := argAt 0 1 2 }, s)
    else if old then ({ status := Status.notPermitted, args := argAt 0 1 3 }, s)
    else
      let s1 := ({ s with top := { s.top with staged := some a } }).fset R.topAlmanacSeq F.topAlmanacSeq_STAGED a.seq
      let s2 := if s1.top.active.isNone then s1.fset R.topStatus F.topStatus_ALMANAC 1 else s1
      ({ status := 0, args := argAt 0 4 a.seq }, s2)

/-- ALMANAC_ACTIVATE. -/
def State.almanacActivate (s : State) (c : Cmd) : Rep × State :=
  match s.top.staged with
  | none => ({ status := Status.notPermitted }, s)
  | some a =>
    if s.busyOp 0x0301 (fun _ => true) then ({ status := Status.busyDeferred }, s)
    else if a.seq ≠ c.a 0 4 ∨ (s.prog.st ≠ .none ∧ ¬s.keepsFootprint a) then ({ status := Status.notPermitted }, s)
    else
      let s1 := ({ s with top := { s.top with staged := none } }).fset R.topAlmanacSeq F.topAlmanacSeq_STAGED 0
      let s2 := (s1.putInForce a).roleChanged
      let s3 := (List.range 8).foldl (fun z p => z.checkDelay p) s2
      ({ status := 0, args := argAt 0 4 a.seq + argAt 4 1 (s3.fget R.topStatus F.topStatus_ADMIT) }, s3)

/-! ## Ports (R406 to R408) -/

/-- An entry of DISCOVER_REPORT. -/
def State.portEntry (s : State) (p : Nat) : List Byte :=
  let o := R.topPortNDisc p
  let flags := s.fget o F.topPortNDisc_MISSING + 2 * s.fget o F.topPortNDisc_SEQ_SKEW + 4 * s.fget (R.lnkCtl p) F.lnkCtl_QUARANTINE
  let r := (s.link p).record
  leBytes 1 (s.outcome p) ++ leBytes 1 flags ++ leBytes 1 (s.link p).st.code ++ leBytes 13 0 ++ (r ++ List.replicate (64 - r.length) 0#8).take 64

/-- Ports of a mask. -/
def portsOf (m : Nat) : List Nat := below 8 (bit m)

/-- Status codes of ports, two bits each. -/
def portCodes (f : Nat → Nat) (m : Nat) : Nat := (portsOf m).foldl (fun v p => v + f p % 4 * 2 ^ (2 * p)) 0

/-- Why a port cannot be opened: 0 it can, 1 NOT_PERMITTED, 2 TOPOLOGY_MISMATCH (R406). -/
def State.openBar (s : State) (p : Nat) : Nat :=
  if s.outcome p ≠ 1 then 2
  else if s.portUp p && s.placed && (s.ngtState == ngtLocked || s.ngtState == ngtMaster) then 0
  else 1

/-- The link a variant in force stands for is open again: the lower end proposes the base schedule, the other waits 2 transits for its
proposal (R329, R330). -/
def State.returnToBase (s : State) (p : Nat) : State :=
  if s.running && s.prog.variant != 0 && s.prog.detour.isNone && s.variantFor s.prog.secs p == some s.prog.variant then
    match s.top.active.bind (·.farEnd s.coord p) with
    | some (e, _) =>
      if s.coord < e then s.propose p 0 s.transit
      else { s with top := { s.top with downs := s.top.downs ++ [(p, s.transit, s.transit)] } }
    | none => s
  else s

/-- Open one port. -/
def State.openPort (s : State) (p : Nat) : State :=
  if s.openBar p ≠ 0 then s
  else
    let s1 := (s.setLink p { s.link p with draining := none }).fset (R.lnkCtl p) F.lnkCtl_QUARANTINE 0
    ((s1.gateWrite p true).fset R.topStatus F.topStatus_ADMIT 2).returnToBase p

/-- Status of a port code: 0 OK, 1 NOT_PERMITTED, 2 TOPOLOGY_MISMATCH, 3 ABORTED. -/
def portStatus (code : Nat) : Nat :=
  [Status.ok, Status.notPermitted, Status.topologyMismatch, Status.aborted].getD code 0

/-- Status of the first port of a mask whose code is not 0. -/
def firstStatus (codes m : Nat) : Nat :=
  match (portsOf m).find? fun p => field codes (2 * p) 2 ≠ 0 with
  | some p => portStatus (field codes (2 * p) 2)
  | none => 0

/-- PORT_OPEN. -/
def State.portOpenCmd (s : State) (c : Cmd) : Rep × State :=
  let m := c.a 0 1
  if s.portsHeld m then ({ status := Status.busyDeferred }, s)
  else
    let codes := portCodes s.openBar m
    ({ status := firstStatus codes m, args := argAt 0 2 codes }, (portsOf m).foldl (fun z p => z.openPort p) s)

/-- PORT_CLOSE: nothing is closed while a port of the mask has a fret map in force, unless FORCE is set. -/
def State.portCloseCmd (s : State) (c : Cmd) : Rep × State :=
  let m := c.a 0 1
  if s.portsHeld m then ({ status := Status.busyDeferred }, s)
  else if (portsOf m).any s.mapOn && c.a 1 1 == 0 then ({ status := Status.notPermitted }, s)
  else ({ status := 0, args := argAt 0 1 m }, (portsOf m).foldl (fun z p => z.closeGate p) s)

/-- A port holds nothing it must still deliver (R408). -/
def State.portEmpty (s : State) (p : Nat) : Bool := s.occupancy p == 0 && s.oldResident p == 0

/-- The device is DRAINING while every powered port drains or is drained, DRAINED when none drains any more (R407, R408). -/
def State.drainAdmit (s : State) : State :=
  let ps := below 8 fun p => (s.link p).st != .disabled
  let shut (p : Nat) : Bool := s.fget (R.lnkCtl p) F.lnkCtl_QUARANTINE == 1
  let all := ps.all fun p => (s.link p).draining.isSome || shut p
  let admitSt := s.fget R.topStatus F.topStatus_ADMIT
  if !all || !(admitSt == 2 || admitSt == 3) then s
  else s.fset R.topStatus F.topStatus_ADMIT (if ps.any (fun p => (s.link p).draining.isSome) then 3 else 4)

/-- PORT_DRAIN: every port of the mask without a fret map in force begins to drain; code 2 stands for a drain in progress. -/
def State.portDrainCmd (s : State) (c : Cmd) : Rep × State :=
  let m := c.a 0 1
  if s.portsHeld m then ({ status := Status.busyDeferred }, s)
  else
    let s1 := (portsOf m).foldl (fun z p => if z.mapOn p then z else z.setLink p { z.link p with draining := some z.ngt.now }) s
    ({ status := Status.accepted, fig := portCodes (fun p => if s.mapOn p then 1 else 2) m }, s1.drainAdmit)

/-- A port's drain ends with a code: its gate closes and it is quarantined. -/
def State.endDrain (s : State) (p code : Nat) : State :=
  let s1 := (s.closeGate p).quarantine p
  let s2 := s1.setLink p { s1.link p with draining := none }
  let cs := s2.stw.cmds.map fun (c : AsyncCmd) =>
    if c.opcode = 0x0306 ∧ bit (leAt c.args 0 1) p ∧ field c.progress (2 * p) 2 = 2 then
      { c with progress := putField c.progress (2 * p) 2 code } else c
  ({ s2 with stw := { s2.stw with cmds := cs } }).drainAdmit

/-- Every port that drains and is empty ends its drain. -/
def State.settleDrains (s : State) : State :=
  (List.range 8).foldl (fun z p => if (z.link p).draining.isSome && z.portEmpty p then z.endDrain p 0 else z) s

/-- PORT_DRAIN ends once no port of it still drains. -/
def State.finishDrain (s : State) (c : AsyncCmd) : Option Rep :=
  let m := leAt c.args 0 1
  match s.findCmd c.chan c.tag with
  | none => none
  | some x =>
    if (portsOf m).any fun p => field x.progress (2 * p) 2 == 2 then none
    else some { status := firstStatus x.progress m, args := argAt 0 2 x.progress }

/-- A port that has drained for STREAM_TIMEOUT_US closes anyway (R408). -/
def State.drainTimeout (s : State) (p : Nat) : State :=
  match (s.link p).draining with
  | none => s
  | some t =>
    let s1 := s.reach (t + s.streamTimeout)
    if s1.portEmpty p then s1.endDrain p 0
    else if s1.ngt.now < t + s.streamTimeout then s1
    else s1.endDrain p 3

/-! ## Layouts and commands -/

/-- ALMANAC_LOAD. -/
def layAlmanac : Layout :=
  { opcode := 0x0301, async := true, by_ := [1, 4, 6], bulk := .into [1, 2] fun n => 1 ≤ n && n ≤ 2 ^ 24 }
/-- ALMANAC_ACTIVATE. -/
def layActivate : Layout := { opcode := 0x0302, by_ := [1, 4, 6], uses := [(0, 4)] }
/-- DISCOVER_REPORT. -/
def layDiscover : Layout := { opcode := 0x0303, by_ := [1, 4, 5, 6] }
/-- PORT_OPEN. -/
def layPortOpen : Layout := { opcode := 0x0304, by_ := [1, 6], uses := [(0, 1)] }
/-- PORT_CLOSE. -/
def layPortClose : Layout := { opcode := 0x0305, by_ := [1, 6], uses := [(0, 2)], ok := fun c => c.a 1 1 < 2 }
/-- PORT_DRAIN. -/
def layPortDrain : Layout := { opcode := 0x0306, async := true, by_ := [1, 6], uses := [(0, 1)] }

/-- ALMANAC_LOAD (R400). -/
def execAlmanacLoad (ch : Fin 64) (host : List Byte) (s : State) : Host.Outcome State Fault Refusal :=
  .next (s.serve ch.val layAlmanac host fun _ z =>
    ({ status := if z.busyOp 0x0301 (fun _ => true) then Status.busyDeferred else Status.accepted }, z))
/-- ALMANAC_ACTIVATE (R401). -/
def execAlmanacActivate (ch : Fin 64) (s : State) : Host.Outcome State Fault Refusal :=
  .next (s.serve ch.val layActivate [] fun c z => z.almanacActivate c)
/-- DISCOVER_REPORT (R475). -/
def execDiscoverReport (ch : Fin 64) (s : State) : Host.Outcome State Fault Refusal :=
  .next (s.serve ch.val layDiscover [] fun _ z => ({ status := 0, body := (List.range 8).flatMap z.portEntry }, z))
/-- PORT_OPEN (R406). -/
def execPortOpen (ch : Fin 64) (s : State) : Host.Outcome State Fault Refusal :=
  .next (s.serve ch.val layPortOpen [] fun c z => z.portOpenCmd c)
/-- PORT_CLOSE (R475). -/
def execPortClose (ch : Fin 64) (s : State) : Host.Outcome State Fault Refusal :=
  .next (s.serve ch.val layPortClose [] fun c z => z.portCloseCmd c)
/-- PORT_DRAIN (R408). -/
def execPortDrain (ch : Fin 64) (s : State) : Host.Outcome State Fault Refusal :=
  .next (s.serve ch.val layPortDrain [] fun c z => z.portDrainCmd c)
/-- PORT_DRAIN_TIMEOUT (R408). -/
def execPortDrainTimeout (port : Port) (s : State) : Host.Outcome State Fault Refusal := .next (s.drainTimeout port.val)

end Sys2Proof.Machine
end

