-- ==== Sys2Proof/Machine/CmdProgram.lean ====
section
/-!
DEFINITION. Firmware commands on the program and its requests, and the completion ring (18, tables 0x04xx and 0x06xx, R476 to
R483, R554; 10, R255; 12, R329; 15, R409).
-/
namespace Sys2Proof.Machine

/-! ## Loading and arming (R297, R476) -/

/-- A lost pseudo-channel or a FAILED district refuses loading (R212, R264). -/
def State.anyPcLost (s : State) : Bool := (List.range 8).any fun h => s.fget (R.hbmStatus h) F.hbmStatus_PC_LOST != 0

/-- PROG_LOAD. -/
def State.progLoad (s : State) : Rep × State :=
  if s.progHeld then ({ status := Status.busyDeferred }, s)
  else if s.anyFailed || s.anyPcLost then ({ status := Status.deviceFault }, s)
  else if s.prog.st ≠ .none then ({ status := Status.notPermitted, args := argAt 0 1 1 }, s)
  else ({ status := Status.accepted }, { s with prog := { s.prog with st := .loading } })

/-- PROG_LOAD ends. -/
def State.finishLoad (s : State) (c : AsyncCmd) : Rep × State :=
  let (r, s1) := s.loadImage c.data
  if r.status = 0 then ({ status := 0, args := argAt 0 8 s1.prog.hdr.programId + argAt 8 2 r.variant }, s1)
  else ({ status := r.status, args := argAt 0 1 r.check + argAt 1 1 r.district }, { s1 with prog := { s1.prog with st := .none } })

/-- PROG_ARM: the checks run when it completes. -/
def State.progArm (s : State) : Rep × State :=
  if s.progHeld then ({ status := Status.busyDeferred }, s)
  else if s.anyFailed then ({ status := Status.deviceFault }, s)
  else if s.prog.st ≠ .loaded then ({ status := Status.notPermitted }, s)
  else ({ status := Status.accepted }, { s with prog := { s.prog with st := .arming } })

/-- Budgets admission looks at: the one in force and any pending one (R492). -/
def State.budgets (s : State) : List Nat :=
  s.fget R.enrBudget F.enrBudget_IN_FORCE_MW ::
    (if s.fget R.enrBudget F.enrBudget_PENDING = 1 then [s.fget R.enrBudget F.enrBudget_PENDING_MW] else [])

/-- The setting in force and any pending one. -/
def State.settings (s : State) : List Nat :=
  s.setting :: (if s.fget R.clkRetune F.clkRetune_PENDING = 1 then [s.fget R.clkRetune F.clkRetune_SETTING] else [])

/-- Whether the setting in force, or that of a pending retune, lies below the image's MIN_SETTING (R255). -/
def State.lowSetting (s : State) : Bool := s.settings.any fun v => v < s.prog.hdr.minSetting

/-- The planner's setting for the arm: the highest that satisfies R495 under every budget, MIN_SETTING as the floor (R255). -/
def State.armStar (s : State) : Option Nat := s.planned (s.budgets.foldl min (2 ^ 22)) s.prog.hdr.minSetting

/-- Step 6 of R476. -/
def State.admits (s : State) : Bool :=
  s.armStar.isSome &&
  (s.lowSetting || s.settings.all fun v => s.budgets.all fun b => s.worstAt v ≤ perTransit b s.progPeriod)

/-- Districts of the tiles with BLOCKS sections that the condition names. -/
def firstDistrict (ls : List Nat) (q : Nat → Bool) : Nat := ((ls.find? q).map (· / 16)).getD 0

/-- The first failing step of R476: status, step, district or port; none if all pass. -/
def State.armFail (s : State) (host : List Byte) : Option (Nat × Nat × Nat) :=
  let ss := s.prog.secs
  match s.guardFails s.prog.hdr ss with
  | d :: _ => some (Status.notPermitted, 1, d)
  | [] =>
    if !(s.ngtState == ngtLocked || s.ngtState == ngtMaster) then some (Status.notPermitted, 2, 0)
    else
      let ps := mapPorts ss 0
      let fits := match s.fitVariant ss with
        | some v => s.delaysOk ss v
        | none => false
      if !fits then some (Status.topologyMismatch, 3, (ps.find? s.portLacks).getD (ps.headD 0))
      else if !ratesOk s.prog.hdr ss then
        some (Status.notPermitted, 4, ((List.range 32).find? fun d => decide (boundedRate ss d > 128)).getD 0)
      else if !s.weightsOk host then some (Status.notPermitted, 5, 0)
      else if !s.admits then some (Status.energyDenied, 6, 0)
      else if (blockTiles ss).any fun l => (s.ptileOf l).isNone then
        some (Status.deviceFault, 7, firstDistrict (blockTiles ss) fun l => (s.ptileOf l).isNone)
      else none

/-- The arm is made (R298) with the base schedule, or the single variant of a down link; a start accepted before it is then
STARTING. -/
def State.armDone (s : State) : Rep × State :=
  let s1 := ({ s with prog := { s.prog with variant := (s.fitVariant s.prog.secs).getD s.prog.variant } }).armWrite
  let p := s1.prog
  ({ status := 0, args := argAt 0 8 p.hdr.programId },
   { s1 with prog := { p with st := if p.startPend then .starting else .armed, inactive := p.variant } })

/-- PROG_ARM ends, none while it waits for a retune: the stretch history is brought up to date (R252), then the checks, then, where the
setting in force or a pending one lies below MIN_SETTING, the retune to S* once no other is pending (R255), then the arm. `host` holds
the chunks of HOST shards; PROGRESS counts the steps of R255 done. -/
def State.finishArm (s : State) (c : AsyncCmd) (host : List Byte) : Option Rep × State :=
  let at_ (z : State) (n : Nat) : State :=
    { z with stw := { z.stw with cmds := z.stw.cmds.map fun (x : AsyncCmd) => if x = c then { x with progress := n } else x } }
  let arm (z : State) : Option Rep × State := let r := z.armDone; (some r.1, r.2)
  let retune (z : State) : Option Rep × State :=
    if z.fget R.clkRetune F.clkRetune_PENDING = 1 then (none, at_ z 1)
    else match z.armStar with
      | some v => (none, (at_ z 2).retuneRequest v (z.transit + 4))
      | none => (some { status := Status.energyDenied, args := argAt 0 1 6 }, { z with prog := { z.prog with st := .loaded } })
  match c.progress with
  | 0 =>
    let z := s.foldStretch
    match z.armFail host with
    | some (st, step, at') => (some { status := st, args := argAt 0 1 step + argAt 1 1 at' }, { z with prog := { z.prog with st := .loaded } })
    | none => if z.lowSetting then retune z else arm z
  | 1 => retune s
  | _ => if s.fget R.clkRetune F.clkRetune_PENDING = 1 then (none, s) else arm s

/-! ## Starting and stopping (R409, R475) -/

/-- PROG_START. -/
def State.progStart (s : State) (c : Cmd) : Rep × State :=
  let t := c.a 0 6
  let per := s.progPeriod
  let loadedNow := s.prog.st == .loaded || s.prog.st == .arming || s.prog.st == .armed
  if s.prog.startPend then ({ status := Status.busyDeferred }, s)
  else if s.busyOp 0x0401 (fun _ => true) || s.busyOp 0x0404 (fun _ => true) || s.prog.detour.isSome then
    ({ status := Status.busyDeferred }, s)
  else if !loadedNow then ({ status := Status.notPermitted }, s)
  else if t < (if per = 0 then 0 else s.ns / per) + 4 then ({ status := Status.badArg }, s)
  else if 2 * per < (match s.top.active with | some a => a.controlBoundNs | none => 0) then ({ status := Status.notPermitted }, s)
  else
    let s1 := (s.fset R.ngtPeriod F.ngtPeriod_N s.prog.hdr.periodN).fset R.ngtPeriod F.ngtPeriod_VALID 1
    let p := s1.prog
    ({ status := Status.accepted },
     { s1 with prog := { p with st := if p.st = .armed then .starting else p.st, startPend := true, startAt := t, failed := [],
                                failedCount := 0, flooded := [] } })

/-- PROG_START ends at its start, or when it was cancelled; none while it is pending. -/
def State.finishStart (s : State) (c : AsyncCmd) : Option Rep :=
  match c.result with
  | some r => some { status := r }
  | none => if s.prog.startPend then none else some { status := Status.aborted }

/-- A program that does not run ends at once: it has no meridian to stop at. -/
def State.stopIdle (s : State) (unload : Bool) : State :=
  let s1 := (s.settle 0x0403 Status.aborted).settle 0x0402 Status.aborted
  let s2 := s1.settle 0x0401 Status.aborted
  let p := s2.prog
  let s3 : State := { s2 with prog := { p with unload := unload, lastStatus := 0 } }
  match p.st with
  | .armed | .starting => s3.stopNow.closeDue
  | .loading => { s3 with prog := { s3.prog with st := .none, unload := false } }
  | _ =>
    let s4 := if p.startPend then s3.endMeridians else s3
    let s5 : State := { s4 with prog := { s4.prog with st := .loaded, startPend := false, unload := false } }
    if unload then s5.unloadProg else s5

/-- PROG_STOP. -/
def State.progStop (s : State) (c : Cmd) : Rep × State :=
  let unload := bit (c.a 0 1) 0
  if s.prog.st = .none then ({ status := Status.notPermitted }, s)
  else if s.busyOp 0x0404 (fun _ => true) || s.prog.detour.isSome then ({ status := Status.busyDeferred }, s)
  else match s.prog.st with
    | .running =>
      let s1 := s.stopFrom (s.transit + 1) 0
      ({ status := Status.accepted }, { s1 with prog := { s1.prog with unload := unload } })
    | .stopping => ({ status := Status.accepted }, { s with prog := { s.prog with unload := s.prog.unload || unload } })
    | _ => ({ status := Status.accepted, done := some 0, fig := s.transit }, s.stopIdle unload)

/-- PROG_STOP ends after the stop meridian; none before it. -/
def State.finishStop (s : State) (c : AsyncCmd) : Option Rep :=
  match c.result with
  | some r => some { status := r, args := if r = 0 then argAt 0 6 c.progress else 0 }
  | none => if s.armed then none else some { status := 0, args := argAt 0 6 s.transit }

/-- The body of PROG_STATUS. -/
def State.progBody (s : State) : List Byte :=
  let p := s.prog
  leBytes 1 s.progCode ++ leBytes 8 p.hdr.programId ++ leBytes 6 p.startAt ++ leBytes 2 p.variant ++ leBytes 8 p.failedCount ++
  leBytes 2 p.lastStatus ++ leBytes 2 p.lastCode

/-! ## Table versions (R324, R326, R329) -/

/-- DETOUR_SELECT. -/
def State.detourSelect (s : State) (c : Cmd) : Rep × State :=
  let v := c.a 0 2
  if s.prog.st ≠ .none ∧ v > s.prog.hdr.variants then ({ status := Status.badArg }, s)
  else if s.progHeld then ({ status := Status.busyDeferred }, s)
  else if !s.armed then ({ status := Status.notPermitted }, s)
  else if !s.drainedNow then ({ status := Status.busyDeferred }, s)
  else
    let s1 := s.writeVersion (!s.version) v
    ({ status := 0, args := argAt 0 1 (b2n !s.version) }, { s1 with prog := { s1.prog with inactive := v } })

/-- EPOCH_FLIP, through the first powered FAB instance. -/
def State.epochFlip (s : State) (c : Cmd) : Rep × State :=
  if s.progHeld then ({ status := Status.busyDeferred }, s)
  else
    let port := ((List.range 8).find? s.fabOn).getD 0
    let was := s.fget R.fabEpoch F.fabEpoch_PENDING
    let s1 := if bit (c.a 6 1) 0 then s.epochCancel port false else s.epochRequest port (c.a 0 6)
    let refused := !bit (c.a 6 1) 0 && (was == 1 || s1.fget R.fabEpoch F.fabEpoch_PENDING == 0)
    ({ status := if refused then Status.notPermitted else 0, args := if refused then 0 else argAt 0 8 (s1.fw R.fabEpoch) }, s1)

/-! ## Requests (R478 to R483, R554) -/

/-- REQ_SUBMIT: the lowest free context is allocated. -/
def State.reqSubmit (s : State) (c : Cmd) : Rep × State :=
  let live := s.prog.st == .armed || s.prog.st == .starting || s.prog.st == .running
  if !live || !hasInput s.prog.secs || s.reqBase.isNone then ({ status := Status.notPermitted }, s)
  else match (List.range 16384).find? fun i => (s.req i).st == .free with
    | none => ({ status := Status.queueFull }, s)
    | some i =>
      let r : Request := { st := .queued, gen := (s.req i).gen + 1, chan := c.ch, desc := c.body, stamp := s.ns }
      ({ status := Status.accepted, args := argAt 0 4 (r.id i) }, ((s.setReq i r).postEntry i).ledgerCheck 7)

/-- The context a REQ_ID names: allocated at least once, generation current (R478). -/
def State.named (s : State) (id : Nat) : Option (Nat × Request) :=
  let i := id % 2 ^ 14
  let r := s.req i
  if r.gen ≠ 0 ∧ r.id i = id then some (i, r) else none

/-- State code of a request. -/
def ReqState.code : ReqState → Nat
  | .free => 0 | .queued => 1 | .inFlight => 2 | .cancelling => 3

/-- REQ_STATUS. -/
def State.reqStatus (s : State) (c : Cmd) : Rep :=
  match s.named (c.a 0 4) with
  | none => { status := Status.badArg }
  | some (_, r) =>
    let t := if r.st = .inFlight ∨ r.st = .cancelling then r.inputT else 0
    { status := 0, args := argAt 0 1 r.st.code + argAt 1 1 r.reruns + argAt 2 6 t }

/-- A completion entry (R482). -/
def ReqDone.bytes (d : ReqDone) : List Byte :=
  leBytes 4 d.reqId ++ leBytes 2 d.status ++ leBytes 1 d.reruns ++ leBytes 1 0 ++ leBytes 6 d.lastT ++ leBytes 2 d.progStatus

/-- REQ_COMPLETE notices of a channel, 251 entries to a notice. -/
def State.postDone (s : State) (ch : Nat) : Nat → List ReqDone → State
  | 0, _ => s
  | n + 1, ds =>
    match ds with
    | [] => s
    | _ =>
      let now := ds.take 251
      let body := leBytes 4 now.length ++ leBytes 12 0 ++ now.flatMap ReqDone.bytes
      let s1 := match s.noticeChan ch with
        | some q => s.queueNotice q 0x0610 0 { status := 0, body := body }
        | none => s
      s1.postDone ch n (ds.drop 251)

/-- Post every completion due on a channel. -/
def State.postDue (s : State) (ch : Nat) : State :=
  let ds := s.reqDone.filter fun d => d.chan == ch
  let kept := ds.map fun d => (d.reqId, d.lastT, d.lastT)
  let s1 : State := { s with reqDone := s.reqDone.filter (fun d => d.chan != ch), prog := { s.prog with done := s.prog.done ++ kept } }
  s1.postDone ch ds.length ds

/-- REQ_CANCEL (R483). -/
def State.reqCancel (s : State) (c : Cmd) : Rep × State :=
  match s.named (c.a 0 4) with
  | none => ({ status := Status.badArg }, s)
  | some (i, r) =>
    let rep : Rep := { status := 0, args := argAt 0 1 r.st.code }
    match r.st with
    | .free => ({ status := Status.badArg }, s)
    | .queued =>
      let s1 := match s.reqBase with
        | some b => s.hbmPut (b + 0x40 + r.ring % 16384 * 256) (leBytes 4 0)
        | none => s
      let s2 := s1.endReq i Status.aborted 0 0
      let s3 := s2.ledgerCheck 7
      (rep, if s3.valid then s3 else s3.postDue r.chan)
    | .inFlight => (rep, s.setReq i { r with st := .cancelling })
    | .cancelling => (rep, s)

/-- The completion ring's header in the local slot: WRITTEN, and READ after it. -/
def ringHead (b : Nat) : Nat := b + 0x400040
/-- Completion record `j` of the ring. -/
def ringRec (b j : Nat) : Nat := b + 0x400080 + j % 16384 * 16

/-- Take one completion record: it counts for the run in flight that it names (R554). -/
def State.takeRecord (s : State) (b j : Nat) : State :=
  let e := s.hbmBytes (ringRec b j) 16
  match s.named (leAt e 0 4) with
  | some (i, r) =>
    if (r.st = .inFlight ∨ r.st = .cancelling) ∧ r.record.isNone ∧ r.inputT ≤ leAt e 8 8 then
      s.setReq i { r with record := some (leAt e 4 2), lastT := leAt e 8 8, ring := j }
    else s
  | none => s

/-- Firmware reads the completion ring (R554). -/
def State.ringRead (s : State) : State :=
  match (if s.running then s.reqBase else none) with
  | none => s
  | some b =>
    let w := leNat (s.hbmBytes (ringHead b) 8)
    let r := s.prog.read
    let detail := r + w * 2 ^ 64
    if s.hbmBad (ringHead b) 8 ∨ w > r + 16384 then (s.record 0x0C0C 4 {} detail).contain 0x0C0C 4 s.transit
    else
      let js := (List.range (w - r)).map (r + ·)
      let s1 := (s.hbmPut (ringHead b + 8) (leBytes 8 w))
      let s2 : State := { s1 with prog := { s1.prog with read := w } }
      if js.any fun j => s.hbmBad (ringRec b j) 16 then (s2.record 0x0C0D 3 {} detail).contain 0x0C0D 3 (s.transit - 1)
      else js.foldl (fun z j => z.takeRecord b j) s2

/-- Whether a request's run is over: its last transit has closed, and either its record was read or it was cancelled. -/
def State.runOver (s : State) (r : Request) : Bool :=
  (r.st == .cancelling || (r.st == .inFlight && r.record.isSome)) && s.lastOf r < s.transit

/-- Instant, in ns, from which a request's completion may be posted (R32, R522). -/
def State.holdEnd (s : State) (r : Request) : Nat := (s.lastOf r + 1) * s.period + s.fget R.ldgCtl F.ldgCtl_FAIL_HOLD_NS

/-- Insert a context in ring order. -/
def insertRing (e : Nat × Request) : List (Nat × Request) → List (Nat × Request)
  | [] => [e]
  | x :: xs => if e.2.ring ≤ x.2.ring then e :: x :: xs else x :: insertRing e xs

/-- Completions of a channel due by now end in completion-ring order, and are posted (R482). -/
def State.reqComplete (s : State) (ch : Nat) : State :=
  let ovf := s.reqs.filter fun e => e.2.chan == ch && s.runOver e.2
  let s1 := ovf.foldl (fun z e => z.reach (s.holdEnd e.2 <<< 48)) s
  let due := (ovf.filter fun e => s.holdEnd e.2 ≤ s1.ns).foldl (fun l e => insertRing e l) []
  let s2 := due.foldl (fun z e =>
    z.endReq e.1 (if e.2.st = .cancelling then Status.aborted else 0) (s.lastOf e.2) (e.2.record.getD 0)) s1
  s2.postDue ch

/-! ## Layouts and commands -/

/-- PROG_LOAD. -/
def layLoad : Layout := { opcode := 0x0401, async := true, by_ := [1], bulk := .into [1] fun n => 1 ≤ n && n < 2 ^ 40 }
/-- PROG_ARM. -/
def layArm : Layout := { opcode := 0x0402, async := true, by_ := [1] }
/-- PROG_START. -/
def layStart : Layout := { opcode := 0x0403, async := true, by_ := [1, 6], uses := [(0, 6)] }
/-- PROG_STOP. -/
def layStop : Layout := { opcode := 0x0404, async := true, by_ := [1, 6], uses := [(0, 1)], ok := fun c => c.a 0 1 < 2 }
/-- PROG_STATUS. -/
def layProgStatus : Layout := { opcode := 0x0405, by_ := [1, 4, 5, 6] }
/-- DETOUR_SELECT. -/
def layDetour : Layout := { opcode := 0x0406, by_ := [1, 6], uses := [(0, 2)] }
/-- EPOCH_FLIP. -/
def layFlip : Layout := { opcode := 0x0407, by_ := [1, 6], uses := [(0, 7)], ok := fun c => c.a 6 1 < 2 }
/-- REQ_SUBMIT. -/
def laySubmit : Layout := { opcode := 0x0601, async := true, by_ := [1], len := (· ≤ 240) }
/-- REQ_STATUS. -/
def layReqStatus : Layout := { opcode := 0x0602, by_ := [1], uses := [(0, 4)] }
/-- REQ_CANCEL. -/
def layCancel : Layout := { opcode := 0x0603, by_ := [1], uses := [(0, 4)] }

/-- PROG_LOAD (R297). -/
def execProgLoad (ch : Fin 64) (host : List Byte) (s : State) : Host.Outcome State Fault Refusal :=
  .next (s.serve ch.val layLoad host fun _ z => z.progLoad)
/-- PROG_ARM (R476). -/
def execProgArm (ch : Fin 64) (s : State) : Host.Outcome State Fault Refusal := .next (s.serve ch.val layArm [] fun _ z => z.progArm)
/-- PROG_START (R409). -/
def execProgStart (ch : Fin 64) (s : State) : Host.Outcome State Fault Refusal :=
  .next (s.serve ch.val layStart [] fun c z => z.progStart c)
/-- PROG_STOP (R475). -/
def execProgStop (ch : Fin 64) (s : State) : Host.Outcome State Fault Refusal :=
  .next (s.serve ch.val layStop [] fun c z => z.progStop c)
/-- PROG_STATUS (R477). -/
def execProgStatus (ch : Fin 64) (s : State) : Host.Outcome State Fault Refusal :=
  .next (s.serve ch.val layProgStatus [] fun _ z => ({ status := 0, body := z.progBody }, z))
/-- DETOUR_SELECT (R329). -/
def execDetourSelect (ch : Fin 64) (s : State) : Host.Outcome State Fault Refusal :=
  .next (s.serve ch.val layDetour [] fun c z => z.detourSelect c)
/-- EPOCH_FLIP (R326). -/
def execEpochFlip (ch : Fin 64) (s : State) : Host.Outcome State Fault Refusal :=
  .next (s.serve ch.val layFlip [] fun c z => z.epochFlip c)
/-- REQ_SUBMIT (R480). -/
def execReqSubmit (ch : Fin 64) (s : State) : Host.Outcome State Fault Refusal :=
  .next (s.serve ch.val laySubmit [] fun c z => z.reqSubmit c)
/-- REQ_STATUS (R478). -/
def execReqStatus (ch : Fin 64) (s : State) : Host.Outcome State Fault Refusal :=
  .next (s.serve ch.val layReqStatus [] fun c z => (z.reqStatus c, z))
/-- REQ_CANCEL (R483). -/
def execReqCancel (ch : Fin 64) (s : State) : Host.Outcome State Fault Refusal :=
  .next (s.serve ch.val layCancel [] fun c z => z.reqCancel c)
/-- COMPLETION_RING_READ (R554). -/
def execCompletionRingRead (s : State) : Host.Outcome State Fault Refusal := .next s.ringRead
/-- REQ_COMPLETE_POST (R482). -/
def execReqCompletePost (ch : Fin 64) (s : State) : Host.Outcome State Fault Refusal := .next (s.reqComplete ch.val)

end Sys2Proof.Machine
end

