-- ==== Sys2Proof/Machine/CmdService.lean ====
section
/-!
DEFINITION. Firmware commands on memory, energy, repair, ledgers and telemetry (18, tables 0x07xx to 0x0Axx; 08, R191, R210;
20, R516, R526), and the completion of asynchronous commands (R469).
-/
namespace Sys2Proof.Machine

/-- Update the command in progress of a channel and TAG. -/
def State.modCmd (s : State) (ch tag : Nat) (f : AsyncCmd → AsyncCmd) : State :=
  { s with stw := { s.stw with cmds := s.stw.cmds.map fun (c : AsyncCmd) => if c.chan = ch ∧ c.tag = tag then f c else c } }

/-! ## DMA_COPY (R191, R215) -/

/-- The parts of a DMA_COPY request: source, destination, length, device to host, channel. -/
def Cmd.copyArgs (c : Cmd) : Nat × Nat × Nat × Bool × Nat :=
  (c.a 0 8, c.a 8 7, c.a 24 7, bit (c.a 31 1) 0, field (c.a 31 1) 1 3)

/-- Whether a range lies in the own board slot below the firmware region (R289). -/
def State.copyRange (s : State) (dev len : Nat) : Bool :=
  dev < 2 ^ 48 && dev / 2 ^ 40 == s.ownSlot && dev % 2 ^ 40 + len ≤ 0xFF00000000

/-- DMA_COPY. -/
def State.dmaCopy (s : State) (c : Cmd) : Rep × State :=
  let (src, dst, len, out, ch) := c.copyArgs
  let dev := if out then src else dst
  if !s.copyRange dev len then ({ status := Status.badArg }, s)
  else if s.busyOp 0x0701 (fun x => x.result.isNone && field (leAt x.args 31 1) 1 3 == ch) then ({ status := Status.busyDeferred }, s)
  else if len = 0 then ({ status := Status.accepted, done := some 0 }, s)
  else
    let x : Xfer := { toDevice := !out, host := if out then dst else src, dev := dev % 2 ^ 40, len := len, copy := some (c.ch, c.tag) }
    ({ status := Status.accepted },
     { s with stw := { s.stw with dma := tset [] s.stw.dma ch (tget [] s.stw.dma ch ++ [x]) } })

/-- Settle the DMA_COPY a transfer belongs to. -/
def State.settleCopy (s : State) (x : Xfer) (status bytes : Nat) : State :=
  match x.copy with
  | some (ch, tag) => s.modCmd ch tag fun c => { c with result := some status, progress := bytes }
  | none => s

/-- Bytes of a range before its first unit that is poisoned or does not answer. -/
def State.goodPrefix (s : State) (off len : Nat) : Nat :=
  match (unitsOf off len).find? fun u => s.hbmPoison.contains u || s.hbmDead (64 * u) with
  | some u => if 64 * u ≤ off then 0 else min len (64 * u - off)
  | none => len

/-- A transfer ends early (R191, R215): a free number of its first bytes has been copied, none past a unit that does not answer;
`src` are the bytes the host had given. -/
def State.cutCopy (s : State) (t : Xfer) (src : List Byte) : State :=
  let z : State := { s with draws := s.draws + 1 }
  if t.toDevice then
    let live := match (unitsOf t.dev t.len).find? fun u => s.hbmDead (64 * u) with
      | some u => 64 * u - t.dev
      | none => t.len
    let n := min (Config.partBytes s.draws) (min live (min src.length t.len))
    (z.hbmWrite t.dev (src.take n) fun _ => false).settleCopy t Status.aborted n
  else
    let n := min (Config.partBytes s.draws) (s.goodPrefix t.dev t.len)
    (z.toHostMem t.host (z.hbmBytes t.dev n)).settleCopy t Status.aborted n

/-- The oldest transfer of a channel completes (R191): `x` gives the errors of the source units, the bytes host memory gave, and
whether PCI Express failed it. A host-tier queue operation completes as its MQE has it. -/
def State.dmaDone (s : State) (ch : Nat) (x : QExt) : State :=
  match tget [] s.stw.dma ch with
  | [] => s
  | t :: rest =>
    let s1 : State := { s with stw := { s.stw with dma := tset [] s.stw.dma ch rest } }
    match t.op with
    | some (p, tag) =>
      match (s.mqe (districtOf p)).ops.findIdx? fun o => o.tile == p && o.tag == tag with
      | some i => s.queueComplete (districtOf p) i x
      | none => s1
    | none =>
    if !s.dmaOn then s1.cutCopy t x.data
    else if x.failed then (if t.toDevice then s1.logAer else s1).cutCopy t x.data
    else if t.toDevice then
      let dead := (unitsOf t.dev t.len).any fun u => s1.hbmDead (64 * u)
      if x.data.length ≠ t.len || dead then s1.cutCopy t x.data
      else (s1.hbmWrite t.dev x.data fun _ => false).settleCopy t 0 t.len
    else
      let s2 := s1.hbmRead t.dev t.len x.errs {} 0
      let n := s2.goodPrefix t.dev t.len
      (s2.toHostMem t.host (s2.hbmBytes t.dev n)).settleCopy t (if n = t.len then 0 else Status.aborted) n

/-! ## MEM_SCRUB -/

/-- Granules of a range that lie on the stacks of a mask (R188). -/
def granulesOn (mask first n : Nat) : Nat :=
  let on (g : Nat) : Bool := bit mask (hbmStack (g * 1024))
  let head := min n ((8 - first % 8) % 8)
  let rest := n - head
  let tail := rest % 8
  ((List.range head).filter fun i => on (first + i)).length + rest / 8 * (below 8 (bit mask)).length +
  ((List.range tail).filter fun i => on (first + n - tail + i)).length

/-- MEM_SCRUB ends: ECC events of the range's granules on the named stacks are handled under R206. -/
def State.finishScrub (s : State) (c : AsyncCmd) (errs : List HbmErr) : Rep × State :=
  let mask := leAt c.args 0 1
  let off := leAt c.args 8 8
  let len := leAt c.args 16 8
  let es := errs.filter fun e => off ≤ 64 * e.unit && 64 * e.unit < off + len && bit mask (hbmStack (64 * e.unit)) &&
    !s.hbmDead (64 * e.unit) && !s.hbmPoison.contains e.unit
  let s1 := s.eccEvents (es.map (·.unit)) es {} 0
  ({ status := 0, args := argAt 0 4 (es.filter (·.corrected)).length + argAt 4 4 (es.filter (·.bad)).length +
      argAt 8 8 (granulesOn mask (off / 1024) (len / 1024)) }, s1)

/-! ## Energy -/

/-- Bytes of an interval in an ENERGY_REPORT. -/
def Interval.bytes (i : Interval) : List Byte :=
  leBytes 8 i.transit ++ leBytes 8 i.package ++ leBytes 4 i.vcore ++ leBytes 4 i.hbm ++ leBytes 4 i.vser ++ leBytes 4 i.other

/-- ENERGY_REPORT. -/
def State.energyReport (s : State) (c : Cmd) : Rep :=
  let is := (s.enr.history.filter fun i => c.a 0 8 ≤ i.transit).take (c.a 8 1)
  { status := 0, args := argAt 0 8 ((s.enr.history.head?.map (·.transit)).getD 0), body := is.flatMap Interval.bytes }

/-- Whether the rule of R296 forbids a retune at a transit: a version 3 image runs and the phase has no RETUNE_HALT entry. -/
def State.haltBars (s : State) (t : Nat) : Bool :=
  s.running && s.prog.hdr.version == 3 && !s.haltPhases.contains (s.phaseOf t)

/-- RETUNE_REQUEST. -/
def State.retuneCmd (s : State) (c : Cmd) : Rep × State :=
  let v := c.a 0 1
  let t := c.a 8 8
  if v < 20 ∨ 42 < v then ({ status := Status.badArg }, s)
  else if v < s.minSetting ∨ s.haltBars t then ({ status := Status.notPermitted }, s)
  else if s.armed && s.budgets.any (fun b => decide (perTransit b s.progPeriod < s.worstAt v)) then ({ status := Status.energyDenied }, s)
  else
    let ok := s.retuneOk v t
    let s1 := s.retuneRequest v t
    ({ status := if ok then 0 else Status.notPermitted, args := if ok then argAt 0 8 (s1.fw R.clkRetune) else 0 }, s1)

/-! ## Repair -/

/-- The body of REPAIR_STATUS. -/
def State.repairBody (s : State) : List Byte :=
  let standby := (List.range 2).find? fun k =>
    k ≠ s.fget R.devStatus F.devStatus_ACTIVE_STW && !s.stw.coreFailed.contains k && !s.stw.coreRetired.contains k
  (List.range 32).map (fun d => BitVec.ofNat 8 (b2n (s.capo d).spare.isSome)) ++
  (List.range 8).flatMap (fun p => leBytes 2 (((s.link p).withRole true .parity).length + 4 * ((s.link p).withRole false .parity).length)) ++
  (List.range 8).map (fun h => BitVec.ofNat 8 (below 32 fun n => s.fget (R.hbmRemapN h n) F.hbmRemapN_VALID == 0).length) ++
  leBytes 1 (match standby with | some k => k + 1 | none => 0) ++
  leBytes 1 ((below 2 s.stw.coreRetired.contains).foldl (fun m k => m + 2 ^ k) 0)

/-- TILE_RETIRE. -/
def State.tileRetire (s : State) (c : Cmd) : Rep × State :=
  let (st, s1) := s.retire (c.a 0 2) (c.a 8 8)
  ({ status := st }, s1)

/-- TILE_RETIRE ends at its meridian, or at once while there are none. -/
def State.finishRetire (s : State) (c : AsyncCmd) : Option Rep × State :=
  let s1 := if c.result.isNone then s.retireNow (leAt c.args 0 2) else s
  match s1.findCmd c.chan c.tag with
  | some x => (x.result.map fun r => { status := r, args := if r = 0 then argAt 0 2 x.progress else 0 }, s1)
  | none => (none, s1)

/-- LANE_RETIRE. -/
def State.laneRetire (s : State) (c : Cmd) : Rep × State :=
  let p := c.a 0 1
  let n := c.a 1 1
  let l := s.link p
  let x := l.lane true n
  if s.portHeld p then ({ status := Status.busyDeferred }, s)
  else if (l.withRole true .parity).isEmpty ∨ l.st ≠ .up ∨ x.role = .retired ∨ (x.logical < 28 ∧ (l.cover true x.logical).isNone) then
    ({ status := Status.notPermitted }, s)
  else ({ status := Status.accepted }, s.retireLane p n)

/-- LANE_RETIRE ends at the switch fret, or when the port goes down. -/
def State.finishLane (s : State) (c : AsyncCmd) : Option Rep :=
  let l := s.link (leAt c.args 0 1)
  if l.rxRetired.contains (leAt c.args 1 1) then some { status := 0, args := argAt 0 1 (l.withRole true .parity).length }
  else if l.st ≠ .up then some { status := Status.aborted }
  else none

/-- HBM_ROW_REPAIR: remapped at once while a program runs, otherwise repaired if its bank has a spare row. -/
def State.rowRepair (s : State) (c : Cmd) : Rep × State :=
  let h := c.a 0 1
  let pc := c.a 1 1
  let row := c.a 4 4
  let same := s.ras.hbmRows.find? fun r => r.stack == h && r.pc == pc && r.row == row
  let mapped := match same with | some r => r.entry.isSome | none => false
  let soft := match same with | some r => decide (r.repaired ≠ 0) | none => false
  let full := (List.range 32).all fun n => s.fget (R.hbmRemapN h n) F.hbmRemapN_VALID == 1
  if full && !mapped then ({ status := Status.notPermitted }, s)
  else
    let z := s.remapRow h pc row
    let kept := z.ras.hbmRows.any fun r => r.stack == h && r.pc == pc && r.row == row && r.entry.isSome
    ({ status := Status.accepted, done := some 0, fig := if kept then 1 else if soft then 3 else 2 }, z)

/-! ## Ledgers and telemetry (R484, R516) -/

/-- Ledgers of a mask. -/
def ledgersOf (m : Nat) : List Nat := below 8 (bit m)

/-- LEDGER_AUDIT ends: one entry per ledger; a mismatch is a ledger fault. -/
def State.finishAudit (s : State) (c : AsyncCmd) : Rep × State :=
  let ls := ledgersOf (leAt c.args 0 4)
  ({ status := 0, body := ls.flatMap s.auditEntry }, ls.foldl (fun z n => z.ledgerCheck n) s)

/-- Queues in use: those with a DEPTH. -/
def State.usedQueues (s : State) : List (Nat × Nat) :=
  (List.range 32).flatMap fun d => (below 64 fun q => s.fget (R.mqeQcfgN d q) F.mqeQcfgN_DEPTH ≠ 0).map fun q => (d, q)

/-- Functions a message may name, in the order in which telemetry group 4 counts their messages (R340): steward, time unit, port
managers, whole device. -/
def msgUnits : List Nat := [0x400, 0x401] ++ (List.range 8).map (0x410 + ·) ++ [0x7FFF]

/-- Contents of a telemetry group. -/
def State.groupBody (s : State) (g : Nat) : List Byte :=
  match g with
  | 0 => [s.fw R.devStatus, s.progCode, s.busyReqs, (s.reqs.filter fun e => e.2.st == .queued).length,
      s.stw.telemetryDropped].flatMap (leBytes 8)
  | 1 => (List.range 8).flatMap fun p =>
      [s.fw (R.lnkStatus p), s.fw (R.fabCountVec p), s.fw (R.fabCountErr p), s.fw (R.svcPortNTraffic p)].flatMap (leBytes 8)
  | 2 => (List.range 32).flatMap fun d =>
      [s.fw (R.clkStretchLast d), s.fw (R.clkDroopCount d), s.fw (R.clkXstat d)].flatMap (leBytes 8)
  | 3 => s.usedQueues.flatMap fun e => leBytes 8 (s.fw (R.mqeQstatN e.1 e.2))
  | 4 => [s.fw R.svcStatus, sumOf ((List.range 8).map fun p => s.fget (R.svcPortNEvents p) F.svcPortNEvents_DISCARDS),
      s.svc.discardedMsgs].flatMap (leBytes 8) ++ msgUnits.flatMap fun u => leBytes 8 (tget 0 s.svc.msgCount u)
  | 5 => match s.enr.history.getLast? with | some i => i.bytes | none => List.replicate 32 0#8
  | _ => []

/-- A group record of a transit: its prefix and its contents. -/
def State.groupRecord (s : State) (g t : Nat) : List Byte :=
  let b := s.groupBody g
  leBytes 2 g ++ leBytes 2 (16 + b.length) ++ leBytes 4 0 ++ leBytes 8 t ++ b

/-- TELEMETRY_STREAM: one stream per channel. -/
def State.telemetryStream (s : State) (c : Cmd) : Rep × State :=
  let m := c.a 0 1
  let per := c.a 2 2
  let rest := s.stw.streams.filter fun x => x.chan ≠ c.ch
  let x : Stream := { chan := c.ch, groups := m, period := per, ring := c.a 8 8, size := c.a 16 4, flat := c.a 20 4,
                      nextT := s.transit + per }
  let on := m ≠ 0 && per ≠ 0
  ({ status := 0, args := argAt 0 1 (if on then m else 0) },
   { s with stw := { s.stw with streams := if on then rest ++ [x] else rest } })

/-- A stream context towards the device of a flat ID. -/
def State.contextFor (s : State) (flat : Nat) : Option Nat :=
  match s.resolve (2 ^ 31 + flat) with
  | none => none
  | some a => s.configured.find? fun n => (s.ctx n).tx != .off && (match s.resolve (s.ctxDest n) with
      | some d => deviceOf d == deviceOf a | none => false)

/-- PUT bytes at an offset, 4,032 to a packet. -/
def State.putBytes (s : State) (n addr : Nat) : Nat → List Byte → State
  | 0, _ => s
  | k + 1, bs =>
    match bs with
    | [] => s
    | _ => ((s.offer n (s.reqPkt n { op := 4, addr := addr, body := bs.take 4032 }) .steward).2).putBytes n (addr + 4032) k (bs.drop 4032)

/-- The record of a group that a stream owes falls due (R484). -/
def State.telemetryRecord (s : State) (i g : Nat) : State :=
  match s.stw.streams[i]? with
  | none => s
  | some x =>
    if x.nextT > s.transit ∨ !bit x.groups g ∨ 5 < g then s
    else
      let r := s.groupRecord g x.nextT
      let full := decide (x.size < x.written + r.length)
      let last := (List.range 6).all fun k => k ≤ g || !bit x.groups k
      let y : Stream := { x with written := if full then x.written else x.written + r.length,
                                 nextT := if last then x.nextT + x.period else x.nextT }
      let dropped := s.stw.telemetryDropped + b2n full
      let s1 : State := { s with stw := { s.stw with streams := s.stw.streams.set i y, telemetryDropped := dropped } }
      if full then s1
      else if s.sideCode x.chan false = 6 then
        match s1.contextFor x.flat with
        | some n => s1.putBytes n (x.ring + x.written) r.length r
        | none => s1
      else if s1.bme then s1.toHostMem (x.ring + x.written) r
      else s1

/-! ## Completion of asynchronous commands (R469) -/

/-- What ends a command in progress, none while it is not due, and the state with its effect. One that failed returns 0 in
every field not marked "on failure" (R475). -/
def State.asyncEnd (s : State) (c : AsyncCmd) (x : QExt) : Option Rep × State :=
  let figure : Option Rep := c.result.map fun r => { status := r, args := if r = 0 then argAt 0 8 c.progress else 0 }
  if c.result = some Status.aborted ∧ c.opcode ≠ 0x0701 ∧ c.opcode ≠ 0x0503 then (some { status := Status.aborted }, s)
  else
    let wrap (p : Rep × State) : Option Rep × State := (some p.1, p.2)
    match c.opcode with
    | 0x0301 => wrap (s.finishAlmanac c)
    | 0x0306 => (s.settleDrains.finishDrain c, s.settleDrains)
    | 0x0401 => wrap (s.finishLoad c)
    | 0x0402 => s.finishArm c x.data
    | 0x0403 => (s.finishStart c, s)
    | 0x0404 => (s.finishStop c, s)
    | 0x0501 => wrap (s.finishEnroll c)
    | 0x0502 => wrap (s.finishManifest c)
    | 0x0503 => (match c.result with
      | some r => wrap (s.finishFetch c r)
      | none => (none, s))
    | 0x0701 => (figure, s)
    | 0x0702 => wrap (s.finishScrub c x.errs)
    | 0x0902 => s.finishRetire c
    | 0x0903 => (s.finishLane c, s)
    | 0x0904 => (figure, s)
    | 0x0A01 => wrap (s.finishAudit c)
    | 0x0B01 => s.finishAttest c
    | 0x0B02 => wrap (s.finishStage c)
    | _ => (figure, s)

/-- The command of a channel and TAG completes if it is due. -/
def State.asyncComplete (s : State) (ch tag : Nat) (x : QExt) : State :=
  if !s.serving then s
  else match s.findCmd ch tag with
    | none => s
    | some c =>
      match s.asyncEnd c x with
      | (none, s1) => s1
      | (some r, s1) =>
        match s1.findCmd ch tag with
        | some d => (s1.endCmd d r).signNext
        | none => s1

/-! ## Layouts and commands -/

/-- DMA_COPY. -/
def layCopy : Layout :=
  { opcode := 0x0701, async := true, by_ := [1], uses := [(0, 15), (24, 8)],
    ok := fun c => field (c.a 31 1) 1 3 ≤ 6 && field (c.a 31 1) 4 4 == 0 }
/-- MEM_SCRUB. -/
def layScrub : Layout :=
  { opcode := 0x0702, async := true, by_ := [1, 6], uses := [(0, 1), (8, 16)],
    ok := fun c => c.a 8 8 % 1024 == 0 && c.a 16 8 % 1024 == 0 && c.a 8 8 + c.a 16 8 ≤ 2 ^ 40 }
/-- ENERGY_BUDGET_SET. -/
def layBudget : Layout := { opcode := 0x0801, by_ := [1, 4, 6], uses := [(0, 4), (8, 8)] }
/-- ENERGY_REPORT. -/
def layReport : Layout :=
  { opcode := 0x0802, by_ := [1, 4, 5, 6], uses := [(0, 9)], ok := fun c => 1 ≤ c.a 8 1 && c.a 8 1 ≤ 126 }
/-- RETUNE_REQUEST. -/
def layRetune : Layout := { opcode := 0x0803, by_ := [1, 6], uses := [(0, 1), (8, 8)] }
/-- REPAIR_STATUS. -/
def layRepair : Layout := { opcode := 0x0901, by_ := [1, 4, 5, 6] }
/-- TILE_RETIRE. -/
def layTileRetire : Layout :=
  { opcode := 0x0902, async := true, by_ := [1, 6], uses := [(0, 2), (8, 8)], ok := fun c => c.a 0 2 < 544 }
/-- LANE_RETIRE. -/
def layLaneRetire : Layout :=
  { opcode := 0x0903, async := true, by_ := [1, 6], uses := [(0, 2)], ok := fun c => c.a 0 1 < 8 && c.a 1 1 < 30 }
/-- HBM_ROW_REPAIR. -/
def layRowRepair : Layout :=
  { opcode := 0x0904, async := true, by_ := [1, 6], uses := [(0, 2), (4, 4)], ok := fun c => c.a 0 1 < 8 && c.a 1 1 < 32 }
/-- LEDGER_AUDIT. -/
def layAudit : Layout :=
  { opcode := 0x0A01, async := true, by_ := [1, 4, 6], uses := [(0, 4)], ok := fun c => c.a 0 4 < 256 }
/-- TELEMETRY_READ. -/
def layTelemetry : Layout := { opcode := 0x0A02, by_ := [1, 4, 5, 6], uses := [(0, 1)], ok := fun c => c.a 0 1 ≤ 5 }
/-- TELEMETRY_STREAM. -/
def layStream : Layout :=
  { opcode := 0x0A03, by_ := [1, 6], uses := [(0, 1), (2, 2), (8, 16)], ok := fun c => c.a 0 1 ≤ 0x3F && c.a 20 4 < 1024 }

/-- DMA_TRANSFER_COMPLETE (R191). -/
def execDmaTransferComplete (ch : Fin 8) (x : QExt) (s : State) : Host.Outcome State Fault Refusal := .next (s.dmaDone ch.val x)
/-- DMA_COPY (R475). -/
def execDmaCopy (ch : Fin 64) (s : State) : Host.Outcome State Fault Refusal := .next (s.serve ch.val layCopy [] fun c z => z.dmaCopy c)
/-- MEM_SCRUB (R475). -/
def execMemScrub (ch : Fin 64) (s : State) : Host.Outcome State Fault Refusal :=
  .next (s.serve ch.val layScrub [] fun _ z => ({ status := Status.accepted }, z))
/-- ENERGY_BUDGET_SET (R491). -/
def execEnergyBudgetSet (ch : Fin 64) (s : State) : Host.Outcome State Fault Refusal :=
  .next (s.serve ch.val layBudget [] fun c z =>
    let (st, t, z1) := z.budgetSet (c.a 0 4) (c.a 8 8)
    ({ status := st, args := argAt 0 8 t }, z1))
/-- ENERGY_REPORT (R488). -/
def execEnergyReport (ch : Fin 64) (s : State) : Host.Outcome State Fault Refusal :=
  .next (s.serve ch.val layReport [] fun c z => (z.energyReport c, z))
/-- RETUNE_REQUEST (R254). -/
def execRetuneRequest (ch : Fin 64) (s : State) : Host.Outcome State Fault Refusal :=
  .next (s.serve ch.val layRetune [] fun c z => z.retuneCmd c)
/-- REPAIR_STATUS (R475). -/
def execRepairStatus (ch : Fin 64) (s : State) : Host.Outcome State Fault Refusal :=
  .next (s.serve ch.val layRepair [] fun _ z => ({ status := 0, body := z.repairBody }, z))
/-- TILE_RETIRE (R526). -/
def execTileRetire (ch : Fin 64) (s : State) : Host.Outcome State Fault Refusal :=
  .next (s.serve ch.val layTileRetire [] fun c z => z.tileRetire c)
/-- LANE_RETIRE (R385). -/
def execLaneRetire (ch : Fin 64) (s : State) : Host.Outcome State Fault Refusal :=
  .next (s.serve ch.val layLaneRetire [] fun c z => z.laneRetire c)
/-- HBM_ROW_REPAIR (R210). -/
def execHbmRowRepair (ch : Fin 64) (s : State) : Host.Outcome State Fault Refusal :=
  .next (s.serve ch.val layRowRepair [] fun c z => z.rowRepair c)
/-- LEDGER_AUDIT (R516). -/
def execLedgerAudit (ch : Fin 64) (s : State) : Host.Outcome State Fault Refusal :=
  .next (s.serve ch.val layAudit [] fun _ z => ({ status := Status.accepted }, z))
/-- TELEMETRY_READ (R484): a record is cut to the body of a reply. -/
def execTelemetryRead (ch : Fin 64) (s : State) : Host.Outcome State Fault Refusal :=
  .next (s.serve ch.val layTelemetry [] fun c z => ({ status := 0, body := (z.groupRecord (c.a 0 1) z.transit).take 4032 }, z))
/-- TELEMETRY_STREAM (R484). -/
def execTelemetryStream (ch : Fin 64) (s : State) : Host.Outcome State Fault Refusal :=
  .next (s.serve ch.val layStream [] fun c z => z.telemetryStream c)
/-- TELEMETRY_RECORD (R484). -/
def execTelemetryRecord (i g : Nat) (s : State) : Host.Outcome State Fault Refusal := .next (s.telemetryRecord i g)
/-- ASYNC_COMMAND_COMPLETE (R469). -/
def execAsyncCommandComplete (ch : Fin 64) (tag : BitVec 64) (x : QExt) (s : State) : Host.Outcome State Fault Refusal :=
  .next (s.asyncComplete ch.val tag.toNat x)

end Sys2Proof.Machine
end

