-- ==== Sys2Proof/Machine/Resets.lean ====
section
/-!
DEFINITION. Resets, power gating, the boot ROM, the start of firmware and the change of the active core (reset tables R67, R215,
R245, R266, R333, R362, R392, R416, R441, R465, R512, R532; R423 to R426, R444, R445, R450, R458, R459, R509, R517, R518, R545 to
R548).
-/
namespace Sys2Proof.Machine

/-! ## Tiles (R65 to R67) -/

/-- Queue operations of a tile outstanding. -/
def State.opsOf (s : State) (p : Nat) : Nat := ((s.mqe (districtOf p)).ops.filter fun o => o.tile == p).length

/-- Whether a tile's district is power-gated. -/
def State.districtGated (s : State) (d : Nat) : Bool := s.clkState d == clkGated

/-- Reset a tile to STOPPED with STOP_AT_MERIDIAN set; its queue operations are returned (R517). -/
def State.tileToStopped (s : State) (p : Nat) : State :=
  let n := s.opsOf p
  let z := (s.resetTile p .stopped).fset (R.tilCtl p) F.tilCtl_STOP_AT_MERIDIAN 1
  z.returned 4 n (z.opsOf p)

/-- A tile of the running program that no RESTART hole covers cannot rejoin after a reset: firmware restarts the program (R293), which
begins with its stop at the next meridian (log 100). -/
def State.restartIfLost (s : State) (p : Nat) : State :=
  let l := s.ltileOf p
  if s.running && (blockTiles s.prog.secs).contains l && !(s.holes.any fun h => h.2.1 ≤ l && l ≤ h.2.2) then
    s.stopFrom (s.transit + 1) Status.aborted else s

/-- A write of TILE_RESET = 1. -/
def State.tileReset (s : State) (p : Nat) : State :=
  match (s.tile p).issue.status with
  | .idle | .stopped | .faulted => (s.tileToStopped p).restartIfLost p
  | _ => s

/-- A write of POWER_GATE = 1. -/
def State.tileGate (s : State) (p : Nat) : State :=
  match (s.tile p).issue.status with
  | .idle | .stopped | .faulted => s.gateTile p
  | _ => s

/-- A write of POWER_GATE = 0. -/
def State.tileUngate (s : State) (p : Nat) : State :=
  if s.fget (R.tilCtl p) F.tilCtl_POWER_GATE = 1 ∧ ¬s.districtGated (districtOf p) then s.tileToStopped p
  else s.fset (R.tilCtl p) F.tilCtl_POWER_GATE 0

/-- A write of STOP_AT_MERIDIAN. -/
def State.stopAtWrite (s : State) (p : Nat) (v : Bool) : State := s.fset (R.tilCtl p) F.tilCtl_STOP_AT_MERIDIAN (b2n v)

/-- Whether a tile may start at the next meridian: one of the running program that a reset left STOPPED rejoins only at a meridian
whose phase is a RESTART hole covering it (R293). -/
def State.mayRejoin (s : State) (p : Nat) : Bool :=
  let l := s.ltileOf p
  !(s.running && (s.tile p).issue.wiped && (blockTiles s.prog.secs).contains l) || s.holeAt (s.transit + 1) l

/-- Firmware writes STOP_AT_MERIDIAN: it clears the bit of a tile that is to rejoin within the transit that precedes the hole (R67,
R293). -/
def State.stopAtCmd (s : State) (p : Nat) (v : Bool) : State := if v || s.mayRejoin p then s.stopAtWrite p v else s

/-! ## Districts (R67, R215, R259, R264, R266, R529) -/

/-- Tiles, memory queues and crossings of a district as its reset leaves them, before calibration. -/
def State.clearDistrict (s : State) (d : Nat) (gated : Bool) : State :=
  let n := (s.mqe d).ops.length
  let s1 := s.cancelOps d fun _ => true
  let s2 := (List.range 17).foldl (fun z k =>
    let p := d * 17 + k
    if bit (z.capo d).retired k then z else z.resetTile p (if gated then .powerGated else .idle)) s1
  let s3 := s2.resetRegs fun o =>
    (R.mqeQstatN d 0 ≤ o && o ≤ R.mqeQstatN d 63) || o == R.clkStretchLast d || o == R.clkStretchMax d || o == R.clkDroopCount d ||
    o == R.clkXstat d || o == R.clkHalt d
  let c := s3.clk d
  let s4 := s3.setClk d { cyc := c.cyc, at_ := c.at_, failedResets := c.failedResets, retire := c.retire, failed := c.failed }
  { s4 with mqes := tset {} s4.mqes d {} }.returned 4 n 0

/-- Calibration after a district reset (R264, R529): a district that was FAILED runs in for a transit before it is RUNNING; one whose
calibration fails has failed the reset. -/
def State.calibrateReset (s : State) (d xin xout : Nat) : State :=
  let c := s.clk d
  let s1 := (s.setClk d { c with failed := false, trial := some s.transit }).calibrate d xin xout
  if s1.clkState d = clkCal ∧ !c.failed then
    (s1.setClk d { s1.clk d with trial := none, failedResets := 0 }).setClkState d clkRunning
  else s1.retireIfFailing d

/-- A district reset; a power-gated district is not reset. -/
def State.districtReset (s : State) (d xin xout : Nat) : State :=
  if s.districtGated d then s else (s.clearDistrict d false).calibrateReset d xin xout

/-- A district is power-gated, or leaves gating with a calibration at the setting in force; a retired district stays gated. -/
def State.districtGate (s : State) (d : Nat) (on : Bool) (xin xout : Nat) : State :=
  if on then (if s.districtGated d then s else (s.clearDistrict d true).setClkState d clkGated)
  else if !s.districtGated d || (s.capo d).retired == 2 ^ 17 - 1 then s
  else (s.clearDistrict d false).calibrate d xin xout

/-- CLOCK_FAULT, and the retirement of a district that fails again within a transit of its reset (R250, R529). -/
def State.clockFaulted (s : State) (d ps : Nat) (lost : Bool) : State := (s.clockFault d ps lost).retireIfFailing d

/-! ## Ports (R245, R333, R362, R389, R392, R416) -/

/-- The registers of a port that a port reset returns to their reset values. -/
def portResetReg (p o : Nat) : Bool :=
  (0x7000000 + p * 0x10000 ≤ o && o < 0x7000000 + (p + 1) * 0x10000 &&
    !(o == R.lnkCtl p || o == R.lnkDownTime p || o == R.lnkAckCtl p || o == R.lnkLaneCtl p)) ||
  o == R.fabAlign p || o == R.fabCountVec p || o == R.fabCountErr p || o == R.svcPortNTraffic p || o == R.svcPortNEvents p ||
  o == R.ngtPortNDelay p || o == R.ngtPortNOffset p || o == R.topPortNDisc p || o == R.topPortNNbrId p

/-- A port is reset and enters state `st`: DOWN by FORCE_DOWN if that is set. Packets queued are discarded and counted, packets
in the replay buffer are returned. -/
def State.portClear (s : State) (p : Nat) (st : LinkState) : State :=
  let l := s.link p
  let s0 := if l.draining.isSome then s.endDrain p 3 else s
  let n := s0.occupancy p
  let lost := (s0.outQ p).length
  let forced := s0.fget (R.lnkCtl p) F.lnkCtl_FORCE_DOWN = 1 ∧ st = .training
  let s1 := s0.resetRegs (portResetReg p)
  let fresh : Link := { st := if forced then .down else st, downReason := if forced then 5 else 0, rxRetired := l.rxRetired,
                        txRetired := l.txRetired }
  let s2 := ((s1.setLink p fresh).fset (R.lnkCtl p) F.lnkCtl_GATE 0).fset (R.fabCtl p) F.fabCtl_ENABLE 0
  let s3 := ((s2.setFab p {}).setOutQ p []).fset (R.svcPortNEvents p) F.svcPortNEvents_DISCARDS (satN 16 lost)
  let s4 : State := { s3 with svc := { s3.svc with fig := tset {} s3.svc.fig p {} },
                              ngt := { s3.ngt with exch := tdel s3.ngt.exch p, exchSeq := tdel s3.ngt.exchSeq p,
                                                   slot := tdel s3.ngt.slot p, done := tdel s3.ngt.done p, sentRec := tdel s3.ngt.sentRec p } }
  let s5 := (s4.fset (R.ngtPortNAsym p) F.ngtPortNAsym_REJECTED 0).checkDelay p
  let miss (z : State) (b : Bool) : State := if z.parentOf b = p then z.domainMissing b else z
  ((miss (miss s5 false) true).returned 3 n 0).portNotice p

/-- State a port takes after its reset: training starts once firmware is verified (R389). -/
def State.portFresh (s : State) : LinkState := if s.fget R.secStatus F.secStatus_BOOT_STATE = 1 then .training else .reset

/-- A port reset. -/
def State.portReset (s : State) (p : Nat) : State := if (s.link p).st = .disabled then s else s.portClear p s.portFresh

/-- A port is power-gated, or has its power restored. -/
def State.portGate (s : State) (p : Nat) (on : Bool) : State :=
  if on then (if (s.link p).st = .disabled then s else s.portClear p .disabled)
  else if (s.link p).st = .disabled then s.portClear p s.portFresh
  else s

/-! ## Sides and the endpoint (R450, R459, R465) -/

/-- Host-tier queue operations in flight fail (R215). -/
def State.failHostOps (s : State) : State :=
  (List.range 32).foldl (fun z d => (z.mqe d).ops.foldl (fun y o => match tierOf o.addr with
    | .host _ _ => y.failOp d o o.addr s.ngt.now
    | _ => y) z) s

/-- DMA transfers in progress end ABORTED, and so do the sequences DMA channels own (R215, R362): the first of a channel had copied
a part of its bytes, free values where the host gave them, those behind it none. -/
def State.abortDma (s : State) : State :=
  let cut (z : State) (x : Xfer) : State :=
    { z with draws := z.draws + x.len }.cutCopy x ((List.range x.len).map fun i => Config.freeByte (z.draws + i))
  let s1 := s.stw.dma.foldl (fun z e => match e.2 with
    | [] => z
    | x :: rest => rest.foldl (fun y w => y.settleCopy w Status.aborted 0) (cut z x)) s
  let s2 : State := { s1 with stw := { s1.stw with dma := [] } }
  s2.svc.ctx.foldl (fun z e => e.2.flight.foldl (fun y q => match q.owner with
    | .dma c => (y.forget (.dma c)).svcEnded e.1 q.tag Status.aborted
    | _ => y) z) s2

/-- Chunks outstanding at HOST sources go to other sources (R441). -/
def State.abandonHostChunks (s : State) : State :=
  (List.range s.sec.fetches.length).foldl (fun z i => match z.sec.fetches[i]? with
    | none => z
    | some f =>
      let gone := f.out.filter fun o => match f.sources[o.src]? with | some x => x.kind == 2 | none => false
      gone.foldl (fun y o => y.chunkMissed i o false) z) s

/-- What a function-level and a conventional reset share: the HOST side, configuration space (with it the size of BAR2, whose BASE is
kept), the MSI-X table, the PTM pair, the host's NGT_NOW latch, and the transfers that need the host. -/
def State.endpointReset (s : State) (ready : Bool) : State :=
  let s1 := (s.failHostOps.abortDma.abandonHostChunks).sideReset .host
  let s2 := ((s1.resetRegs fun o => o == R.ngtPtmHost || o == R.ngtPtmNgt).fset R.ngtPtmCtl F.ngtPtmCtl_SEQ 0).fset R.ngtPtmCtl
    F.ngtPtmCtl_ACTIVE 0
  let s3 := (s2.fset R.devEvent F.devEvent_MASK 15).fset R.pciLink F.pciLink_BME 0
  let s4 := s3.fset R.pciBar2 F.pciBar2_SIZE_LOG2 36
  { s4 with stw := { s4.stw with pcie := { ready := ready, clocking := s.stw.pcie.clocking }, msix := [] }, ngt := { s4.ngt with ptmSent := none, ptmLast := none, ptmPrev := none, latchHost := 0 } }

/-- A function-level reset. -/
def State.flr (s : State) : State := s.endpointReset s.stw.pcie.ready

/-- A conventional reset: the link is down, and straps 2 and 3 are sampled at the release of PERST_N (R547). -/
def State.conventional (s : State) (straps : Nat) : State :=
  if s.enr.failed then s
  else
    let s1 := (s.endpointReset false).resetReg R.pciLink
    { s1 with pins := { s1.pins with straps := BitVec.ofNat 4 (putField s1.pins.straps.toNat 2 2 straps) } }

/-! ## Cold and warm reset (R545 to R547) -/

/-- Calibrate every district that is not retired whole. -/
def State.calibrateAll (s : State) (cal : List (Nat × Nat)) : State :=
  (List.range 32).foldl (fun z d =>
    if (z.capo d).retired = 2 ^ 17 - 1 then z.setClkState d clkGated
    else
      let x := cal.getD d (0, 0)
      z.calibrate d x.1 x.2) s

/-- A link as a warm or cold reset leaves it: only its retired lanes, and power gating at a warm reset, stay. -/
def Link.afterReset (l : Link) (cold : Bool) : Link :=
  { st := if !cold && l.st == .disabled then .disabled else .reset, rxRetired := l.rxRetired, txRetired := l.txRetired }

/-- Every port's link after a warm or cold reset. -/
def State.linksReset (s : State) (cold : Bool) : List (Nat × Link) :=
  (List.range 8).foldl (fun t p => tset {} t p ((s.link p).afterReset cold)) []

/-- A cold reset: what MRAM, the fuses and the world outside hold stays, everything else takes its reset value, and HBM is zero. -/
def State.coldReset (s : State) (b : BootData) : State :=
  let kept := s.regs.filter fun e => e.1 == R.secBootCtl || e.1 == R.secTrustSeq
  let rows := (s.ras.rows.filter (·.moved ≠ 0)).map fun (r : SramRow) => { r with ces := [], ue := false }
  let hrows := (s.ras.hbmRows.filter fun (r : HbmRow) => 2 ≤ r.repaired).map fun (r : HbmRow) => { r with entry := none }
  let k := s.cancelAll
  let z : State :=
    { regs := kept, capos := s.capos, links := s.linksReset true, cfg := s.cfg, draws := k.draws, pending := s.pending,
      clks := s.clks.map fun (e : Nat × Clk) => (e.1, { cyc := e.2.cyc, failedResets := e.2.failedResets }),
      top := { active := s.top.active },
      sec := { svnFuse := s.sec.svnFuse, trust := s.sec.trust, slotA := s.sec.slotA, slotB := s.sec.slotB,
               committed := s.sec.committed, rejected := s.sec.rejected },
      stw := { coreRetired := s.stw.coreRetired, toHost := k.stw.toHost, fills := s.stw.fills },
      enr := { save := s.enr.save },
      ras := { log := s.ras.log, nextIndex := s.ras.nextIndex, acks := s.ras.acks, epoch := s.ras.epoch, epochOpen := s.ras.epochOpen,
               rows := rows, hbmRows := hrows, stretch := s.ras.stretch },
      pins := { straps := b.straps } }
  let z1 : State := { z with clks := z.clks.filter fun (e : Nat × Clk) => e.2 ≠ ({} : Clk) }
  (z1.fset R.pwrRailStatus F.pwrRailStatus_GOOD b.railsGood.toNat).calibrateAll b.cal

/-- Registers a warm reset keeps. -/
def warmKeeps (o : Nat) : Bool :=
  o == R.ngtEpochId || o == R.ngtStatus || o == R.ngtRole || o == R.ngtServoCtl || o == R.ngtServoThresh || o == R.ngtHoldover ||
  o == R.ngtPpsCtl || (0x30100 ≤ o && o < 0x30180 && o % 16 == 8) ||
  o == R.enrCtl || o == R.enrBudget || (0x40100 ≤ o && o < 0x401C0 && o % 16 == 0) ||
  (0x1000000 ≤ o && o < 0x1020000 && (o % 0x1000 == 0 || o % 0x1000 == 8)) || o == R.clkRetune ||
  (0x5000000 ≤ o && o < 0x5800000) ||
  (0x7000000 ≤ o && o < 0x7080000 && (o % 0x10000 == 0 || o % 0x10000 == 0x10 || o % 0x10000 == 0x18 || o % 0x10000 == 0x48)) ||
  o == R.svcCtl || o == R.svcVcWeight || (0x8200000 ≤ o && o < 0x8300000) ||
  o == R.topStatus || o == R.topAlmanacId || o == R.topAlmanacSeq ||
  o == R.ldgCtl || o == R.ldgEpoch || o == R.rasCtl || o == R.rasScrubCtl || o == R.secBootCtl || o == R.secTrustSeq ||
  (0xD000000 ≤ o && o < 0xD001000)

/-- The triggers and captures across a warm reset (R245): MODE 0 and no pulse, the trigger's other fields kept; captures emptied,
their edges selected as before. -/
def State.warmTrigs (s z : State) : State :=
  let keep (y : State) (o : Nat) (f : RField) : State := y.fset o f (s.fget o f)
  (List.range 4).foldl (fun y n =>
    let c := R.ngtTrigNCtl n
    let y1 := (y.setReg (R.ngtTrigNTime n) (s.reg (R.ngtTrigNTime n))).setReg c (s.reg c)
    keep (y1.fset c F.ngtTrigNCtl_MODE 0) (R.ngtCaptNCtl n) F.ngtCaptNCtl_EDGE) z

/-- The time unit across a warm reset (R245). -/
def State.warmTime (s : State) : State :=
  let was := s.ngtState
  let dom (z : State) (b : Bool) : State :=
    if z.masterOf b then z else z.setDom b (if z.parentOf b > 7 then 0 else 1)
  let n := s.ngt
  let s1 := dom (dom s false) true
  let s2 := s1.fset R.ngtStatus F.ngtStatus_STATE
    (if was = ngtLocked then ngtHold else if was = ngtMaster then ngtMaster else ngtFree)
  let s3 := (List.range 8).foldl (fun z p => z.fset (R.ngtPortNAsym p) F.ngtPortNAsym_REJECTED 0) s2
  let s4 : State := { s3 with ngt := { now := n.now, integ := n.integ, y := n.y, eLast := n.eLast, eMeas := n.eMeas,
                                       holdStart := n.holdStart, ppsA := n.ppsA, ppsB := n.ppsB } }
  let s5 := s4.ppsTrack
  if was = ngtLocked then s5.setNgt { s5.ngt with holdStart := n.now, y := s5.slewed n.integ } else s5

/-- PEER_RESET bits of the channels whose requests a reset returned (R517). -/
def State.peerResetBits (s : State) (chans : List Nat) : State :=
  chans.foldl (fun z n => z.setReg (R.dblStatusN n) (z.reg (R.dblStatusN n) ||| BitVec.ofNat 64 (2 ^ halfBit false 2))) s

/-- Channels with a request outstanding. -/
def reqChans (rs : List (Nat × Request)) : List Nat := sinsAll [] ((rs.filter fun e => e.2.st != .free).map (·.2.chan))

/-- Every ledger is reconciled: the items returned are counted, and none may be left. -/
def State.reconcileAll (s : State) (counts : List Nat) : State :=
  (List.range 8).foldl (fun z n =>
    if n = 6 then z else z.returned n (counts.getD n 0) (z.ledgerOut n)) s

/-- A warm reset. -/
def State.warmReset (s0 : State) (b : BootData) : State :=
  let s := s0.drainAll
  let counts := (List.range 8).map s.ledgerOut
  let k := s.cancelAll
  let z : State :=
    { s with
      hbm := k.hbm, hbmPoison := k.hbmPoison, draws := k.draws
      regs := s.regs.filter fun e => warmKeeps e.1
      tiles := [], mqes := [], wins := [], mesh := [], meshClaims := [], fabs := [], svc := {}, prog := {}, reqDone := []
      reqs := (s.reqs.map fun (e : Nat × Request) => (e.1, ({ gen := e.2.gen } : Request))).filter fun (e : Nat × Request) => e.2 ≠ ({} : Request)
      clks := (s.clks.map fun (e : Nat × Clk) => (e.1, ({ cyc := e.2.cyc, failedResets := e.2.failedResets } : Clk))).filter fun (e : Nat × Clk) => e.2 ≠ ({} : Clk)
      links := s.linksReset false
      top := { staged := s.top.staged, active := s.top.active }
      sec := { s.sec with fetches := [], stage := none, running := [],
                          manifests := s.sec.manifests.map fun (e : Nat × Manifest) => (e.1, { e.2 with serving := false }) }
      stw := { coreFailed := s.stw.coreFailed, coreRetired := s.stw.coreRetired, toHost := k.stw.toHost, fills := s.stw.fills }
      enr := { readySeen := s.enr.readySeen, save := s.enr.save, failed := s.enr.failed, saved := s.enr.saved }
      ras := { s.ras with tileUe := [], latent := [], due := [], contained := s.pins.thermtrip }
      pins := { s.pins with straps := b.straps } }
  let s1 := s.warmTrigs z.warmTime
  let s2 := (List.range 8).foldl (fun y p => y.fset (R.lnkCtl p) F.lnkCtl_GATE 0) s1
  let s3 := (((s2.fset R.clkRetune F.clkRetune_PENDING 0).fset R.enrBudget F.enrBudget_PENDING 0).fset R.enrBudget
    F.enrBudget_PENDING_MW 0).fset R.topStatus F.topStatus_ADMIT (b2n s2.placed)
  let s4 := (List.range 32).foldl (fun y d => y.fset (R.clkStatus d) F.clkStatus_STRETCH_NOW 0) s3
  let s5 := (s4.calibrateAll b.cal).peerResetBits (reqChans s.reqs)
  let s6 := (s5.reconcileAll counts).fset R.ldgStatus F.ldgStatus_SUSPENDED (b2n s.pins.thermtrip)
  { s6 with ras := { s6.ras with epochOpen := s.ras.epochOpen && s.pins.thermtrip } }

/-- SYSRST_N: a cold reset in the saved state, nothing while a save is written, otherwise a warm reset (R508, R546). -/
def State.sysReset (s : State) (b : BootData) : State :=
  if s.enr.saved then s.coldReset b
  else if s.enr.failed then s
  else s.warmReset b

/-- A write of DEV_RESET: WARM with the key. -/
def State.devReset (s : State) (who : Ident) (key : Nat) (b : BootData) : State :=
  match who with
  | .host | .stw0 | .stw1 | .dbg => if key = 0x5752 ∧ ¬s.enr.failed then s.warmReset b else s
  | _ => s

/-! ## The boot ROM (R423, R424, R426, R458, R546) -/

/-- The cores as the boot ROM leaves their marks, and the core it runs on; none if neither passes its self-test. A core that failed
in service is tested again. -/
def State.bootCore (s : State) (pass0 pass1 : Bool) : Option Nat × State :=
  let pass (k : Nat) : Bool := if k = 0 then pass0 else pass1
  let marks := (List.range 2).filter fun k => s.stw.coreRetired.contains k || (s.stw.coreFailed.contains k && !pass k)
  let put (m : List Nat) : State := { s with stw := { s.stw with coreRetired := m, coreFailed := [] } }
  if marks = [0, 1] then
    (if pass0 then (some 0, put [1]) else if pass1 then (some 1, put [0]) else (none, put [0, 1]))
  else (some (if marks.contains 0 then 1 else 0), put marks)

/-- The device stays in the boot ROM. -/
def State.bootFailed (s : State) : State := (s.fset R.secStatus F.secStatus_BOOT_STATE 2).devState 1

/-- An image is started on the boot core and the other core released; every port leaves RESET. With THERMTRIP_N latched the device
stays in containment. -/
def State.startImage (s : State) (core : Nat) (img : List Byte) (slot : Nat) : State :=
  let o := R.secStatus
  let s1 := ((((s.fset o F.secStatus_BOOT_STATE 1).fset o F.secStatus_BOOT_SLOT slot).fset o F.secStatus_RUN_SVN (imgSvn img)).fset o
    F.secStatus_RECOVERY (b2n (slot == 2))).fset o F.secStatus_KEYS_IN_FORCE s.keysInForce
  let s2 := (s1.fset R.devStatus F.devStatus_ACTIVE_STW core).fset R.devStatus F.devStatus_STANDBY_OK
    (b2n (!s.stw.coreRetired.contains (1 - core)))
  let s3 : State := { s2 with sec := { s2.sec with running := img, committed := s2.sec.committed && !(b2n s2.pref == slot) } }
  let s4 := (List.range 8).foldl (fun z p =>
    let l := z.link p
    if l.st ≠ .reset then z
    else if z.fget (R.lnkCtl p) F.lnkCtl_FORCE_DOWN = 1 then z.setLink p { l with st := .down, downReason := 5 }
    else z.setLink p { l with st := .training }) s3
  s4.devState (if s4.pins.thermtrip then 4 else 2)

/-- A slot is rejected for a reason (R439). -/
def State.rejectSlot (s : State) (k : Bool) (reason : Nat) : State :=
  let s1 := s.fset R.secBootCtl (if k then F.secBootCtl_REJECT_B else F.secBootCtl_REJECT_A) 1
  { s1 with sec := { s1.sec with rejected := s1.sec.rejected ++ [(k, reason)] } }

/-- Try the slots in turn. -/
def State.trySlots (s : State) (core : Nat) : List Bool → State
  | [] => s.bootFailed
  | k :: rest =>
    match s.imgBar (s.slot k) with
    | none => s.startImage core (s.slot k) (b2n k)
    | some r => (s.rejectSlot k r).trySlots core rest

/-- Boot from MRAM: PREF first; a slot on trial is given up at its fourth boot. -/
def State.bootMram (s : State) (core : Nat) : State :=
  let p := s.pref
  if s.trial ∧ s.fget R.secBootCtl F.secBootCtl_TRIES = 3 then
    let s1 := s.rejectSlot p 0
    (((s1.fset R.secBootCtl F.secBootCtl_PREF (b2n (!p))).fset R.secBootCtl F.secBootCtl_TRIAL 0).fset R.secBootCtl
      F.secBootCtl_TRIES 0).trySlots core [!p]
  else
    let s1 := if s.trial then s.fset R.secBootCtl F.secBootCtl_TRIES (s.fget R.secBootCtl F.secBootCtl_TRIES + 1) else s
    s1.trySlots core [p, !p]

/-- The binding the boot ROM makes: channel 32, BMC to the boot core. -/
def bindWord (a b vec : Nat) : BitVec 64 := BitVec.ofNat 64 (2 ^ 63 + vec * 2 ^ 48 + b * 2 ^ 8 + a)

/-- The boot ROM runs: `pass0` and `pass1` are the cores' self-tests, `recovery` the image the BMC sends with the recovery strap. -/
def State.bootRom (s : State) (pass0 pass1 : Bool) (recovery : List Byte) : State :=
  let st := s.fget R.devStatus F.devStatus_STATE
  let strap := field s.pins.straps.toNat 0 2
  let due := st == 0 && s.fget R.secStatus F.secStatus_BOOT_STATE == 0
  let again := st == 1 && strap == 1
  if !(due || again) || s.enr.failed || s.fget R.pwrRailStatus F.pwrRailStatus_GOOD ≠ 2 ^ 11 - 1 then s
  else match s.bootCore pass0 pass1 with
    | (none, s1) => s1.bootFailed
    | (some core, s1) =>
      let s2 := s1.setReg (R.mbxBindN 32) (bindWord 4 (2 + core) 0)
      if strap = 0 then s2.bootMram core
      else if strap = 1 then
        (match s2.imgBar recovery with
         | none => s2.startImage core recovery 2
         | some _ => s2.bootFailed)
      else s2.bootFailed

/-! ## Firmware start (R420, R423, R441, R458, R509, R518) -/

/-- The save is taken, or found incomplete: the items it lists are returned and its records join the log. -/
def State.takeSave (s : State) : State :=
  let v := s.enr.save
  if v.st = 2 ∧ v.digestOk then
    let s1 := (List.range 8).foldl (fun z n => if n = 6 then z else z.returned n (v.items.getD n 0) 0) s
    let s2 := v.log.foldl (fun z r => z.logRecord r) s1
    { s2 with enr := { s2.enr with save := { v with st := 3 } } }
  else if v.st = 1 ∨ v.st = 2 then s.record 0x0B06 1 {} 0
  else s

/-- The epoch check: `saved` says whether a complete save was found. -/
def State.epochCheck (s : State) (saved : Bool) : State :=
  let e := s.ras.epoch
  let bad := s.ras.epochOpen && !(saved && s.enr.save.epoch == e)
  let s1 := if bad then (s.record 0x0C02 1 {} 0).fset R.ldgStatus F.ldgStatus_EPOCH_MISMATCH 1 else s
  ({ s1 with ras := { s1.ras with epoch := e + 1, epochOpen := true } }).setReg R.ldgEpoch (BitVec.ofNat 64 (e + 1))

/-- At a cold start the stacks are trained, recorded rows are hard-repaired, and the device configuration record is loaded (R210, R229,
R489). -/
def State.coldStart (s : State) (stacksOk : Nat) : State :=
  let cold := s.fget (R.hbmStatus 0) F.hbmStatus_STATE == 0 || s.fget (R.hbmStatus 0) F.hbmStatus_STATE == 1
  if !cold then s
  else
    let s1 := (List.range 8).foldl (fun z h => z.fset (R.hbmStatus h) F.hbmStatus_STATE (if bit stacksOk h then 2 else 4)) s
    let s2 := s1.cfg.asym.foldl (fun z e => if e.1 < 8 then z.fset (R.ngtPortNAsym e.1) F.ngtPortNAsym_ASYM e.2 else z) s1
    let s3 := s2.cfg.vf.foldl (fun z e => if e.1 < 23 then z.setReg (R.pwrVfS e.1) (BitVec.ofNat 64 e.2) else z) s2
    let rows := s3.ras.hbmRows.map fun (r : HbmRow) => if r.repaired = 2 then { r with repaired := 3 } else r
    let s4 : State := { s3 with ras := { s3.ras with hbmRows := rows } }
    match s4.top.active with
    | none => s4
    | some a =>
      let (msg, sig) := almanacSigned a.raw
      if s4.verifies (almanacSigner a.raw) 1 msg sig then (s4.putInForce a).roleChanged
      else { s4 with top := { s4.top with active := none } }

/-- Held manifests whose signature no longer verifies are dropped (R441). -/
def State.recheckManifests (s : State) : State :=
  let ok (m : Manifest) : Bool := s.verifies m.signer 2 (m.bytes.take (m.bytes.length - 7856)) (m.bytes.drop (m.bytes.length - 7856))
  { s with sec := { s.sec with manifests := s.sec.manifests.filter fun e => ok e.2 } }

/-- BOOT_SLOT_REJECTED for each slot the boot ROM rejected. -/
def State.recordRejected (s : State) : State :=
  let s1 := s.sec.rejected.foldl (fun z e => z.secRecord 0x0902 (sha256 (z.slot e.1)) (b2n e.1) 0 e.2) s
  { s1 with sec := { s1.sec with rejected := [] } }

/-- Default bindings: `core` is the boot core's identity code; channels 37 to 63 from the configuration record. -/
def bindingOf (cfg : List (Nat × BitVec 64)) (core n : Nat) : BitVec 64 :=
  if n ≤ 15 then bindWord 1 core (n + 1)
  else if n ≤ 31 then bindWord core 1 (n + 1)
  else if n ≤ 34 then bindWord 4 core 0
  else if n = 35 then bindWord core 4 0
  else if n = 36 then bindWord 5 core 0
  else tget 0 cfg n

/-- Firmware writes the binding table and seals it. -/
def State.bindAll (s : State) : State :=
  let core := s.activeCode
  let s1 := (List.range 64).foldl (fun z n =>
    let w := bindingOf z.cfg.bindings core n
    if bindOk w.toNat then z.setReg (R.mbxBindN n) (BitVec.ofNat 64 (bindBits w.toNat)) else z.setReg (R.mbxBindN n) 0) s
  s1.sealSet (if core = 2 then .stw0 else .stw1)

/-- PEER_RESET goes to the steward of every remote identity bound to a channel (R459). -/
def State.tellPeers (s : State) : State :=
  let flats := (List.range 64).filterMap fun n =>
    if s.sideCode n false = 6 then some (field (s.bind n) 16 10) else if s.sideCode n true = 6 then some (field (s.bind n) 32 10) else none
  let body := leBytes 1 2 ++ leBytes 3 0 ++ leBytes 8 (s.reg R.ngtEpochId).toNat
  (sinsAll [] flats).foldl (fun z f => match z.resolve (2 ^ 31 + f) with
    | some a => z.tell a body
    | none => z) s

/-- Started firmware brings the device to READY; it selects the clocking mode of PCI Express from the configuration record (R543). -/
def State.firmwareStart (s : State) (stacksOk : Nat) : State :=
  if s.fget R.secStatus F.secStatus_BOOT_STATE ≠ 1 ∨ s.sealed ∨ s.enr.failed then s
  else
    let saved := s.enr.save.st = 2 ∧ s.enr.save.digestOk
    let s1 := (s.recordRejected.checkTrust.recheckManifests).takeSave.epochCheck saved
    let s2 := s1.coldStart stacksOk
    let s3 := (List.range 544).foldl (fun z p =>
      if bit (z.capo (districtOf p)).retired (p % 17) && (z.tile p).issue.status != .powerGated then z.gateTile p else z) s2
    let s4 := s3.bindAll
    let s5 := if saved then s4.peerResetBits (reqChans s.enr.save.reqs) else s4
    let s6 := (((if s5.running then s5 else s5.softRepair).setPcie { s5.stw.pcie with clocking := some s5.cfg.clocking }).tellPeers).armDeadline
    if s6.pins.thermtrip || s6.ras.contained then s6
    else { s6.devState 3 with enr := { (s6.devState 3).enr with readySeen := true } }

/-! ## The change of the active core (R444, R445, R463) -/

/-- A message taken by the failed core and not answered is answered from the journal, or ABORTED. -/
def State.answerJournal (s : State) : State :=
  s.stw.journal.foldl (fun z j =>
    let mine (c : AsyncCmd) : Bool := c.chan == j.chan && c.tag == j.tag
    let st := match j.result with | some r => r | none => Status.aborted
    let z1 := z.answer j.chan j.opcode j.tag { status := st }
    { z1 with stw := { z1.stw with cmds := z1.stw.cmds.filter fun c => !mine c } }) s

/-- Identity codes of a binding word with one core in place of the other. -/
def rebound (w a b : Nat) : Nat :=
  let w1 := if field w 0 3 = a then putField w 0 3 b else w
  if field w1 8 3 = a then putField w1 8 3 b else w1

/-- The standby takes over for trigger 1 watchdog, 2 machine check, 3 command; without one the steward is lost. -/
def State.takeover (s : State) (trigger : Nat) : State :=
  let a := s.fget R.devStatus F.devStatus_ACTIVE_STW
  if s.fget R.devStatus F.devStatus_STATE < 2 then s
  else if s.fget R.devStatus F.devStatus_STANDBY_OK = 0 then s.raise 0x0A02 5 {} (a + trigger * 2 ^ 8)
  else
    let b := 1 - a
    let lost := (s.stw.journal.filter fun j => j.result.isNone).length
    let s1 := (List.range 64).foldl (fun z n => z.setReg (R.mbxBindN n) (BitVec.ofNat 64 (rebound (z.bind n) (2 + a) (2 + b)))) s
    let s2 := (s1.fset R.devStatus F.devStatus_ACTIVE_STW b).fset R.devStatus F.devStatus_STANDBY_OK 0
    let s3 : State := { s2 with stw := { s2.stw with coreFailed := sins s2.stw.coreFailed a } }
    ((s3.event F.devEvent_SWITCHOVER).record 0x0A01 1 {} (a + trigger * 2 ^ 8 + lost * 2 ^ 16)).answerJournal

/-- STEWARD_SWITCHOVER: answered by the new active core. -/
def State.switchover (s : State) (c : Cmd) : Rep × State :=
  if s.fget R.devStatus F.devStatus_STANDBY_OK = 0 then ({ status := Status.notPermitted }, s)
  else
    let own := s.stw.journal.filter fun j => j.chan ≠ c.ch
    ({ status := 0 }, ({ s with stw := { s.stw with journal := own } }).takeover 3)

/-- STEWARD_SWITCHOVER. -/
def laySwitchover : Layout := { opcode := 0x0905, by_ := [1, 4] }

/-! ## Commands -/

/-- COLD_RESET (R545). -/
def execColdReset (b : BootData) (s : State) : Host.Outcome State Fault Refusal := .next (s.coldReset b)
/-- WARM_RESET (R545). -/
def execWarmReset (b : BootData) (s : State) : Host.Outcome State Fault Refusal := .next (s.sysReset b)
/-- BOOT_ROM_RUN (R423). -/
def execBootRomRun (pass0 pass1 : Bool) (recovery : List Byte) (s : State) : Host.Outcome State Fault Refusal :=
  .next (s.bootRom pass0 pass1 recovery)
/-- FIRMWARE_START (R518). -/
def execFirmwareStart (stacksOk : BitVec 8) (s : State) : Host.Outcome State Fault Refusal := .next (s.firmwareStart stacksOk.toNat)
/-- PCIE_CONVENTIONAL_RESET (R450). -/
def execPcieConventionalReset (straps : BitVec 2) (s : State) : Host.Outcome State Fault Refusal := .next (s.conventional straps.toNat)
/-- FUNCTION_LEVEL_RESET (R459). -/
def execFunctionLevelReset (s : State) : Host.Outcome State Fault Refusal := .next s.flr
/-- TRST_ASSERT (R548). -/
def execTrstAssert (s : State) : Host.Outcome State Fault Refusal := .next (s.sideReset .dbg)
/-- DISTRICT_RESET (R264). -/
def execDistrictReset (d : District) (xin xout : Nat) (s : State) : Host.Outcome State Fault Refusal :=
  .next (s.districtReset d.val xin xout)
/-- PORT_RESET (R392). -/
def execPortReset (port : Port) (s : State) : Host.Outcome State Fault Refusal := .next (s.portReset port.val)
/-- WATCHDOG_EXPIRY (R444). -/
def execWatchdogExpiry (s : State) : Host.Outcome State Fault Refusal := .next (s.takeover 1)
/-- MACHINE_CHECK (R444). -/
def execMachineCheck (s : State) : Host.Outcome State Fault Refusal := .next (s.takeover 2)
/-- TILE_RESET (R66). -/
def execTileReset (p : PTile) (s : State) : Host.Outcome State Fault Refusal := .next (s.tileReset p.val)
/-- TILE_POWER_GATE (R66). -/
def execTilePowerGate (p : PTile) (s : State) : Host.Outcome State Fault Refusal := .next (s.tileGate p.val)
/-- TILE_POWER_UNGATE (R66). -/
def execTilePowerUngate (p : PTile) (s : State) : Host.Outcome State Fault Refusal := .next (s.tileUngate p.val)
/-- STOP_AT_MERIDIAN_WRITE (R66). -/
def execStopAtMeridianWrite (p : PTile) (v : Bool) (s : State) : Host.Outcome State Fault Refusal := .next (s.stopAtCmd p.val v)
/-- DEV_RESET_WARM (R545). -/
def execDevResetWarm (who : Ident) (key : BitVec 16) (b : BootData) (s : State) : Host.Outcome State Fault Refusal :=
  .next (s.devReset who key.toNat b)
/-- STEWARD_SWITCHOVER (R444). -/
def execStewardSwitchover (ch : Fin 64) (s : State) : Host.Outcome State Fault Refusal :=
  .next (s.serve ch.val laySwitchover [] fun c z => z.switchover c)
/-- PORT_POWER_GATE (R389). -/
def execPortPowerGate (port : Port) (on : Bool) (s : State) : Host.Outcome State Fault Refusal := .next (s.portGate port.val on)
/-- DISTRICT_POWER_GATE (R259). -/
def execDistrictPowerGate (d : District) (on : Bool) (xin xout : Nat) (s : State) : Host.Outcome State Fault Refusal :=
  .next (s.districtGate d.val on xin xout)
/-- CLOCK_FAULT (R250): the period in ps, and whether the loop reports loss of lock. -/
def execClockFault (d : District) (e : ClockEvent) (s : State) : Host.Outcome State Fault Refusal :=
  .next (s.clockFaulted d.val e.ps.toNat e.lockLost)

end Sys2Proof.Machine
end

