-- ==== Sys2Proof/Machine/Access.lean ====
section
/-!
DEFINITION. Register accesses and diagnosis: who reaches which register, what a read takes and what a write does (00, R6 to R8;
01, R27 to R30; 09, R221; 17, R453, R457, R458, R464; the register tables of 02 to 20), and DIAG_READ and DIAG_WRITE (18, R475).
-/
namespace Sys2Proof.Machine

/-! ## Who reaches what (R27, R30, R450, R453) -/

/-- The instance of a shared register that holds it: CLK_RETUNE and CLK_MIN_SETTING are at the same offset of every CLK instance,
FAB_EPOCH of every FAB instance (R253, R332). -/
def canon (off : Nat) : Nat :=
  if 0x1000000 ≤ off ∧ off < 0x1020000 ∧ (off % 0x1000 = 0x100 ∨ off % 0x1000 = 0x108) then 0x1000000 + off % 0x1000
  else if 0x6000000 ≤ off ∧ off < 0x6080000 ∧ off % 0x10000 = 0x10 then R.fabEpoch
  else off

/-- Whether a register belongs to a power-gated tile, district or port and is none of those kept readable (R65, R265, R332,
R391, R453). -/
def State.gatedReg (s : State) (off : Nat) : Bool :=
  if off < 0x1000000 then false
  else if off < 0x2000000 then let d := (off - 0x1000000) / 0x1000; s.clkState d == clkGated && off != R.clkStatus d
  else if off < 0x4000000 then
    let p := (off - 0x2000000) / 0x8000
    (s.tile p).issue.status == .powerGated && off != R.tilCtl p && off != R.tilStatus p
  else if off < 0x5000000 then s.clkState ((off - 0x4000000) / 0x1000) == clkGated
  else if off < 0x6000000 then false
  else if off < 0x7000000 then let p := (off - 0x6000000) / 0x10000; (s.link p).st == .disabled && off != R.fabStatus p
  else if off < 0x8000000 then let p := (off - 0x7000000) / 0x10000; (s.link p).st == .disabled && off != R.lnkStatus p
  else false

/-- Where an access to the register space ends: at a register, in the message window, at nothing (reads 0, a write has no
effect), or in an error. -/
inductive RegPath where
  | reg (d : RegDesc)
  | window
  | nothing
  | error (k : AnswerKind)
  | absent

/-- The path of an access (R27, R30, R450, R453). The BMC and remote identities have no path to registers. -/
def State.regPath (s : State) (i : Ident) (off : Nat) : RegPath :=
  match i with
  | .bmc | .remote _ => .absent
  | .host =>
    if !s.stw.pcie.mse || 0x1000000 ≤ off then .error .unsupported
    else if 0x10000 ≤ off ∧ off < 0x11000 then .window
    else match findReg off with
      | some d => .reg d
      | none => .nothing
  | .stw0 | .stw1 | .dbg =>
    if 0x10000 ≤ off ∧ off < 0x11000 then .window
    else match findReg off with
      | some d => if s.gatedReg off then .error .busError else .reg d
      | none => .error .busError

/-- Offset of the first byte of a half. -/
def halfOff (off : Nat) (h : Half) : Nat := match h with | .high => off + 4 | _ => off
/-- Bytes of an access. -/
def halfLen : Half → Nat
  | .full => 8
  | _ => 4

/-! ## Reads (R6, R8, R221) -/

/-- A read of NGT_NOW that includes bytes 0-3 latches its count for the reader's path. -/
def State.latchNow (s : State) (i : Ident) (h : Half) : State :=
  match h with
  | .high => s
  | _ => s.setNgt (if i == .host then { s.ngt with latchHost := s.ngt.now } else { s.ngt with latchStw := s.ngt.now })

/-- The registers whose value is a measurement: each read takes a new free value. -/
def State.measured (s : State) (off : Nat) : State :=
  if off = R.pwrVkeep ∨ (0x7000000 ≤ off ∧ off < 0x8000000 ∧ 0x100 ≤ off % 0x10000) then { s with draws := s.draws + 1 } else s

/-- What a read finds counted: SVC_PORT_n_EVENTS.WAIT_FRETS up to the present fret (R359). -/
def State.countedFor (s : State) (o : Nat) : State :=
  let p := (o - R.svcPortNEvents 0) / 0x10
  if o = R.svcPortNEvents p ∧ p < 8 then s.countWait p s.nowFret else s

/-- A read of a register: the answer, then what the read clears and latches. -/
def State.regRead (s : State) (i : Ident) (off : Nat) (h : Half) : State :=
  match s.regPath i off with
  | .absent => s
  | .nothing => s.answered .ok (List.replicate (halfLen h) 0#8)
  | .error k => s.answered k (if k = .busError ∧ i = .dbg then List.replicate (halfLen h) 0#8 else [])
  | .window => s.window i (halfOff off h - 0x10000) (.rd (halfLen h))
  | .reg d =>
    let o := canon off
    let s0 := s.countedFor o
    let bs := readBytes h (d.shown (s0.word i o))
    let w := (s0.reg o).toNat
    let w1 := d.afterRead w (spanOf h)
    let s1 := if w1 = w then s0 else s0.setReg o (BitVec.ofNat 64 w1)
    let s2 := if o = R.ngtNow then s1.latchNow i h else s1.measured o
    s2.answered .ok bs

/-! ## Writes by block

`a` is what the write asks of the register, `n` the register with the effect of the access codes alone, `span` the bits the
access covers. -/

/-- Hold a word at a register. -/
def State.putReg (s : State) (off v : Nat) : State := s.setReg off (BitVec.ofNat 64 v)

/-- DEV_EVENT: the W1C bits, then the mask (R451). DEV_RESET acts in `devReset`. -/
def State.devWrite (s : State) (off a n span : Nat) : State :=
  if off = R.devEvent then
    let s1 := s.putReg off (F.devEvent_MASK.put n (s.fget off F.devEvent_MASK))
    if F.devEvent_MASK.met span then s1.eventMask (F.devEvent_MASK.of a) else s1
  else s

/-- The MBX block (R454 to R458). -/
def State.mbxWrite (s : State) (i : Ident) (off a span : Nat) : State :=
  if !s.mayAct i then s
  else if off = R.mbxWinSel then
    (if F.mbxWinSel_CHANNEL.met span then { s with stw := { s.stw with winSel := tset 0 s.stw.winSel (idKey i) (F.mbxWinSel_CHANNEL.of a) } } else s)
  else if off = R.mbxSeal then (if F.mbxSeal_SEAL.of a = 1 then s.sealSet i else s)
  else if R.mbxChnCtl 0 ≤ off ∧ off < R.mbxBindN 0 then
    let k := (off - R.mbxChnCtl 0) / 0x10
    if off = R.mbxChnCtl k then s.action i k (a % 16) else s
  else if R.mbxBindN 0 ≤ off then s.bindWrite i ((off - R.mbxBindN 0) / 8) a
  else s

/-- The DBL block (R457). -/
def State.dblWrite (s : State) (i : Ident) (off a : Nat) : State :=
  let k := (off - R.dblRingN 0) / 0x20
  if off = R.dblRingN k then s.ring i k a
  else if off = R.dblMaskN k then s.dblMask i k a
  else s.dblClear i k a

/-- NGT_PERIOD: N is fixed while VALID = 1, and its fall ends the meridians (R254). -/
def State.periodWrite (s : State) (n : Nat) : State :=
  let o := R.ngtPeriod
  let s1 := if s.valid then s else s.fset o F.ngtPeriod_N (F.ngtPeriod_N.of n)
  if F.ngtPeriod_VALID.of n = 0 ∧ s.valid then s1.endMeridians else s1.fset o F.ngtPeriod_VALID (F.ngtPeriod_VALID.of n)

/-- NGT_ROLE (R223, R235, R244): a write of both master bits has no effect on either. -/
def State.roleWrite (s : State) (a n : Nat) : State :=
  let o := R.ngtRole
  let w := (s.reg o).toNat
  let keep (f : RField) (bad : Bool) (v : Nat) : Nat := if bad then f.put v (f.of w) else v
  let both := F.ngtRole_MASTER_A.of a == 1 && F.ngtRole_MASTER_B.of a == 1
  let v := keep F.ngtRole_MASTER_A both (keep F.ngtRole_MASTER_B both (keep F.ngtRole_PARENT_A (!parentOk (F.ngtRole_PARENT_A.of a))
    (keep F.ngtRole_PARENT_B (!parentOk (F.ngtRole_PARENT_B.of a)) n)))
  let s1 := s.putReg o v
  let s2 := if field v 0 4 = field w 0 4 ∧ field v 8 8 = field w 8 8 then s1 else s1.roleChanged
  if F.ngtRole_SWITCH_REQ.of a = 1 then s2.switchReq else s2

/-- NGT_SERVO_CTL: the correction is held to the limit written (R217); with ENABLE = 0 the servo is off, y = 0, and the device is FREE
unless master. -/
def State.servoWrite (s : State) (n : Nat) : State :=
  let s1 := s.putReg R.ngtServoCtl n
  if F.ngtServoCtl_ENABLE.of n = 1 then s1.setNgt { s1.ngt with y := s1.slewed s1.ngt.y }
  else
    let s2 := s1.setNgt { s1.ngt with y := 0 }
    if s2.ngtState = ngtMaster then s2 else s2.setNgtState ngtFree 0xFF

/-- The NGT block (09). -/
def State.ngtWrite (s : State) (off a n span : Nat) : State :=
  if off = R.ngtPeriod then s.periodWrite n
  else if off = R.ngtRole then s.roleWrite a n
  else if off = R.ngtServoCtl then s.servoWrite n
  else if R.ngtPortNDelay 0 ≤ off ∧ off < R.ngtPortNOffset 0 then (s.putReg off n).checkDelay ((off - R.ngtPortNDelay 0) / 0x10)
  else if R.ngtTrigNTime 0 ≤ off ∧ off < R.ngtCaptNCtl 0 then
    let k := (off - R.ngtTrigNTime 0) / 0x20
    s.trigWrite k (off == R.ngtTrigNCtl k) a span
  else if R.ngtCaptNCtl 0 ≤ off ∧ off < R.ngtPtmCtl then
    let k := (off - R.ngtCaptNCtl 0) / 0x20
    if off ≠ R.ngtCaptNCtl k then s
    else
      let s1 := s.putReg off n
      if F.ngtCaptNCtl_POP.of a = 1 then s1.captPop k else s1
  else s.putReg off n

/-- The CLK block (10). -/
def State.clkWrite (s : State) (off a n : Nat) : State :=
  let d := (off - 0x1000000) / 0x1000
  if off % 0x1000 = 0x100 then s.retuneWrite d a
  else if off % 0x1000 = 0x108 then s.minSettingWrite (F.clkMinSetting_MIN.of a)
  else if off = R.clkDroopCtl d then s.droopCtlWrite d n
  else s.putReg off n

/-- TIL_CTL (R66): STOP_AT_MERIDIAN, then POWER_GATE if it changes, otherwise TILE_RESET. -/
def State.tilWrite (s : State) (off a n span : Nat) : State :=
  let p := (off - 0x2000000) / 0x8000
  if off ≠ R.tilCtl p then s.putReg off n
  else if !F.tilCtl_STOP_AT_MERIDIAN.met span then s
  else
    let s1 := s.stopAtWrite p (F.tilCtl_STOP_AT_MERIDIAN.of a == 1)
    let was := (s.tile p).issue.status == .powerGated
    if F.tilCtl_POWER_GATE.of a = 1 ∧ !was then s1.tileGate p
    else if F.tilCtl_POWER_GATE.of a = 0 ∧ was then s1.tileUngate p
    else if F.tilCtl_TILE_RESET.of a = 1 then s1.tileReset p else s1

/-- The MQE block (R204, R214). -/
def State.mqeWrite (s : State) (off a n : Nat) : State :=
  let d := (off - 0x4000000) / 0x1000
  if off = R.mqeCtl d then (if F.mqeCtl_CANCEL_ALL.of a = 1 then s.cancelOps d fun _ => true else s)
  else if R.mqeQcfgN d 0 ≤ off ∧ off < R.mqeQboundN d 0 then s.writeQcfg d ((off - R.mqeQcfgN d 0) / 8) a
  else s.putReg off n

/-- Whether version `v` of a port's tables may not be written (R332). -/
def State.tablesFixed (s : State) (p : Nat) (v : Bool) : Bool :=
  s.fget (R.fabCtl p) F.fabCtl_ENABLE == 1 && (s.version == v || !s.drainedNow)

/-- FAB_CTL (R332). -/
def State.fabCtlWrite (s : State) (p n : Nat) : State :=
  let o := R.fabCtl p
  let w := (s.reg o).toNat
  let on := F.fabCtl_ENABLE.of w == 1
  let v := if on then F.fabCtl_LINK_FRETS.put (F.fabCtl_REPLAY_LOG2.put n (F.fabCtl_REPLAY_LOG2.of w)) (F.fabCtl_LINK_FRETS.of w) else n
  let v1 := if !on && F.fabCtl_ENABLE.of n == 1 && s.fget (R.fabStatus p) F.fabStatus_DELAY_OK == 0 then F.fabCtl_ENABLE.put v 0 else v
  let s1 := s.putReg o v1
  if F.fabCtl_LINK_FRETS.of v1 = F.fabCtl_LINK_FRETS.of w then s1 else s1.checkDelay p

/-- A write of FAB_EPOCH (R326). -/
def State.epochWrite (s : State) (p a : Nat) : State :=
  let refused := F.fabEpoch_REFUSED.of a == 1
  if F.fabEpoch_CANCEL.of a = 1 then s.epochCancel p refused
  else if refused then s.epochClear p
  else s.epochRequest p (F.fabEpoch_AT_TRANSIT.of a)

/-- Whether a word is a fret map entry with no reserved value (R301). -/
def entryLegal (w : Nat) : Bool := field w 48 16 == 0 && field w 44 4 ≤ 8 && field w 32 12 ≠ 0

/-- The FAB block (12): a map entry with a reserved value leaves its register unchanged (R332). -/
def State.fabWrite (s : State) (off a n : Nat) : State :=
  let p := (off - 0x6000000) / 0x10000
  let r := off % 0x10000
  if off = R.fabCtl p then s.fabCtlWrite p n
  else if r = 0x10 then s.epochWrite p a
  else if off = R.fabMapCount p then
    let w := (s.reg off).toNat
    let v := if s.tablesFixed p false then F.fabMapCount_COUNT_V0.put n (F.fabMapCount_COUNT_V0.of w) else n
    s.putReg off (if s.tablesFixed p true then F.fabMapCount_COUNT_V1.put v (F.fabMapCount_COUNT_V1.of w) else v)
  else if 0x100 ≤ r ∧ r < 0x200 then (if s.tablesFixed p (r ≥ 0x180) then s else s.putReg off n)
  else if 0x4000 ≤ r then (if s.tablesFixed p (r ≥ 0x8000) || !entryLegal n then s else s.putReg off n)
  else s.putReg off n

/-- LNK_CTL (R381, R389): FORCE_DOWN, QUARANTINE and GATE where they change, then TRAIN. -/
def State.lnkCtlWrite (s : State) (p a : Nat) : State :=
  let w := (s.reg (R.lnkCtl p)).toNat
  let changed (f : RField) : Bool := f.of a != f.of w
  let s1 := if changed F.lnkCtl_FORCE_DOWN then s.forceDown p (F.lnkCtl_FORCE_DOWN.of a == 1) else s
  let s2 := if changed F.lnkCtl_QUARANTINE then s1.quarantineWrite p (F.lnkCtl_QUARANTINE.of a == 1) else s1
  let s3 := if changed F.lnkCtl_GATE then s2.gateWrite p (F.lnkCtl_GATE.of a == 1) else s2
  if F.lnkCtl_TRAIN.of a = 1 then s3.trainPort p else s3

/-- The LNK block (14). A write that covers LNK_LANE_CTL.RETIRE names a lane to retire. -/
def State.lnkWrite (s : State) (off a n span : Nat) : State :=
  let p := (off - 0x7000000) / 0x10000
  if off = R.lnkCtl p then s.lnkCtlWrite p a
  else if off = R.lnkLaneCtl p then
    let s1 := s.putReg off n
    if F.lnkLaneCtl_RETIRE.met span then s1.retireLane p (F.lnkLaneCtl_RETIRE.of a) else s1
  else s.putReg off n

/-- SVC_CTL (R349, R361). -/
def State.svcCtlWrite (s : State) (a n : Nat) : State :=
  let o := R.svcCtl
  let w := (s.reg o).toNat
  let v := if (List.range 8).any (fun p => s.outQ p ≠ []) then F.svcCtl_VC_COUNT.put n (F.svcCtl_VC_COUNT.of w) else n
  s.putReg o (if F.svcCtl_STREAM_TIMEOUT_US.of a < 16 * F.svcCtl_MAX_RESIDENCE_US.of v + 1000 then
    F.svcCtl_STREAM_TIMEOUT_US.put v (F.svcCtl_STREAM_TIMEOUT_US.of w) else v)

/-- SVC_VC_WEIGHT: a byte written 0 is unchanged. -/
def State.weightWrite (s : State) (n : Nat) : State :=
  let w := (s.reg R.svcVcWeight).toNat
  s.putReg R.svcVcWeight ((List.range 8).foldl (fun v k => if field v (8 * k) 8 = 0 then putField v (8 * k) 8 (field w (8 * k) 8) else v) n)

/-- The registers of a stream context (R346, R361): a configuration written to an OFF sending half makes it wait for a grant. -/
def State.sctxWrite (s : State) (off a n : Nat) : State :=
  let k := (off - R.svcSctxNCfg 0) / 0x20
  let w := (s.reg off).toNat
  if off = R.svcSctxNCfg k then
    if (s.ctx k).tx ≠ .off then s
    else
      let v := if F.svcSctxNCfg_VC.of a < s.fget R.svcCtl F.svcCtl_VC_COUNT then n else F.svcSctxNCfg_VC.put n (F.svcSctxNCfg_VC.of w)
      (s.putReg off v).setCtx k { s.ctx k with tx := .waitGrant }
  else if off = R.svcSctxNRxbuf k then
    s.putReg off (if F.svcSctxNRxbuf_BASE.of a % 64 = 0 then n else F.svcSctxNRxbuf_BASE.put n (F.svcSctxNRxbuf_BASE.of w))
  else if off = R.svcSctxNRx k then
    (if F.svcSctxNRx_RESET.of a = 1 then s.resetCtx k else s).writeRx k a
  else s

/-- A completion counter: CLEAR, then ARM (R352), and the ledger's check of it. -/
def State.ccntWrite (s : State) (off a : Nat) : State :=
  let k := (off - R.svcCcntN 0) / 8
  let s1 := if F.svcCcntN_CLEAR.of a = 1 then s.ccntClear k else s
  if F.svcCcntN_ARM.of a = 1 then (s1.ccntArm k a).ccntLedger k else s1

/-- The SVC block (13): a route or a flat entry may let packets leave that waited for it (R350). -/
def State.svcWrite (s : State) (off a n : Nat) : State :=
  if off = R.svcCtl then s.svcCtlWrite a n
  else if off = R.svcVcWeight then s.weightWrite n
  else if R.svcSctxNCfg 0 ≤ off ∧ off < R.svcRouteN 0 then s.sctxWrite off a n
  else if R.svcCcntN 0 ≤ off then s.ccntWrite off a
  else (s.putReg off n).pumpEvery

/-- The SEC block (R427, R440). -/
def State.secWrite (s : State) (off a n : Nat) : State :=
  if off = R.secBootCtl then
    let w := (s.reg off).toNat
    let v := if s.busyOp 0x0B02 (fun _ => true) then F.secBootCtl_PREF.put (F.secBootCtl_TRIAL.put n (F.secBootCtl_TRIAL.of w)) (F.secBootCtl_PREF.of w) else n
    let s1 := s.putReg off v
    if F.secBootCtl_ADVANCE.of a = 1 then s1.advance else s1
  else s.putReg off n

/-- PWR_THERM_CTL: THROTTLE_C from 80 to LIMIT_C, RELEASE_C below THROTTLE_C. -/
def State.thermWrite (s : State) (a n : Nat) : State :=
  let w := (s.reg R.pwrThermCtl).toNat
  let v := if F.pwrThermCtl_THROTTLE_C.of n ≤ F.pwrThermCtl_LIMIT_C.of n then n else F.pwrThermCtl_THROTTLE_C.put n (F.pwrThermCtl_THROTTLE_C.of w)
  s.putReg R.pwrThermCtl (if F.pwrThermCtl_RELEASE_C.of a < F.pwrThermCtl_THROTTLE_C.of v then v else
    F.pwrThermCtl_RELEASE_C.put v (F.pwrThermCtl_RELEASE_C.of w))

/-- PWR_VF_S (R489): no effect while a program is armed or running; an F that would decrease as S rises, or an F(42) other than
4,096, leaves F unchanged. -/
def State.vfWrite (s : State) (off n : Nat) : State :=
  if s.armed then s
  else
    let k := (off - R.pwrVfS 0) / 8
    let f (j : Nat) : Nat := s.fget (R.pwrVfS j) F.pwrVfS_F
    let v := F.pwrVfS_F.of n
    let bad := (k > 0 && v < f (k - 1)) || (k < 22 && f (k + 1) < v) || (k == 22 && v ≠ 4096)
    s.putReg off (if bad then F.pwrVfS_F.put n (f k) else n)

/-- The PWR block (19). -/
def State.pwrWrite (s : State) (off a n : Nat) : State :=
  if off = R.pwrThermCtl then s.thermWrite a n
  else if R.pwrVfS 0 ≤ off then s.vfWrite off n
  else s.putReg off n

/-- The RAS block (R521, R527). -/
def State.rasWrite (s : State) (off a n : Nat) : State :=
  if off = R.rasLogStatus then (if F.rasLogStatus_POP.of a = 1 then { s with ras := { s.ras with queue := s.ras.queue.tail } } else s)
  else if 0xB001000 ≤ off then
    let d := (off - 0xB001000) / 0x20
    if off = R.rasCapoDPend d then s.capoPend d a else s
  else s.putReg off n

/-- A write at a register. -/
def State.blockWrite (s : State) (i : Ident) (off a n span : Nat) : State :=
  if off < 0x10000 then s.devWrite off a n span
  else if off < 0x20000 then s.mbxWrite i off a span
  else if off < 0x30000 then s.dblWrite i off a
  else if off < 0x40000 then (if i = .host then s else s.ngtWrite off a n span)
  else if off < 0x50000 then (if i = .host then s else s.putReg off n)
  else if off < 0x1000000 then (if i = .host ∨ off ≠ R.pciBar2 then s else s.bar2BaseWrite (F.pciBar2_BASE.of a))
  else if off < 0x2000000 then s.clkWrite off a n
  else if off < 0x4000000 then s.tilWrite off a n span
  else if off < 0x5000000 then s.mqeWrite off a n
  else if off < 0x6000000 then s.putReg off n
  else if off < 0x7000000 then s.fabWrite off a n
  else if off < 0x8000000 then s.lnkWrite off a n span
  else if off < 0x9000000 then s.svcWrite off a n
  else if off < 0xB000000 then s.putReg off n
  else if off < 0xC000000 then s.rasWrite off a n
  else if off < 0xD000000 then s.secWrite off a n
  else s.pwrWrite off a n

/-- A write of `v` to a register: by its access codes (R6), and by what its own row of the tables adds. -/
def State.regWrite (s : State) (i : Ident) (off : Nat) (h : Half) (v : Nat) : State :=
  match s.regPath i off with
  | .absent => s
  | .nothing => s.answered .ok []
  | .error k => s.answered k []
  | .window => (s.window i (halfOff off h - 0x10000) (.wr (leBytes (halfLen h) v))).answered .ok []
  | .reg d =>
    let o := canon off
    let w := (s.reg o).toNat
    let a := d.asked w (spread h v) (spanOf h)
    (s.blockWrite i off a (d.next w a) (spanOf h)).answered .ok []

/-- What a warm reset finds when a register write asks for it: the straps as sampled, and the crossing latencies of the last
calibration. -/
def State.bootAgain (s : State) : BootData :=
  { straps := s.pins.straps,
    cal := (List.range 32).map fun d => ((s.fget (R.clkXcal d) F.clkXcal_X_IN - 1) * 65536, (s.fget (R.clkXcal d) F.clkXcal_X_OUT - 1) * 65536) }

/-- Whether a write asks for a warm reset: WARM with the key, in one write (DEV_RESET). -/
def asksReset (off : Nat) (h : Half) (v : Nat) : Bool :=
  off == R.devReset && F.devReset_WARM.of (spread h v) == 1 && F.devReset_KEY.of (spread h v) == 0x5752

/-! ## Diagnosis (R475) -/

/-- Where a range of the 48-bit address space lies (R27): the own board slot, a tile's store, the register space in pieces of a
register or a half, elsewhere on the board or in a host window, or nowhere. -/
inductive DiagAt where
  | hbm (off : Nat)
  | tile (p off : Nat)
  | regs (ps : List (Nat × Half))
  | far (host : Option Nat)
  | nowhere

/-- The pieces of a range of the register space; none if it is not aligned to 4 bytes. -/
def regPieces (off len : Nat) : Option (List (Nat × Half)) :=
  if off % 8 = 0 then some ((List.range (len / 8)).map fun k => (off + 8 * k, .full))
  else if off % 4 = 0 then some ((List.range (len / 4)).map fun k => ((off + 4 * k) / 8 * 8, if (off + 4 * k) % 8 = 0 then .low else .high))
  else none

/-- Where a range lies, and whether it answers (R453). -/
def State.diagAt (s : State) (i : Ident) (a len : Nat) : DiagAt :=
  if a < 2 ^ 43 then
    if a / 2 ^ 40 = s.ownSlot ∧ a % 2 ^ 40 + len ≤ 2 ^ 40 then
      (if (unitsOf (a % 2 ^ 40) len).any (fun u => s.hbmDead (64 * u)) then .nowhere else .hbm (a % 2 ^ 40))
    else .far none
  else if 2 ^ 44 ≤ a ∧ a + len ≤ 2 ^ 45 then .far (s.hostAddr ((a - 2 ^ 44) / 2 ^ 40) (a % 2 ^ 40) len)
  else if 0xE00000000000 ≤ a ∧ a < 0xF00000000000 then
    let p := (a - 0xE00000000000) / 0x400000
    let o := (a - 0xE00000000000) % 0x400000
    if p < 544 ∧ o + len ≤ 0x200000 ∧ (s.tile p).issue.status ≠ .powerGated then .tile p o else .nowhere
  else if 0xF00000000000 ≤ a then
    match regPieces (a - 0xF00000000000) len with
    | none => .nowhere
    | some ps => if ps.all (fun e => match s.regPath i e.1 with | .reg _ | .window => true | _ => false) then .regs ps else .nowhere
  else .nowhere

/-- Identity of the active core. -/
def State.activeCore (s : State) : Ident := if s.fget R.devStatus F.devStatus_ACTIVE_STW = 1 then .stw1 else .stw0

/-- Bytes of a read, a free value where they are poisoned (R51, R207). -/
def State.seenBytes (s : State) (bs : List Byte) (bad : Nat → Bool) : List Byte × State :=
  let n := bs.length
  if (List.range n).any bad then
    ((List.range n).map fun i => if bad i then Config.freeByte (s.draws + i) else bs.getD i 0#8, { s with draws := s.draws + n })
  else (bs, s)

/-- DIAG_READ. `x` supplies the ECC events of the read, and the bytes another device or the host answered with. -/
def State.diagRead (s : State) (c : Cmd) (x : QExt) : Rep × State :=
  let len := c.a 6 2
  let i := s.activeCore
  match s.diagAt i (c.a 0 6) len with
  | .nowhere => ({ status := Status.notPermitted }, s)
  | .hbm off =>
    let s1 := s.hbmRead off len x.errs {} 0
    let (bs, s2) := s1.seenBytes (s1.hbmBytes off len) fun k => s1.hbmPoison.contains ((off + k) / 64)
    ({ status := 0, body := bs }, s2)
  | .tile p o =>
    let s := s.sramRead 0 p o len
    let t := s.tile p
    let (bs, s1) := s.seenBytes (Mem.rdBytes t.store o len) fun k => storePois t (o + k)
    ({ status := 0, body := bs }, s1)
  | .regs ps =>
    let (bs, s1) := ps.foldl (fun (z : List Byte × State) e => let y := z.2.regRead i e.1 e.2; (z.1 ++ y.stw.answer.data, y)) ([], s)
    ({ status := 0, body := bs }, s1)
  | .far _ => if x.failed || x.data.length != len then ({ status := Status.aborted }, s) else ({ status := 0, body := x.data }, s)

/-- DIAG_WRITE. `x` says whether another device or the host failed the access. -/
def State.diagWrite (s : State) (c : Cmd) (x : QExt) : Rep × State :=
  let len := c.len
  let i := s.activeCore
  match s.diagAt i (c.a 0 6) len with
  | .nowhere => ({ status := Status.notPermitted }, s)
  | .hbm off => ({ status := 0 }, s.hbmWrite off c.body fun _ => false)
  | .tile p o => ({ status := 0 }, (s.sramWritten 0 p o len).setTile p (storeBytes (s.tile p) o c.body fun _ => false))
  | .regs ps =>
    let (_, s1) := ps.foldl (fun (z : List Byte × State) e =>
      let n := halfLen e.2
      (z.1.drop n, z.2.regWrite i e.1 e.2 (leNat (z.1.take n)))) (c.body, s)
    ({ status := 0 }, s1)
  | .far h =>
    if x.failed then ({ status := Status.aborted }, s)
    else ({ status := 0 }, match h with | some b => s.toHostMem b c.body | none => s)

/-- DIAG_READ. -/
def layDiagRead : Layout :=
  { opcode := 0x0F01, by_ := [1, 5], uses := [(0, 8)], ok := fun c => c.a 6 2 % 8 == 0 && 8 ≤ c.a 6 2 && c.a 6 2 ≤ 4032 }
/-- DIAG_WRITE. -/
def layDiagWrite : Layout :=
  { opcode := 0x0F02, by_ := [5], len := fun n => n % 8 == 0 && 8 ≤ n && n ≤ 4032, uses := [(0, 6)] }

/-- Whether the DIAG_WRITE of a channel writes DEV_RESET with the key. -/
def Cmd.asksReset (c : Cmd) : Bool :=
  match regPieces (c.a 0 6 - 0xF00000000000) c.len with
  | none => false
  | some ps => 0xF00000000000 ≤ c.a 0 6 && (ps.foldl (fun (z : Bool × List Byte) e =>
      (z.1 || Machine.asksReset e.1 e.2 (leNat (z.2.take (halfLen e.2))), z.2.drop (halfLen e.2))) (false, c.body)).1

/-- DIAG_WRITE on a channel; a warm reset it asks for follows, and leaves no reply. -/
def State.diagWriteServe (s : State) (n : Nat) (x : QExt) : State :=
  let c := s.cmdAt n
  let s1 := s.serve n layDiagWrite [] fun c z => z.diagWrite c x
  if s.serving ∧ s.nextWaiting = some n ∧ c.opcode = 0x0F02 ∧ !c.aborted ∧ (s1.firstFail layDiagWrite c).isNone ∧ c.asksReset ∧
      (s.diagWrite c x).1.status = 0 ∧ !s.enr.failed then s1.warmReset s.bootAgain
  else s1

/-! ## Commands -/

/-- NGT_NOW_READ (R221). -/
def execNgtNowRead (who : Ident) (half : Half) (s : State) : Host.Outcome State Fault Refusal := .next (s.regRead who R.ngtNow half)

/-- RC_REGISTER_READ (R8): a read of any register. -/
def execRcRegisterRead (who : Ident) (off : BitVec 28) (half : Half) (s : State) : Host.Outcome State Fault Refusal :=
  .next (s.regRead who off.toNat half)

/-- REGISTER_WRITE (R6). -/
def execRegisterWrite (who : Ident) (off : BitVec 28) (half : Half) (v : Word) (s : State) : Host.Outcome State Fault Refusal :=
  .next (
    let s1 := s.regWrite who off.toNat half v.toNat
    match s.regPath who off.toNat with
    | .reg _ => if asksReset off.toNat half v.toNat then s1.devReset who 0x5752 s.bootAgain else s1
    | _ => s1)

/-- DIAG_READ (R475). -/
def execDiagRead (ch : Fin 64) (x : QExt) (s : State) : Host.Outcome State Fault Refusal :=
  .next (s.serve ch.val layDiagRead [] fun c z => z.diagRead c x)

/-- DIAG_WRITE (R475). -/
def execDiagWrite (ch : Fin 64) (x : QExt) (s : State) : Host.Outcome State Fault Refusal := .next (s.diagWriteServe ch.val x)

end Sys2Proof.Machine
end

