-- ==== Sys2Proof/Machine/TileMatrix.lean ====
section
/-!
DEFINITION. Commands of the matrix unit (04, 06): weight latches, passes, readout, and the completion of operations in flight.
-/
namespace Sys2Proof.Machine

/-- Whether a landing writes a weight latch. -/
def Landing.isLatch : Landing → Bool
  | .latch .. => true
  | _ => false

/-- Whether a landing adds to an accumulator set. -/
def Landing.isAcc : Landing → Bool
  | .acc .. => true
  | _ => false

/-- LDW (R41). -/
def execLdw (p : PTile) (w : BitVec 1) (sp : Sparsity) (wf : ElemFmt) (ss : BitVec 5) (imm : BitVec 23) (s : State) : Host.Outcome State Fault Refusal :=
  .next (s.issueOne p.val (.ldw w sp wf ss imm))

/-- LDW_COMPLETE (R146). -/
def execLdwComplete (p : PTile) (s : State) : Host.Outcome State Fault Refusal :=
  .next (s.completeNext p.val fun f => f.what.isLatch)

/-- MMA (R98). -/
def execMma (p : PTile) (a : MmaArgs) (s : State) : Host.Outcome State Fault Refusal :=
  .next (s.issueOne p.val (.mma a))

/-- MMAS (R149). -/
def execMmas (p : PTile) (a : MmaArgs) (s : State) : Host.Outcome State Fault Refusal :=
  .next (s.issueOne p.val (.mmas a))

/-- MMA_CONTRIBUTION_LAND (R44). -/
def execMmaContributionLand (p : PTile) (s : State) : Host.Outcome State Fault Refusal :=
  .next (s.completeNext p.val fun f => f.what.isAcc)

/-- FIXED_LATENCY_COMPLETE (R34). -/
def execFixedLatencyComplete (p : PTile) (s : State) : Host.Outcome State Fault Refusal :=
  .next (s.completeNext p.val fun _ => true)

/-- ACRD (R100). -/
def execAcrd (p : PTile) (a : AcrdArgs) (s : State) : Host.Outcome State Fault Refusal :=
  .next (s.issueOne p.val (.acrd a))

/-- ACSET (R99). -/
def execAcset (p : PTile) (set : BitVec 3) (anchor : AnchorSrc) (s : State) : Host.Outcome State Fault Refusal :=
  .next (s.issueOne p.val (.acset set anchor))

end Sys2Proof.Machine
end

