-- ==== Sys2Proof/Machine/TileScalar.lean ====
section
/-!
DEFINITION. Commands of the C, L and X slots of the tile (04): scalar operations, control flow, store access, send, receive and memory queues; issue of a bundle and reaching TEND.
-/
namespace Sys2Proof.Machine

/-- BUNDLE_ISSUE (R124). -/
def execBundleIssue (p : PTile) (s : State) : Host.Outcome State Fault Refusal :=
  .next (s.issueNext p.val)

/-- ADD (R113). -/
def execAdd (p : PTile) (sd sa : BitVec 5) (b : Src2) (s : State) : Host.Outcome State Fault Refusal :=
  .next (s.issueOne p.val (.alu .add sd sa b))

/-- SUB (R113). -/
def execSub (p : PTile) (sd sa : BitVec 5) (b : Src2) (s : State) : Host.Outcome State Fault Refusal :=
  .next (s.issueOne p.val (.alu .sub sd sa b))

/-- MUL (R113). -/
def execMul (p : PTile) (sd sa : BitVec 5) (b : Src2) (s : State) : Host.Outcome State Fault Refusal :=
  .next (s.issueOne p.val (.alu .mul sd sa b))

/-- MULHS (R113). -/
def execMulhs (p : PTile) (sd sa : BitVec 5) (b : Src2) (s : State) : Host.Outcome State Fault Refusal :=
  .next (s.issueOne p.val (.alu .mulhs sd sa b))

/-- MULHU (R113). -/
def execMulhu (p : PTile) (sd sa : BitVec 5) (b : Src2) (s : State) : Host.Outcome State Fault Refusal :=
  .next (s.issueOne p.val (.alu .mulhu sd sa b))

/-- AND (R113). -/
def execAnd (p : PTile) (sd sa : BitVec 5) (b : Src2) (s : State) : Host.Outcome State Fault Refusal :=
  .next (s.issueOne p.val (.alu .and sd sa b))

/-- OR (R113). -/
def execOr (p : PTile) (sd sa : BitVec 5) (b : Src2) (s : State) : Host.Outcome State Fault Refusal :=
  .next (s.issueOne p.val (.alu .or sd sa b))

/-- XOR (R113). -/
def execXor (p : PTile) (sd sa : BitVec 5) (b : Src2) (s : State) : Host.Outcome State Fault Refusal :=
  .next (s.issueOne p.val (.alu .xor sd sa b))

/-- SHL (R113). -/
def execShl (p : PTile) (sd sa : BitVec 5) (b : Src2) (s : State) : Host.Outcome State Fault Refusal :=
  .next (s.issueOne p.val (.alu .shl sd sa b))

/-- SHR (R113). -/
def execShr (p : PTile) (sd sa : BitVec 5) (b : Src2) (s : State) : Host.Outcome State Fault Refusal :=
  .next (s.issueOne p.val (.alu .shr sd sa b))

/-- SRA (R113). -/
def execSra (p : PTile) (sd sa : BitVec 5) (b : Src2) (s : State) : Host.Outcome State Fault Refusal :=
  .next (s.issueOne p.val (.alu .sra sd sa b))

/-- MIN (R113). -/
def execMin (p : PTile) (sd sa : BitVec 5) (b : Src2) (s : State) : Host.Outcome State Fault Refusal :=
  .next (s.issueOne p.val (.alu .min sd sa b))

/-- MAX (R113). -/
def execMax (p : PTile) (sd sa : BitVec 5) (b : Src2) (s : State) : Host.Outcome State Fault Refusal :=
  .next (s.issueOne p.val (.alu .max sd sa b))

/-- MINU (R113). -/
def execMinu (p : PTile) (sd sa : BitVec 5) (b : Src2) (s : State) : Host.Outcome State Fault Refusal :=
  .next (s.issueOne p.val (.alu .minu sd sa b))

/-- MAXU (R113). -/
def execMaxu (p : PTile) (sd sa : BitVec 5) (b : Src2) (s : State) : Host.Outcome State Fault Refusal :=
  .next (s.issueOne p.val (.alu .maxu sd sa b))

/-- SEQ (R113). -/
def execSeq (p : PTile) (sd sa : BitVec 5) (b : Src2) (s : State) : Host.Outcome State Fault Refusal :=
  .next (s.issueOne p.val (.alu .seq sd sa b))

/-- SLT (R113). -/
def execSlt (p : PTile) (sd sa : BitVec 5) (b : Src2) (s : State) : Host.Outcome State Fault Refusal :=
  .next (s.issueOne p.val (.alu .slt sd sa b))

/-- SLTU (R113). -/
def execSltu (p : PTile) (sd sa : BitVec 5) (b : Src2) (s : State) : Host.Outcome State Fault Refusal :=
  .next (s.issueOne p.val (.alu .sltu sd sa b))

/-- MOVI (R113). -/
def execMovi (p : PTile) (sd : BitVec 5) (imm : BitVec 20) (s : State) : Host.Outcome State Fault Refusal :=
  .next (s.issueOne p.val (.movi sd imm))

/-- MOVK (R113). -/
def execMovk (p : PTile) (sd : BitVec 5) (h : BitVec 2) (imm : BitVec 16) (s : State) : Host.Outcome State Fault Refusal :=
  .next (s.issueOne p.val (.movk sd h imm))

/-- RDT (R113). -/
def execRdt (p : PTile) (sd : BitVec 5) (s : State) : Host.Outcome State Fault Refusal :=
  .next (s.issueOne p.val (.rdt sd))

/-- RDL (R113). -/
def execRdl (p : PTile) (sd : BitVec 5) (s : State) : Host.Outcome State Fault Refusal :=
  .next (s.issueOne p.val (.rdl sd))

/-- BR (R114). -/
def execBr (p : PTile) (target : BitVec 13) (s : State) : Host.Outcome State Fault Refusal :=
  .next (s.issueOne p.val (.br target))

/-- BZ (R114). -/
def execBz (p : PTile) (ss : BitVec 5) (target : BitVec 13) (s : State) : Host.Outcome State Fault Refusal :=
  .next (s.issueOne p.val (.bz ss target))

/-- BNZ (R114). -/
def execBnz (p : PTile) (ss : BitVec 5) (target : BitVec 13) (s : State) : Host.Outcome State Fault Refusal :=
  .next (s.issueOne p.val (.bnz ss target))

/-- BRI (R114). -/
def execBri (p : PTile) (ss : BitVec 5) (s : State) : Host.Outcome State Fault Refusal :=
  .next (s.issueOne p.val (.bri ss))

/-- LOOP (R115). -/
def execLoop (p : PTile) (count : LoopCount) (endAddr : BitVec 13) (s : State) : Host.Outcome State Fault Refusal :=
  .next (s.issueOne p.val (.loop count endAddr))

/-- PRED (R116). -/
def execPred (p : PTile) (ss : BitVec 5) (s : State) : Host.Outcome State Fault Refusal :=
  .next (s.issueOne p.val (.pred ss))

/-- TEND (R117). -/
def execTend (p : PTile) (s : State) : Host.Outcome State Fault Refusal :=
  .next (s.issueOne p.val (.tend))

/-- TEND_REACHED (R63). -/
def execTendReached (p : PTile) (s : State) : Host.Outcome State Fault Refusal :=
  .next (s.reachTend p.val)

/-- LD_V (R109). -/
def execLdV (p : PTile) (vd : BitVec 6) (ss : BitVec 5) (imm : BitVec 24) (s : State) : Host.Outcome State Fault Refusal :=
  .next (s.issueOne p.val (.ldv vd ss imm))

/-- LD_S (R109). -/
def execLdS (p : PTile) (sd ss : BitVec 5) (size : MemSize) (signed : Bool) (imm : BitVec 22) (s : State) : Host.Outcome State Fault Refusal :=
  .next (s.issueOne p.val (.lds sd ss size signed imm))

/-- ST_V (R109). -/
def execStV (p : PTile) (vs : BitVec 6) (ss : BitVec 5) (imm : BitVec 24) (s : State) : Host.Outcome State Fault Refusal :=
  .next (s.issueOne p.val (.stv vs ss imm))

/-- ST_S (R109). -/
def execStS (p : PTile) (sa ss : BitVec 5) (size : MemSize) (imm : BitVec 22) (s : State) : Host.Outcome State Fault Refusal :=
  .next (s.issueOne p.val (.sts sa ss size imm))

/-- SEND (R110). -/
def execSend (p : PTile) (vs : BitVec 6) (ob fo : BitVec 5) (nm1 : BitVec 4) (s : State) : Host.Outcome State Fault Refusal :=
  .next (s.issueOne p.val (.send vs ob fo nm1))

/-- RECV (R273). -/
def execRecv (p : PTile) (vd ib : BitVec 6) (fo : BitVec 5) (nm1 : BitVec 4) (s : State) : Host.Outcome State Fault Refusal :=
  .next (s.issueOne p.val (.recv vd ib fo nm1))

/-- LDQ_V (R111). -/
def execLdqV (p : PTile) (tag : BitVec 6) (ss n : BitVec 5) (imm : BitVec 19) (s : State) : Host.Outcome State Fault Refusal :=
  .next (s.issueOne p.val (.ldqv tag ss n imm))

/-- LDQ_T (R111). -/
def execLdqT (p : PTile) (tag : BitVec 6) (st sm sl : BitVec 5) (s : State) : Host.Outcome State Fault Refusal :=
  .next (s.issueOne p.val (.ldqt tag st sm sl))

/-- LDQ_I (R111). -/
def execLdqI (p : PTile) (tag : BitVec 6) (first : BitVec 4) (cnt so : BitVec 5) (s : State) : Host.Outcome State Fault Refusal :=
  .next (s.issueOne p.val (.ldqi tag first cnt so))

/-- STQ_V (R111). -/
def execStqV (p : PTile) (tag vs : BitVec 6) (ss n : BitVec 5) (imm : BitVec 13) (s : State) : Host.Outcome State Fault Refusal :=
  .next (s.issueOne p.val (.stqv tag vs ss n imm))

/-- STQ_T (R111). -/
def execStqT (p : PTile) (tag : BitVec 6) (st sm sl : BitVec 5) (s : State) : Host.Outcome State Fault Refusal :=
  .next (s.issueOne p.val (.stqt tag st sm sl))

/-- QWAIT (R56). -/
def execQwait (p : PTile) (w : WaitSet) (s : State) : Host.Outcome State Fault Refusal :=
  .next (s.issueOne p.val (.qwait w))

/-- QWAIT_RESUME (R56). -/
def execQwaitResume (p : PTile) (s : State) : Host.Outcome State Fault Refusal :=
  .next (s.resumeTile p.val)

/-- QPOP (R57). -/
def execQpop (p : PTile) (vd tag : BitVec 6) (s : State) : Host.Outcome State Fault Refusal :=
  .next (s.issueOne p.val (.qpop vd tag))

end Sys2Proof.Machine
end

