-- ==== Sys2Proof/Machine/TileVector.lean ====
section
/-!
DEFINITION. Commands of the vector slots of the tile (04, 07).
-/
namespace Sys2Proof.Machine

/-- VADD (R101). -/
def execVadd (p : PTile) (a : VArgs) (s : State) : Host.Outcome State Fault Refusal :=
  .next (s.issueOne p.val (.vbin .vadd a))

/-- VSUB (R101). -/
def execVsub (p : PTile) (a : VArgs) (s : State) : Host.Outcome State Fault Refusal :=
  .next (s.issueOne p.val (.vbin .vsub a))

/-- VMUL (R101). -/
def execVmul (p : PTile) (a : VArgs) (s : State) : Host.Outcome State Fault Refusal :=
  .next (s.issueOne p.val (.vbin .vmul a))

/-- VADDS (R101). -/
def execVadds (p : PTile) (a : VArgs) (s : State) : Host.Outcome State Fault Refusal :=
  .next (s.issueOne p.val (.vbin .vadds a))

/-- VSUBS (R101). -/
def execVsubs (p : PTile) (a : VArgs) (s : State) : Host.Outcome State Fault Refusal :=
  .next (s.issueOne p.val (.vbin .vsubs a))

/-- VFMA (R101). -/
def execVfma (p : PTile) (a : VArgs) (s : State) : Host.Outcome State Fault Refusal :=
  .next (s.issueOne p.val (.vfma a))

/-- VMIN (R101). -/
def execVmin (p : PTile) (a : VArgs) (s : State) : Host.Outcome State Fault Refusal :=
  .next (s.issueOne p.val (.vbin .vmin a))

/-- VMAX (R101). -/
def execVmax (p : PTile) (a : VArgs) (s : State) : Host.Outcome State Fault Refusal :=
  .next (s.issueOne p.val (.vbin .vmax a))

/-- VABS (R101). -/
def execVabs (p : PTile) (a : VArgs) (s : State) : Host.Outcome State Fault Refusal :=
  .next (s.issueOne p.val (.vun .vabs a))

/-- VNEG (R101). -/
def execVneg (p : PTile) (a : VArgs) (s : State) : Host.Outcome State Fault Refusal :=
  .next (s.issueOne p.val (.vun .vneg a))

/-- VAND (R101). -/
def execVand (p : PTile) (a : VArgs) (s : State) : Host.Outcome State Fault Refusal :=
  .next (s.issueOne p.val (.vbin .vand a))

/-- VOR (R101). -/
def execVor (p : PTile) (a : VArgs) (s : State) : Host.Outcome State Fault Refusal :=
  .next (s.issueOne p.val (.vbin .vor a))

/-- VXOR (R101). -/
def execVxor (p : PTile) (a : VArgs) (s : State) : Host.Outcome State Fault Refusal :=
  .next (s.issueOne p.val (.vbin .vxor a))

/-- VNOT (R101). -/
def execVnot (p : PTile) (a : VArgs) (s : State) : Host.Outcome State Fault Refusal :=
  .next (s.issueOne p.val (.vun .vnot a))

/-- VSHL (R101). -/
def execVshl (p : PTile) (a : VArgs) (s : State) : Host.Outcome State Fault Refusal :=
  .next (s.issueOne p.val (.vbin .vshl a))

/-- VSHR (R101). -/
def execVshr (p : PTile) (a : VArgs) (s : State) : Host.Outcome State Fault Refusal :=
  .next (s.issueOne p.val (.vbin .vshr a))

/-- VSRA (R101). -/
def execVsra (p : PTile) (a : VArgs) (s : State) : Host.Outcome State Fault Refusal :=
  .next (s.issueOne p.val (.vbin .vsra a))

/-- VCMP (R101). -/
def execVcmp (p : PTile) (slot : VSlot) (ty : LaneTy) (pm pd : BitVec 4) (va vb : BitVec 6) (cond : Cond) (s : State) : Host.Outcome State Fault Refusal :=
  .next (s.issueOne p.val (.vcmp slot ty pm pd va vb cond))

/-- VSEL (R101). -/
def execVsel (p : PTile) (a : VArgs) (s : State) : Host.Outcome State Fault Refusal :=
  .next (s.issueOne p.val (.vsel a))

/-- VMOV (R101). -/
def execVmov (p : PTile) (a : VArgs) (s : State) : Host.Outcome State Fault Refusal :=
  .next (s.issueOne p.val (.vun .vmov a))

/-- VBCAST (R101). -/
def execVbcast (p : PTile) (a : VArgs) (ss : BitVec 5) (s : State) : Host.Outcome State Fault Refusal :=
  .next (s.issueOne p.val (.vbcast a ss))

/-- VEXT (R101). -/
def execVext (p : PTile) (slot : VSlot) (ty : LaneTy) (sd : BitVec 5) (va : BitVec 6) (ss : BitVec 5) (s : State) : Host.Outcome State Fault Refusal :=
  .next (s.issueOne p.val (.vext slot ty sd va ss))

/-- VPERM (R105). -/
def execVperm (p : PTile) (a : VArgs) (s : State) : Host.Outcome State Fault Refusal :=
  .next (s.issueOne p.val (.vperm a))

/-- VRED (R104). -/
def execVred (p : PTile) (a : VArgs) (op : RedOp) (g : BitVec 3) (s : State) : Host.Outcome State Fault Refusal :=
  .next (s.issueOne p.val (.vred a op g))

/-- PAND (R101). -/
def execPand (p : PTile) (slot : VSlot) (pd pa pb : BitVec 4) (s : State) : Host.Outcome State Fault Refusal :=
  .next (s.issueOne p.val (.pbin .pand slot pd pa pb))

/-- POR (R101). -/
def execPor (p : PTile) (slot : VSlot) (pd pa pb : BitVec 4) (s : State) : Host.Outcome State Fault Refusal :=
  .next (s.issueOne p.val (.pbin .por slot pd pa pb))

/-- PXOR (R101). -/
def execPxor (p : PTile) (slot : VSlot) (pd pa pb : BitVec 4) (s : State) : Host.Outcome State Fault Refusal :=
  .next (s.issueOne p.val (.pbin .pxor slot pd pa pb))

/-- PNOT (R101). -/
def execPnot (p : PTile) (slot : VSlot) (pd pa : BitVec 4) (s : State) : Host.Outcome State Fault Refusal :=
  .next (s.issueOne p.val (.pnot slot pd pa))

/-- PPOP (R101). -/
def execPpop (p : PTile) (slot : VSlot) (sd : BitVec 5) (pa : BitVec 4) (s : State) : Host.Outcome State Fault Refusal :=
  .next (s.issueOne p.val (.ppop slot sd pa))

/-- VCVT (R102). -/
def execVcvt (p : PTile) (a : CvtArgs) (s : State) : Host.Outcome State Fault Refusal :=
  .next (s.issueOne p.val (.vcvt a))

/-- VQMX (R103). -/
def execVqmx (p : PTile) (a : QmxArgs) (s : State) : Host.Outcome State Fault Refusal :=
  .next (s.issueOne p.val (.vqmx a))

/-- VQMXC (R103). -/
def execVqmxc (p : PTile) (a : QmxArgs) (s : State) : Host.Outcome State Fault Refusal :=
  .next (s.issueOne p.val (.vqmxc a))

/-- VEXP (R106). -/
def execVexp (p : PTile) (a : VArgs) (s : State) : Host.Outcome State Fault Refusal :=
  .next (s.issueOne p.val (.vun .vexp a))

/-- VEXP2 (R106). -/
def execVexp2 (p : PTile) (a : VArgs) (s : State) : Host.Outcome State Fault Refusal :=
  .next (s.issueOne p.val (.vun .vexp2 a))

/-- VLOG2 (R106). -/
def execVlog2 (p : PTile) (a : VArgs) (s : State) : Host.Outcome State Fault Refusal :=
  .next (s.issueOne p.val (.vun .vlog2 a))

/-- VRCP (R106). -/
def execVrcp (p : PTile) (a : VArgs) (s : State) : Host.Outcome State Fault Refusal :=
  .next (s.issueOne p.val (.vun .vrcp a))

/-- VRSQRT (R106). -/
def execVrsqrt (p : PTile) (a : VArgs) (s : State) : Host.Outcome State Fault Refusal :=
  .next (s.issueOne p.val (.vun .vrsqrt a))

/-- VTANH (R106). -/
def execVtanh (p : PTile) (a : VArgs) (s : State) : Host.Outcome State Fault Refusal :=
  .next (s.issueOne p.val (.vun .vtanh a))

/-- VSIGM (R106). -/
def execVsigm (p : PTile) (a : VArgs) (s : State) : Host.Outcome State Fault Refusal :=
  .next (s.issueOne p.val (.vun .vsigm a))

/-- GATE (R107). -/
def execGate (p : PTile) (pm : BitVec 4) (vd va : BitVec 6) (k : Fin 9) (s : State) : Host.Outcome State Fault Refusal :=
  .next (s.issueOne p.val (.gate pm vd va k))

/-- GPACK (R108). -/
def execGpack (p : PTile) (vd va : BitVec 6) (ss : BitVec 5) (s : State) : Host.Outcome State Fault Refusal :=
  .next (s.issueOne p.val (.gpack vd va ss))

end Sys2Proof.Machine
end

