-- ==== Sys2Proof/Machine/Dispatch.lean ====
section
/-!
DEFINITION. The meaning of every command: one direct call for each row of the table.
-/
namespace Sys2Proof.Machine

/-- The effect of a command on everything but the queue. -/
def exec (i : Instr) (s : State) : Host.Outcome State Fault Refusal :=
  match i with
  | .meridian m => Sys2Proof.Machine.execMeridian m s
  | .freeIntervalClose m => Sys2Proof.Machine.execFreeIntervalClose m s
  | .bundleIssue p => Sys2Proof.Machine.execBundleIssue p s
  | .add_ p sd sa b => Sys2Proof.Machine.execAdd p sd sa b s
  | .sub_ p sd sa b => Sys2Proof.Machine.execSub p sd sa b s
  | .mul_ p sd sa b => Sys2Proof.Machine.execMul p sd sa b s
  | .mulhs p sd sa b => Sys2Proof.Machine.execMulhs p sd sa b s
  | .mulhu p sd sa b => Sys2Proof.Machine.execMulhu p sd sa b s
  | .and_ p sd sa b => Sys2Proof.Machine.execAnd p sd sa b s
  | .or_ p sd sa b => Sys2Proof.Machine.execOr p sd sa b s
  | .xor_ p sd sa b => Sys2Proof.Machine.execXor p sd sa b s
  | .shl p sd sa b => Sys2Proof.Machine.execShl p sd sa b s
  | .shr p sd sa b => Sys2Proof.Machine.execShr p sd sa b s
  | .sra p sd sa b => Sys2Proof.Machine.execSra p sd sa b s
  | .min_ p sd sa b => Sys2Proof.Machine.execMin p sd sa b s
  | .max_ p sd sa b => Sys2Proof.Machine.execMax p sd sa b s
  | .minu p sd sa b => Sys2Proof.Machine.execMinu p sd sa b s
  | .maxu p sd sa b => Sys2Proof.Machine.execMaxu p sd sa b s
  | .seq_ p sd sa b => Sys2Proof.Machine.execSeq p sd sa b s
  | .slt p sd sa b => Sys2Proof.Machine.execSlt p sd sa b s
  | .sltu p sd sa b => Sys2Proof.Machine.execSltu p sd sa b s
  | .movi p sd imm => Sys2Proof.Machine.execMovi p sd imm s
  | .movk p sd h imm => Sys2Proof.Machine.execMovk p sd h imm s
  | .rdt p sd => Sys2Proof.Machine.execRdt p sd s
  | .rdl p sd => Sys2Proof.Machine.execRdl p sd s
  | .br p target => Sys2Proof.Machine.execBr p target s
  | .bz p ss target => Sys2Proof.Machine.execBz p ss target s
  | .bnz p ss target => Sys2Proof.Machine.execBnz p ss target s
  | .bri p ss => Sys2Proof.Machine.execBri p ss s
  | .loop_ p count endAddr => Sys2Proof.Machine.execLoop p count endAddr s
  | .pred p ss => Sys2Proof.Machine.execPred p ss s
  | .tend p => Sys2Proof.Machine.execTend p s
  | .tendReached p => Sys2Proof.Machine.execTendReached p s
  | .ldV p vd ss imm => Sys2Proof.Machine.execLdV p vd ss imm s
  | .ldS p sd ss size signed imm => Sys2Proof.Machine.execLdS p sd ss size signed imm s
  | .stV p vs ss imm => Sys2Proof.Machine.execStV p vs ss imm s
  | .stS p sa ss size imm => Sys2Proof.Machine.execStS p sa ss size imm s
  | .ldw p w sp wf ss imm => Sys2Proof.Machine.execLdw p w sp wf ss imm s
  | .ldwComplete p => Sys2Proof.Machine.execLdwComplete p s
  | .send p vs ob fo nm1 => Sys2Proof.Machine.execSend p vs ob fo nm1 s
  | .recv p vd ib fo nm1 => Sys2Proof.Machine.execRecv p vd ib fo nm1 s
  | .ldqV p tag ss n imm => Sys2Proof.Machine.execLdqV p tag ss n imm s
  | .ldqT p tag st sm sl => Sys2Proof.Machine.execLdqT p tag st sm sl s
  | .ldqI p tag first cnt so => Sys2Proof.Machine.execLdqI p tag first cnt so s
  | .stqV p tag vs ss n imm => Sys2Proof.Machine.execStqV p tag vs ss n imm s
  | .stqT p tag st sm sl => Sys2Proof.Machine.execStqT p tag st sm sl s
  | .qwait p w => Sys2Proof.Machine.execQwait p w s
  | .qwaitResume p => Sys2Proof.Machine.execQwaitResume p s
  | .qpop p vd tag => Sys2Proof.Machine.execQpop p vd tag s
  | .mma p a => Sys2Proof.Machine.execMma p a s
  | .mmas p a => Sys2Proof.Machine.execMmas p a s
  | .mmaContributionLand p => Sys2Proof.Machine.execMmaContributionLand p s
  | .fixedLatencyComplete p => Sys2Proof.Machine.execFixedLatencyComplete p s
  | .acrd p a => Sys2Proof.Machine.execAcrd p a s
  | .acset p set anchor => Sys2Proof.Machine.execAcset p set anchor s
  | .vadd p a => Sys2Proof.Machine.execVadd p a s
  | .vsub p a => Sys2Proof.Machine.execVsub p a s
  | .vmul p a => Sys2Proof.Machine.execVmul p a s
  | .vadds p a => Sys2Proof.Machine.execVadds p a s
  | .vsubs p a => Sys2Proof.Machine.execVsubs p a s
  | .vfma p a => Sys2Proof.Machine.execVfma p a s
  | .vmin p a => Sys2Proof.Machine.execVmin p a s
  | .vmax p a => Sys2Proof.Machine.execVmax p a s
  | .vabs p a => Sys2Proof.Machine.execVabs p a s
  | .vneg p a => Sys2Proof.Machine.execVneg p a s
  | .vand p a => Sys2Proof.Machine.execVand p a s
  | .vor p a => Sys2Proof.Machine.execVor p a s
  | .vxor p a => Sys2Proof.Machine.execVxor p a s
  | .vnot p a => Sys2Proof.Machine.execVnot p a s
  | .vshl p a => Sys2Proof.Machine.execVshl p a s
  | .vshr p a => Sys2Proof.Machine.execVshr p a s
  | .vsra p a => Sys2Proof.Machine.execVsra p a s
  | .vcmp p slot ty pm pd va vb cond => Sys2Proof.Machine.execVcmp p slot ty pm pd va vb cond s
  | .vsel p a => Sys2Proof.Machine.execVsel p a s
  | .vmov p a => Sys2Proof.Machine.execVmov p a s
  | .vbcast p a ss => Sys2Proof.Machine.execVbcast p a ss s
  | .vext p slot ty sd va ss => Sys2Proof.Machine.execVext p slot ty sd va ss s
  | .vperm p a => Sys2Proof.Machine.execVperm p a s
  | .vred p a op g => Sys2Proof.Machine.execVred p a op g s
  | .pand p slot pd pa pb => Sys2Proof.Machine.execPand p slot pd pa pb s
  | .por p slot pd pa pb => Sys2Proof.Machine.execPor p slot pd pa pb s
  | .pxor p slot pd pa pb => Sys2Proof.Machine.execPxor p slot pd pa pb s
  | .pnot p slot pd pa => Sys2Proof.Machine.execPnot p slot pd pa s
  | .ppop p slot sd pa => Sys2Proof.Machine.execPpop p slot sd pa s
  | .vcvt p a => Sys2Proof.Machine.execVcvt p a s
  | .vqmx p a => Sys2Proof.Machine.execVqmx p a s
  | .vqmxc p a => Sys2Proof.Machine.execVqmxc p a s
  | .vexp p a => Sys2Proof.Machine.execVexp p a s
  | .vexp2 p a => Sys2Proof.Machine.execVexp2 p a s
  | .vlog2 p a => Sys2Proof.Machine.execVlog2 p a s
  | .vrcp p a => Sys2Proof.Machine.execVrcp p a s
  | .vrsqrt p a => Sys2Proof.Machine.execVrsqrt p a s
  | .vtanh p a => Sys2Proof.Machine.execVtanh p a s
  | .vsigm p a => Sys2Proof.Machine.execVsigm p a s
  | .gate p pm vd va k => Sys2Proof.Machine.execGate p pm vd va k s
  | .gpack p vd va ss => Sys2Proof.Machine.execGpack p vd va ss s
  | .outboxRelease p slot => Sys2Proof.Machine.execOutboxRelease p slot s
  | .outboundCrossingRelease d late => Sys2Proof.Machine.execOutboundCrossingRelease d late s
  | .meshHop ix badFlits => Sys2Proof.Machine.execMeshHop ix badFlits s
  | .crossingEntry d => Sys2Proof.Machine.execCrossingEntry d s
  | .inboundCrossingRelease d late => Sys2Proof.Machine.execInboundCrossingRelease d late s
  | .vectorArrivalPort port badFlits => Sys2Proof.Machine.execVectorArrivalPort port badFlits s
  | .vectorReplaySend port => Sys2Proof.Machine.execVectorReplaySend port s
  | .replayCopyDeparture port => Sys2Proof.Machine.execReplayCopyDeparture port s
  | .frameReceive port frame => Sys2Proof.Machine.execFrameReceive port frame s
  | .linkPacketReceive port pkt => Sys2Proof.Machine.execLinkPacketReceive port pkt s
  | .ackReceived port ack => Sys2Proof.Machine.execAckReceived port ack s
  | .nakReceived port fret mask => Sys2Proof.Machine.execNakReceived port fret mask s
  | .ackTimeout port => Sys2Proof.Machine.execAckTimeout port s
  | .partnerLeaving port => Sys2Proof.Machine.execPartnerLeaving port s
  | .laneLockLoss port lane => Sys2Proof.Machine.execLaneLockLoss port lane s
  | .laneSubReqReceived port lane => Sys2Proof.Machine.execLaneSubReqReceived port lane s
  | .laneSubAckReceived port lane fret256 => Sys2Proof.Machine.execLaneSubAckReceived port lane fret256 s
  | .laneSwitchFret port => Sys2Proof.Machine.execLaneSwitchFret port s
  | .portRecovered port record t => Sys2Proof.Machine.execPortRecovered port record t s
  | .linkDownTimeout port => Sys2Proof.Machine.execLinkDownTimeout port s
  | .detourProposalTimeout => Sys2Proof.Machine.execDetourProposalTimeout s
  | .portTrainingComplete port t => Sys2Proof.Machine.execPortTrainingComplete port t s
  | .trainingAttemptFail port fewLanes => Sys2Proof.Machine.execTrainingAttemptFail port fewLanes s
  | .discoveryDeadline => Sys2Proof.Machine.execDiscoveryDeadline s
  | .timeExchangeStart port t1 => Sys2Proof.Machine.execTimeExchangeStart port t1 s
  | .timeExchangeReqReceived port record t2 t3 => Sys2Proof.Machine.execTimeExchangeReqReceived port record t2 t3 s
  | .timeExchangeRspReceived port record t4 => Sys2Proof.Machine.execTimeExchangeRspReceived port record t4 s
  | .timeExchangeMissed port => Sys2Proof.Machine.execTimeExchangeMissed port s
  | .domainMissing b => Sys2Proof.Machine.execDomainMissing b s
  | .holdoverBudgetExpiry => Sys2Proof.Machine.execHoldoverBudgetExpiry s
  | .ppsEdge b rising stamp => Sys2Proof.Machine.execPpsEdge b rising stamp s
  | .ppsLost b => Sys2Proof.Machine.execPpsLost b s
  | .triggerFire n => Sys2Proof.Machine.execTriggerFire n s
  | .triggerPulseEnd n => Sys2Proof.Machine.execTriggerPulseEnd n s
  | .captureEdge n rising stamp => Sys2Proof.Machine.execCaptureEdge n rising stamp s
  | .ptmRequestTimer => Sys2Proof.Machine.execPtmRequestTimer s
  | .ptmResponse t4 fields => Sys2Proof.Machine.execPtmResponse t4 fields s
  | .droopTrip d => Sys2Proof.Machine.execDroopTrip d s
  | .droopClear d => Sys2Proof.Machine.execDroopClear d s
  | .clockFault d e => Sys2Proof.Machine.execClockFault d e s
  | .haltRestart ns notLocked => Sys2Proof.Machine.execHaltRestart ns notLocked s
  | .retuneIdleApply => Sys2Proof.Machine.execRetuneIdleApply s
  | .queueOpComplete d ix x => Sys2Proof.Machine.execQueueOpComplete d ix x s
  | .hbmScrubStep h errs => Sys2Proof.Machine.execHbmScrubStep h errs s
  | .rowRemap h pc row => Sys2Proof.Machine.execRowRemap h pc row s
  | .pseudoChannelLost h pc => Sys2Proof.Machine.execPseudoChannelLost h pc s
  | .bar2Write off data ep => Sys2Proof.Machine.execBar2Write off data ep s
  | .bar2Read off len errs => Sys2Proof.Machine.execBar2Read off len errs s
  | .dmaTransferComplete ch x => Sys2Proof.Machine.execDmaTransferComplete ch x s
  | .streamSend n req => Sys2Proof.Machine.execStreamSend n req s
  | .servicePacketDepart port => Sys2Proof.Machine.execServicePacketDepart port s
  | .servicePacketForward port => Sys2Proof.Machine.execServicePacketForward port s
  | .residenceTimeout port => Sys2Proof.Machine.execResidenceTimeout port s
  | .svcLoad port errs => Sys2Proof.Machine.execSvcLoad port errs s
  | .svcStore port => Sys2Proof.Machine.execSvcStore port s
  | .svcAtomic port errs => Sys2Proof.Machine.execSvcAtomic port errs s
  | .svcPut port => Sys2Proof.Machine.execSvcPut port s
  | .svcMsg port => Sys2Proof.Machine.execSvcMsg port s
  | .svcLoadData port => Sys2Proof.Machine.execSvcLoadData port s
  | .svcStoreAck port => Sys2Proof.Machine.execSvcStoreAck port s
  | .svcAtomicRsp port => Sys2Proof.Machine.execSvcAtomicRsp port s
  | .svcCredit port => Sys2Proof.Machine.execSvcCredit port s
  | .creditTimer n => Sys2Proof.Machine.execCreditTimer n s
  | .svcGrant port => Sys2Proof.Machine.execSvcGrant port s
  | .streamTimeout n => Sys2Proof.Machine.execStreamTimeout n s
  | .svcProbe port => Sys2Proof.Machine.execSvcProbe port s
  | .svcProbeRsp port => Sys2Proof.Machine.execSvcProbeRsp port s
  | .mbxActionMsg => Sys2Proof.Machine.execMbxActionMsg s
  | .peerResetMsg => Sys2Proof.Machine.execPeerResetMsg s
  | .notArmed => Sys2Proof.Machine.execNotArmed s
  | .detourPropose => Sys2Proof.Machine.execDetourPropose s
  | .detourAccept => Sys2Proof.Machine.execDetourAccept s
  | .detourRefuse => Sys2Proof.Machine.execDetourRefuse s
  | .detourCancel => Sys2Proof.Machine.execDetourCancel s
  | .portState => Sys2Proof.Machine.execPortState s
  | .chunkRequest errs => Sys2Proof.Machine.execChunkRequest errs s
  | .chunkDecline => Sys2Proof.Machine.execChunkDecline s
  | .transitFailed => Sys2Proof.Machine.execTransitFailed s
  | .chunkHashComplete f chunk host => Sys2Proof.Machine.execChunkHashComplete f chunk host s
  | .completionRingRead => Sys2Proof.Machine.execCompletionRingRead s
  | .reqCompletePost ch => Sys2Proof.Machine.execReqCompletePost ch s
  | .noticeSend ch => Sys2Proof.Machine.execNoticeSend ch s
  | .asyncCommandComplete ch tag x => Sys2Proof.Machine.execAsyncCommandComplete ch tag x s
  | .faultRecordDrain => Sys2Proof.Machine.execFaultRecordDrain s
  | .sramScrubStep e x => Sys2Proof.Machine.execSramScrubStep e x s
  | .sramRowSubstitute e => Sys2Proof.Machine.execSramRowSubstitute e s
  | .thermalSample t => Sys2Proof.Machine.execThermalSample t s
  | .thermalReleaseStep => Sys2Proof.Machine.execThermalReleaseStep s
  | .railFault rail m => Sys2Proof.Machine.execRailFault rail m s
  | .powerFail m vkeep => Sys2Proof.Machine.execPowerFail m vkeep s
  | .saveComplete us vkeepEnd => Sys2Proof.Machine.execSaveComplete us vkeepEnd s
  | .coldReset b => Sys2Proof.Machine.execColdReset b s
  | .warmReset b => Sys2Proof.Machine.execWarmReset b s
  | .bootRomRun pass0 pass1 recovery => Sys2Proof.Machine.execBootRomRun pass0 pass1 recovery s
  | .firmwareStart stacksOk => Sys2Proof.Machine.execFirmwareStart stacksOk s
  | .pcieConventionalReset straps => Sys2Proof.Machine.execPcieConventionalReset straps s
  | .functionLevelReset => Sys2Proof.Machine.execFunctionLevelReset s
  | .trstAssert => Sys2Proof.Machine.execTrstAssert s
  | .districtReset d xin xout => Sys2Proof.Machine.execDistrictReset d xin xout s
  | .portReset port => Sys2Proof.Machine.execPortReset port s
  | .watchdogExpiry => Sys2Proof.Machine.execWatchdogExpiry s
  | .machineCheck => Sys2Proof.Machine.execMachineCheck s
  | .tileReset p => Sys2Proof.Machine.execTileReset p s
  | .tilePowerGate p => Sys2Proof.Machine.execTilePowerGate p s
  | .tilePowerUngate p => Sys2Proof.Machine.execTilePowerUngate p s
  | .stopAtMeridianWrite p v => Sys2Proof.Machine.execStopAtMeridianWrite p v s
  | .clkRetuneWrite d v => Sys2Proof.Machine.execClkRetuneWrite d v s
  | .clkRefusedClear d => Sys2Proof.Machine.execClkRefusedClear d s
  | .clkMinSettingWrite d v => Sys2Proof.Machine.execClkMinSettingWrite d v s
  | .fabEpochRequest port at_ => Sys2Proof.Machine.execFabEpochRequest port at_ s
  | .fabEpochCancel port refused => Sys2Proof.Machine.execFabEpochCancel port refused s
  | .fabEpochRefusedClear port => Sys2Proof.Machine.execFabEpochRefusedClear port s
  | .cancelAll d => Sys2Proof.Machine.execCancelAll d s
  | .mqeQcfgWrite d q v => Sys2Proof.Machine.execMqeQcfgWrite d q v s
  | .streamGrantWrite n v => Sys2Proof.Machine.execStreamGrantWrite n v s
  | .streamResetWrite n => Sys2Proof.Machine.execStreamResetWrite n s
  | .counterArm n v => Sys2Proof.Machine.execCounterArm n v s
  | .counterClear n => Sys2Proof.Machine.execCounterClear n s
  | .lnkTrain port => Sys2Proof.Machine.execLnkTrain port s
  | .lnkForceDown port v => Sys2Proof.Machine.execLnkForceDown port v s
  | .lnkQuarantineWrite port v => Sys2Proof.Machine.execLnkQuarantineWrite port v s
  | .lnkGateWrite port v => Sys2Proof.Machine.execLnkGateWrite port v s
  | .laneRetireWrite port lane => Sys2Proof.Machine.execLaneRetireWrite port lane s
  | .ngtSwitchReq => Sys2Proof.Machine.execNgtSwitchReq s
  | .ngtCaptPop n => Sys2Proof.Machine.execNgtCaptPop n s
  | .ngtTrigWrite n ctl v => Sys2Proof.Machine.execNgtTrigWrite n ctl v s
  | .ngtNowRead who half => Sys2Proof.Machine.execNgtNowRead who half s
  | .secAdvanceWrite => Sys2Proof.Machine.execSecAdvanceWrite s
  | .rasLogPop => Sys2Proof.Machine.execRasLogPop s
  | .rasCapoPendWrite d v => Sys2Proof.Machine.execRasCapoPendWrite d v s
  | .devResetWarm who key b => Sys2Proof.Machine.execDevResetWarm who key b s
  | .devEventMaskWrite mask => Sys2Proof.Machine.execDevEventMaskWrite mask s
  | .mbxSend who ch => Sys2Proof.Machine.execMbxSend who ch s
  | .mbxTake who ch => Sys2Proof.Machine.execMbxTake who ch s
  | .mbxReply who ch => Sys2Proof.Machine.execMbxReply who ch s
  | .mbxConsume who ch => Sys2Proof.Machine.execMbxConsume who ch s
  | .mbxWinAccess who off acc => Sys2Proof.Machine.execMbxWinAccess who off acc s
  | .dblRing who ch v => Sys2Proof.Machine.execDblRing who ch v s
  | .dblStatusClear who ch v => Sys2Proof.Machine.execDblStatusClear who ch v s
  | .dblMaskWrite who ch v => Sys2Proof.Machine.execDblMaskWrite who ch v s
  | .mbxBindWrite who ch v => Sys2Proof.Machine.execMbxBindWrite who ch v s
  | .mbxSealSet who => Sys2Proof.Machine.execMbxSealSet who s
  | .rcRegisterRead who off half => Sys2Proof.Machine.execRcRegisterRead who off half s
  | .registerWrite who off half v => Sys2Proof.Machine.execRegisterWrite who off half v s
  | .i2cDevId => Sys2Proof.Machine.execI2cDevId s
  | .i2cStatus => Sys2Proof.Machine.execI2cStatus s
  | .i2cThermal => Sys2Proof.Machine.execI2cThermal s
  | .i2cPower => Sys2Proof.Machine.execI2cPower s
  | .i2cMbxSelect v pecOk => Sys2Proof.Machine.execI2cMbxSelect v pecOk s
  | .i2cMbxOffset v pecOk => Sys2Proof.Machine.execI2cMbxOffset v pecOk s
  | .i2cMbxData acc pecOk => Sys2Proof.Machine.execI2cMbxData acc pecOk s
  | .i2cMbxAction v pecOk => Sys2Proof.Machine.execI2cMbxAction v pecOk s
  | .i2cDoorbellRead => Sys2Proof.Machine.execI2cDoorbellRead s
  | .i2cDoorbellRing v pecOk => Sys2Proof.Machine.execI2cDoorbellRing v pecOk s
  | .i2cDoorbellClear v pecOk => Sys2Proof.Machine.execI2cDoorbellClear v pecOk s
  | .i2cSideReset v pecOk => Sys2Proof.Machine.execI2cSideReset v pecOk s
  | .smbusAlertResponse => Sys2Proof.Machine.execSmbusAlertResponse s
  | .devInfo ch => Sys2Proof.Machine.execDevInfo ch s
  | .devStatus ch => Sys2Proof.Machine.execDevStatus ch s
  | .faultLogRead ch => Sys2Proof.Machine.execFaultLogRead ch s
  | .faultAck ch => Sys2Proof.Machine.execFaultAck ch s
  | .timeRoleSet ch => Sys2Proof.Machine.execTimeRoleSet ch s
  | .timeStatus ch => Sys2Proof.Machine.execTimeStatus ch s
  | .trigSchedule ch => Sys2Proof.Machine.execTrigSchedule ch s
  | .captRead ch => Sys2Proof.Machine.execCaptRead ch s
  | .almanacLoad ch host => Sys2Proof.Machine.execAlmanacLoad ch host s
  | .almanacActivate ch => Sys2Proof.Machine.execAlmanacActivate ch s
  | .discoverReport ch => Sys2Proof.Machine.execDiscoverReport ch s
  | .portOpen ch => Sys2Proof.Machine.execPortOpen ch s
  | .portClose ch => Sys2Proof.Machine.execPortClose ch s
  | .portDrain ch => Sys2Proof.Machine.execPortDrain ch s
  | .progLoad ch host => Sys2Proof.Machine.execProgLoad ch host s
  | .progArm ch => Sys2Proof.Machine.execProgArm ch s
  | .progStart ch => Sys2Proof.Machine.execProgStart ch s
  | .progStop ch => Sys2Proof.Machine.execProgStop ch s
  | .progStatus ch => Sys2Proof.Machine.execProgStatus ch s
  | .detourSelect ch => Sys2Proof.Machine.execDetourSelect ch s
  | .epochFlip ch => Sys2Proof.Machine.execEpochFlip ch s
  | .trustEnroll ch host => Sys2Proof.Machine.execTrustEnroll ch host s
  | .weightManifestLoad ch host => Sys2Proof.Machine.execWeightManifestLoad ch host s
  | .shardFetch ch leaves => Sys2Proof.Machine.execShardFetch ch leaves s
  | .shardServe ch => Sys2Proof.Machine.execShardServe ch s
  | .shardStatus ch => Sys2Proof.Machine.execShardStatus ch s
  | .reqSubmit ch => Sys2Proof.Machine.execReqSubmit ch s
  | .reqStatus ch => Sys2Proof.Machine.execReqStatus ch s
  | .reqCancel ch => Sys2Proof.Machine.execReqCancel ch s
  | .dmaCopy ch => Sys2Proof.Machine.execDmaCopy ch s
  | .memScrub ch => Sys2Proof.Machine.execMemScrub ch s
  | .energyBudgetSet ch => Sys2Proof.Machine.execEnergyBudgetSet ch s
  | .energyReport ch => Sys2Proof.Machine.execEnergyReport ch s
  | .retuneRequest ch => Sys2Proof.Machine.execRetuneRequest ch s
  | .repairStatus ch => Sys2Proof.Machine.execRepairStatus ch s
  | .tileRetire ch => Sys2Proof.Machine.execTileRetire ch s
  | .laneRetire ch => Sys2Proof.Machine.execLaneRetire ch s
  | .hbmRowRepair ch => Sys2Proof.Machine.execHbmRowRepair ch s
  | .stewardSwitchover ch => Sys2Proof.Machine.execStewardSwitchover ch s
  | .ledgerAudit ch => Sys2Proof.Machine.execLedgerAudit ch s
  | .telemetryRead ch => Sys2Proof.Machine.execTelemetryRead ch s
  | .telemetryStream ch => Sys2Proof.Machine.execTelemetryStream ch s
  | .telemetryRecord ix g => Sys2Proof.Machine.execTelemetryRecord ix g s
  | .attest ch => Sys2Proof.Machine.execAttest ch s
  | .fwUpdateStage ch host => Sys2Proof.Machine.execFwUpdateStage ch host s
  | .fwUpdateCommit ch => Sys2Proof.Machine.execFwUpdateCommit ch s
  | .diagRead ch x => Sys2Proof.Machine.execDiagRead ch x s
  | .diagWrite ch x => Sys2Proof.Machine.execDiagWrite ch x s
  | .stretchHistoryRead => Sys2Proof.Machine.execStretchHistoryRead s
  | .portDrainTimeout port => Sys2Proof.Machine.execPortDrainTimeout port s
  | .bulkResultExpiry ch => Sys2Proof.Machine.execBulkResultExpiry ch s
  | .pcieLinkUp speed width => Sys2Proof.Machine.execPcieLinkUp speed width s
  | .pcieConfigWrite off v => Sys2Proof.Machine.execPcieConfigWrite off v s
  | .msixVectorUnmask vec => Sys2Proof.Machine.execMsixVectorUnmask vec s
  | .portPowerGate port on => Sys2Proof.Machine.execPortPowerGate port on s
  | .districtPowerGate d on xin xout => Sys2Proof.Machine.execDistrictPowerGate d on xin xout s

end Sys2Proof.Machine
end

