-- ==== Sys2Proof/Safety.lean ====
section
/-!
DEFINITION. What counts as a safe run: every step answers a next state, and the invariants of the device's state.
-/
namespace Sys2Proof.Machine

/-- The states a run of `n` steps ends in; none if a step stops. -/
def run : Nat → State → Option State
  | 0, s => some s
  | n + 1, s => match step s with
    | .next t => run n t
    | _ => none

/-- Queueing a command at the back (the sender's only act). -/
def State.send (s : State) (c : Instr) : State := { s with pending := s.pending ++ [c] }

/-- The byte memories of the device stand in their canonical form: the local HBM, the message areas, what was written to host
memory, and the tile stores. -/
def State.memWf (s : State) : Bool :=
  Mem.wf s.hbm && Mem.wf s.stw.toHost && s.stw.chans.all (fun e => Mem.wf e.2.area) && s.tiles.all fun e => Mem.wf e.2.store

/-- Every reset value the register map gives, and the register table in its canonical form apart from the default: keys strictly
rise. -/
def State.regsWf (s : State) : Bool := s.regs.Pairwise (fun a b => a.1 < b.1)

/-- A state from which a run goes on: its next step answers a next state. -/
def State.goesOn (s : State) : Prop := ∃ t, step s = .next t

/-! ## Words of the statements -/

/-- A command answers a next state, and that state has a property. -/
def Ends (c : Instr) (s : State) (P : State → Prop) : Prop := ∃ t, exec c s = .next t ∧ P t

/-- No error has struck a word of the tile's arrays that nothing has read since (R51). -/
def State.sramSound (s : State) (p : PTile) : Prop := ∀ e ∈ s.ras.latent, e.unit = p.val → 3 < e.array

/-- The tile may issue now, its bundle address passes the checks before issue (R53, R52), and its arrays hold no error still to be
found. -/
def State.canIssue (s : State) (p : PTile) : Prop :=
  s.mayIssue p.val = true ∧ s.addressFault p.val = none ∧ s.sramSound p

/-- No operation issued in an earlier cycle has a write in flight to a register named: scalar, vector, predicate (R59). -/
def Tile.readable (t : Tile) (ss : List (BitVec 5)) (vs : List (BitVec 6)) (ps : List (BitVec 4)) : Prop :=
  (∀ n ∈ ss, inFlightTo t (0, n.toNat) = false) ∧ (∀ n ∈ vs, inFlightTo t (1, n.toNat) = false) ∧
    ∀ n ∈ ps, inFlightTo t (2, n.toNat) = false

/-- A write of latency `lat` to a register completes after every write in flight to it (R36, R59). -/
def Tile.freeAt (t : Tile) (lat : Nat) (w : Landing) : Prop :=
  ∀ d, target w = some d → ∀ f ∈ t.issue.inflight, target f.what = some d → f.done < t.issue.cycle + lat

/-- The tile `x` moved on to its next bundle, one cycle of the tile's district later. -/
def State.stepOf (s : State) (p : PTile) (x : Tile) : Tile := moveOn (s.beat p.val) x .seq false

/-- The tile with writes in flight from cycle `c` that complete `lat` cycles later. -/
def Tile.fly (t : Tile) (c lat : Nat) (ws : List Landing) : Tile :=
  { t with issue := { t.issue with
      inflight := t.issue.inflight ++ ws.map fun w => { issued := c, done := c + lat, what := w } } }

/-- What a result of latency 1 leaves (R36, R64): it lands as the next cycle begins, and where that is past the meridian it stays in
flight. -/
def State.lands (s : State) (p : PTile) (w : Landing) : Tile :=
  let t := s.tile p.val
  if (s.beat p.val).next t ≤ (s.beat p.val).stop then land (s.stepOf p t) w else (s.stepOf p t).fly t.issue.cycle 1 [w]

/-- Only one tile and the NGT count differ. -/
def State.onlyTile (s : State) (p : PTile) (t : State) : Prop :=
  (∀ q, q ≠ p.val → t.tile q = s.tile q) ∧ t = { s with tiles := t.tiles, ngt := { s.ngt with now := t.ngt.now } }

/-- A command that issues on a tile leaves the tile as `x`, and nothing else but the time differs. -/
def State.tileEnds (s : State) (p : PTile) (c : Instr) (x : Tile) : Prop :=
  Ends c s fun t => t.tile p.val = x ∧ s.onlyTile p t

/-- A program-fatal fault does not end a program at once: meridians are generated, or no program is loaded. -/
def State.stopsLater (s : State) : Prop := s.valid = true ∨ s.prog.st = .none

/-- No packet waits on any stream for credits or for a usable route. -/
def State.quiet (s : State) : Prop := ∀ e ∈ s.svc.ctx, e.2.waiting = []

/-- Only the registers named differ. -/
def State.onlyRegs (s : State) (os : List Nat) (t : State) : Prop :=
  (∀ o, o ∉ os → t.reg o = s.reg o) ∧ t = { s with regs := t.regs }

/-- Only the registers named differ, and the answer of the access is OK. -/
def State.wroteRegs (s : State) (os : List Nat) (t : State) : Prop :=
  (∀ o, o ∉ os → t.reg o = s.reg o) ∧ t = { s with regs := t.regs, stw := { s.stw with answer := {} } }

/-- The receiving half accepts the request `f` (R348), and releasing it sends no CREDIT yet (R347). -/
def State.takes (s : State) (f : Nat) : Prop :=
  let c := s.ctx (SH.stream f)
  0 ≤ seqDist (SH.sseq f) c.rxBase ∧ seqDist (SH.sseq f) c.rxBase < 64 ∧ (∀ r ∈ c.rxMap, r.seq ≠ SH.sseq f) ∧
    c.held + costOf f ≤ c.granted ∧
    4 * (((c.rxReleased + costOf f) % 2 ^ 32 + 2 ^ 32 - c.credited) % 2 ^ 32) <
      s.fget (R.svcSctxNRx (SH.stream f)) F.svcSctxNRx_RX_WINDOW

/-- The response to `f` finds its output port open and its queue with room (R344, R351). -/
def State.answerable (s : State) (f : Nat) : Prop :=
  backRoute f % 16 < 8 ∧ s.svcTakes (backRoute f % 16) = true ∧ heldFlits (s.outQ (backRoute f % 16)) SH.isRsp + 64 ≤ 65536

/-- A response to `f` joined the output queue of the port the request came in on (R355). -/
def State.reply (s u : State) (f op st : Nat) (body : List Byte) : Prop :=
  ∃ h : SvcHeld, u.outQ (backRoute f % 16) = s.outQ (backRoute f % 16) ++ [h] ∧ SH.op h.pkt.flit.toNat = op ∧
    SH.status h.pkt.flit.toNat = st ∧ SH.dest h.pkt.flit.toNat = SH.src f ∧ SH.sseq h.pkt.flit.toNat = SH.sseq f ∧
    h.pkt.body = body

/-- Firmware serves the request `c` of a channel by a row of layout `l` (R466, R467): the channel is next in round robin, the
request is no aborted notice, carries the row's opcode and passes checks 2 to 5, and the channel's ledger is right (R514); `z` is the
state after TAKE. -/
def State.asked (s : State) (ch : Fin 64) (l : Layout) (c : Cmd) (z : State) : Prop :=
  s.serving = true ∧ s.nextWaiting = some ch.val ∧ (s.chan ch.val).broken = none ∧ c = s.cmdAt ch.val ∧
    z = s.takeRequest ch.val ∧ c.aborted = false ∧ c.opcode = l.opcode ∧ z.firstFail l c = none

/-- `u` is `e` with the reply to `c` posted (R455, R466): the channel is TO_INIT, the message carries LENGTH, OPCODE, STATUS,
REPLY = 1, TAG, ARGS and body; besides the channel only its doorbell register, the vectors it signals and the journal differ. -/
def State.replied (e u : State) (c : Cmd) (st args : Nat) (body : List Byte) : Prop :=
  let a := (u.chan c.ch).area
  (u.chan c.ch).st = 2 ∧ Mem.rdNat a 0 2 = body.length ∧ Mem.rdNat a 2 2 = c.opcode ∧ Mem.rdNat a 4 2 = st ∧
    Mem.rdNat a 6 1 % 4 = 1 ∧ Mem.rdNat a 8 8 = c.tag ∧ Mem.rdNat a 32 32 = args % 2 ^ 256 ∧ Mem.rdBytes a 64 body.length = body ∧
    (u.reg (R.dblStatusN c.ch)).getLsbD 0 = true ∧ (∀ m, m ≠ c.ch → u.chan m = e.chan m) ∧
    (∀ o, o ≠ R.dblStatusN c.ch → u.reg o = e.reg o) ∧
    u = { e with regs := u.regs, stw := { e.stw with chans := u.stw.chans, msix := u.stw.msix, journal := u.stw.journal } }

/-- Fewer than 256 commands of the channel are in progress (R470). -/
def State.roomFor (z : State) (c : Cmd) : Prop := (z.stw.cmds.filter fun x => x.chan == c.ch).length < 256

/-- `u` is `e` with the accepted command `c` in progress (R469): `bs` is its bulk data or body, `done` the status it is known to
end with; HOST and BMC are answered ACCEPTED, another initiator's channel is held. -/
def State.held (e u : State) (c : Cmd) (bs : List Byte) (done : Option Nat) (args : Nat) : Prop :=
  ∃ x : AsyncCmd, x.chan = c.ch ∧ x.tag = c.tag ∧ x.opcode = c.opcode ∧ x.args = leBytes 32 c.args ∧ x.data = bs ∧
    x.result = done ∧
    let w := { e with stw := { e.stw with cmds := e.stw.cmds ++ [x] } }
    ((e.noticeChan c.ch).isSome = true → w.replied u c 1 args []) ∧ ((e.noticeChan c.ch).isSome = false → u = w)

/-- The request ledger is right and its ring has room for one more entry (R514), or the ledgers are suspended. -/
def State.ringRight (s : State) : Prop :=
  s.ledgersOn = false ∨ (s.reqBroken = [] ∧ s.reqConsumed ≤ s.prog.posted ∧ s.prog.posted < s.reqConsumed + 16384)

/-- The bulk bytes of a command are complete (R472): `bs`, after which `e` holds no assembly of the channel. -/
def State.gotBulk (z : State) (c : Cmd) (host bs : List Byte) (e : State) : Prop :=
  z.inbound c host = .whole bs ∧ e = { z with stw := { z.stw with bulkIn := tdel z.stw.bulkIn c.ch } }

/-- Whether an outstanding store to the local slot covers part of the unit of byte `a` (R204: a cancelled one may have written it). -/
def State.storesAt (s : State) (o : MqeOp) (a : Nat) : Bool :=
  !o.kind.loads && o.addr / 2 ^ 40 == s.ownSlot && (unitsOf (o.addr % 2 ^ 40) o.len).contains (a / 64)

/-- Whether an outstanding load would write byte `a` of its tile's store. -/
def MqeOp.loadsAt (o : MqeOp) (a : Nat) : Bool :=
  match o.kind with
  | .ldqt st => st ≤ a && a < st + o.len
  | _ => false

end Sys2Proof.Machine
end

