-- ==== Sys2Proof/Certificates/Slice0/Obligations.lean ====
section
/-!
DEFINITION. The statements about the model: what each command does where the spec says it completes, and what every step
keeps.
-/
open Sys2Proof Sys2Proof.Machine

/-- For every command c at the front of the queue and every rest of the queue, a step answers what exec answers for c on
the state with that rest. -/
def Obligations.StepTakesFront : Prop :=
  ∀ (c : Instr) (cs : List Instr) (s : State), s.pending = c :: cs → step s = exec c { s with pending := cs }

/-- With no command waiting a step answers a next state that differs in the NGT count only; while no meridian is due, the
count goes on by one nanosecond at the rate of the servo. That an idle step is one tick is the model's choice
(notes/assumptions/2.md). -/
def Obligations.StepIdleTicks : Prop :=
  ∀ s : State, s.pending = [] → ∃ t, step s = .next t ∧ t = { s with ngt := { s.ngt with now := t.ngt.now } } ∧
    s.ngt.now ≤ t.ngt.now ∧
    (s.nextMeridian = none → 0 ≤ (2 : Int) ^ 48 + s.ngt.y → (t.ngt.now : Int) = s.ngt.now + (2 ^ 48 + s.ngt.y))

/-- The spec gives every command an effect, an error response or a fault record: no step of the model ends in a fault or a
refusal. -/
def Obligations.NothingStops : Prop :=
  ∀ s : State, ∃ t, step s = .next t

/-- Right after a cold reset no command waits, memories, scalar and vector registers, latches and tags are empty, p0 is
all ones, every tile is IDLE, and the registers hold the reset values the register tables give. -/
def Obligations.ResetState : Prop :=
  let s := State.reset
  s.pending = [] ∧ s.hbm = [] ∧ s.hbmPoison = [] ∧ s.ras.queue = [] ∧ s.mesh = [] ∧ s.reqDone = [] ∧
  (∀ p, (s.tile p).issue.status = .idle ∧ (s.tile p).store = [] ∧ (s.tile p).imem = [] ∧ (s.tile p).tags = [] ∧
    (∀ n, (rdS (s.tile p) n).val = 0 ∧ (rdS (s.tile p) n).poison = false) ∧ (∀ n, rdV (s.tile p) n = {}) ∧
    (rdP (s.tile p) 0).val = BitVec.allOnes 256) ∧
  (∀ i, (s.req i).st = .free) ∧ (∀ n, (s.chan n).st = 0) ∧
  s.fget R.devStatus F.devStatus_STATE = 0 ∧ s.fget R.devStatus F.devStatus_SEALED = 0 ∧
  s.fget R.ngtStatus F.ngtStatus_STATE = 0 ∧ s.fget R.ngtRole F.ngtRole_PARENT_A = 15 ∧ s.fget R.ngtRole F.ngtRole_PARENT_B = 15 ∧
  s.fget R.ngtServoThresh F.ngtServoThresh_LOCK_PS = 750 ∧ s.fget R.ngtServoThresh F.ngtServoThresh_UNLOCK_PS = 1500 ∧
  s.fget R.clkRetune F.clkRetune_SETTING = 42 ∧ s.fget R.clkMinSetting F.clkMinSetting_MIN = 20 ∧
  s.fget R.fabEpoch F.fabEpoch_DRAINED = 1 ∧ s.fget R.svcCtl F.svcCtl_VC_COUNT = 4 ∧
  s.fget R.svcCtl F.svcCtl_STREAM_TIMEOUT_US = 10000 ∧ s.fget R.devEvent F.devEvent_MASK = 15 ∧
  s.fget R.enrBudget F.enrBudget_IN_FORCE_MW = 2200000 ∧ s.fget R.pwrTherm F.pwrTherm_CAP = 42 ∧
  s.fget R.ldgCtl F.ldgCtl_FAIL_HOLD_NS = 1000

/-- ADD, ADD with an immediate, LOOP and TEND of the C slot, LD.V, SEND, ACSET, VADD and VCVT, each written out from R127
to R138, decode to themselves; a reserved opcode fails with reason 4, a nonzero unused bit with 5, a reserved type
with 6, a type an operation does not take with 7, GATE in V1 with 8; a bad marker fails the header with 1, a reserved
header bit with 2. -/
def Obligations.BundleWords : Prop :=
  decodeSlot .c 0x04221800 = .ok (.alu .add 1 2 (.reg 3)) ∧ decodeSlot .c 0x8422FFFF = .ok (.alu .add 1 2 (.imm 0xFFFF)) ∧
  decodeSlot .c 0x70006010 = .ok (.loop (.imm 3) 0x10) ∧ decodeSlot .c 0x7C000000 = .ok .tend ∧
  decodeSlot .l 0x8A6000080 = .ok (.ldv 5 6 0x80) ∧ decodeSlot .x 0x8221A0000 = .ok (.send 1 2 3 4) ∧
  decodeSlot .m 0x420280000000 = .ok (.acset 1 (.imm 5)) ∧
  decodeSlot .v0 0x400108300 = .ok (.vbin .vadd { slot := .v0, ty := .f32, z := false, pm := 0, vd := 1, va := 2, vb := 3, vc := 0,
                                                  u := false }) ∧
  decodeSlot .v1 0xA004010800 = .ok (.vcvt { slot := .v1, sty := .f32, dty := .bf16, pm := 0, vd := 1, va := 2, h := 0,
                                             stochastic := false, satf := false, ss := 0 }) ∧
  decodeSlot .c 0 = .error 4 ∧ decodeSlot .c 0x04221801 = .error 5 ∧ decodeSlot .v0 0x700000000 = .error 6 ∧
  decodeSlot .v0 0x1980000000 = .error 7 ∧ decodeSlot .v1 0xE000000000 = .error 8 ∧
  decodeHeader 0x8000 = .empty ∧ decodeHeader 0 = .fail ⟨.bundle, 1, 0⟩ ∧ decodeHeader 0x8040 = .fail ⟨.bundle, 2, 0x8040⟩

/-- For every operation of a tile that passes the decode check of R125, with the register field an encoding does not hold
at 0 (va of VBCAST, vb of VRED), the decoder reads the bits that spell it in its slot back as that operation, with
every operand at every value. -/
def Obligations.BundleRoundTrip : Prop :=
  ∀ op : SlotOp, opFail op = none → (∀ a ss, op = .vbcast a ss → a.va = 0) → (∀ a o g, op = .vred a o g → a.vb = 0) →
    decodeSlot (slotOf op) (opBits op) = .ok op

/-- If the HBM, the message areas, the bytes written to host memory and every tile store list rising addresses with no
zero byte, and a step answers a next state, then they do so there: equal memories stay equal data, whatever command
ran. -/
def Obligations.MemoriesKeepForm : Prop :=
  ∀ s t : State, s.memWf = true → step s = .next t → t.memWf = true

/-- State.reset satisfies the invariant of MemoriesKeepForm, and its register table lists rising offsets. -/
def Obligations.ResetMemoriesInForm : Prop :=
  State.reset.memWf = true ∧ State.reset.regsWf = true

/-- Formalises R113. On a tile that may issue, with the scalar registers it reads readable and no write in flight to sd
that completes in or after the next cycle, each of ADD, SUB, MUL, MULHS, MULHU, AND, OR, XOR, SHL, SHR, SRA, MIN, MAX,
MINU, MAXU, SEQ, SLT and SLTU answers a next state in which sd holds the value the table of R113 gives on the operands
(the second a register or a sign-extended immediate), with the poison of either source; MOVI writes its sign-extended
immediate, MOVK replaces bits 16h + 15 to 16h, RDT writes the transit number of the block and RDL the logical tile
number; s0 still reads 0. No value faults. The result lands as the next cycle begins, where that is no later than the
meridian; else it stays in flight. Nothing else differs from what a bundle that issues nothing leaves: the tile one
cycle and one address on, and the time. -/
def Obligations.ScalarResult : Prop :=
  (∀ (s : State) (p : PTile) (sd sa : BitVec 5) (b : Src2), s.canIssue p →
    let t := s.tile p.val
    t.readable (sa :: Src2regs b) [] [] → t.freeAt 1 (.sreg sd.toNat {}) →
    let x := rdS t sa
    let y := src2Val t b
    let gives := fun (c : Instr) (v : Word) =>
      Ends c s fun u =>
        ((s.beat p.val).next t ≤ (s.beat p.val).stop →
          rdS (u.tile p.val) sd = (if sd = 0 then {} else { val := v, poison := x.poison || y.poison })) ∧
        u.tile p.val = s.lands p (.sreg sd.toNat { val := v, poison := x.poison || y.poison }) ∧ s.onlyTile p u
    gives (.add_ p sd sa b) (x.val + y.val) ∧
    gives (.sub_ p sd sa b) (x.val - y.val) ∧
    gives (.mul_ p sd sa b) (x.val * y.val) ∧
    gives (.mulhs p sd sa b) (BitVec.ofInt 64 (x.val.toInt * y.val.toInt / 2 ^ 64)) ∧
    gives (.mulhu p sd sa b) (BitVec.ofNat 64 (x.val.toNat * y.val.toNat / 2 ^ 64)) ∧
    gives (.and_ p sd sa b) (x.val &&& y.val) ∧
    gives (.or_ p sd sa b) (x.val ||| y.val) ∧
    gives (.xor_ p sd sa b) (x.val ^^^ y.val) ∧
    gives (.shl p sd sa b) (x.val <<< (y.val.toNat % 64)) ∧
    gives (.shr p sd sa b) (x.val >>> (y.val.toNat % 64)) ∧
    gives (.sra p sd sa b) (x.val.sshiftRight (y.val.toNat % 64)) ∧
    gives (.min_ p sd sa b) (if x.val.toInt ≤ y.val.toInt then x.val else y.val) ∧
    gives (.max_ p sd sa b) (if x.val.toInt ≤ y.val.toInt then y.val else x.val) ∧
    gives (.minu p sd sa b) (if x.val.toNat ≤ y.val.toNat then x.val else y.val) ∧
    gives (.maxu p sd sa b) (if x.val.toNat ≤ y.val.toNat then y.val else x.val) ∧
    gives (.seq_ p sd sa b) (if x.val = y.val then 1 else 0) ∧
    gives (.slt p sd sa b) (if x.val.toInt < y.val.toInt then 1 else 0) ∧
    gives (.sltu p sd sa b) (if x.val.toNat < y.val.toNat then 1 else 0)) ∧
  ∀ (s : State) (p : PTile) (sd : BitVec 5), s.canIssue p →
    let t := s.tile p.val
    t.freeAt 1 (.sreg sd.toNat {}) →
    let gives := fun (c : Instr) (v : SReg) =>
      Ends c s fun u =>
        ((s.beat p.val).next t ≤ (s.beat p.val).stop → rdS (u.tile p.val) sd = (if sd = 0 then {} else v)) ∧
        u.tile p.val = s.lands p (.sreg sd.toNat v) ∧ s.onlyTile p u
    (∀ imm : BitVec 20, gives (.movi p sd imm) { val := imm.signExtend 64 }) ∧
    (t.readable [sd] [] [] → ∀ (h : BitVec 2) (imm : BitVec 16),
      ∃ v : SReg, gives (.movk p sd h imm) v ∧ v.poison = (rdS t sd).poison ∧
        ∀ i, v.val.getLsbD i = (if 16 * h.toNat ≤ i ∧ i < 16 * h.toNat + 16 then imm.getLsbD (i - 16 * h.toNat)
          else (rdS t sd).val.getLsbD i)) ∧
    gives (.rdt p sd) { val := BitVec.ofNat 64 t.issue.transit } ∧
    gives (.rdl p sd) { val := BitVec.ofNat 64 (s.ltileOf p.val) }

/-- On a tile that may issue: a taken branch (BR, BRI, BZ on zero, BNZ on nonzero) issues its target three cycles later,
an untaken one goes on after one cycle; BRI takes bits 12:0 of ss; LOOP with a count of n >= 1 opens a loop whose body
runs n times, with a count of 0 goes on as if its end bundle had just issued; PRED sets TP in the next cycle; TEND
ends the block and every active loop. Nothing but the tile and the time changes. -/
def Obligations.ControlFlow : Prop :=
  ∀ (s : State) (p : PTile), s.canIssue p →
    let t := s.tile p.val
    let b := s.beat p.val
    let goes := fun (c : Instr) (tgt : Nat) =>
      s.tileEnds p c (ticks b 3 { t with issue := { t.issue with last := t.issue.pc, pc := tgt } })
    let stays := fun (c : Instr) => s.tileEnds p c (s.stepOf p t)
    let inside := fun (tgt : Nat) => (∀ l ∈ t.issue.loops, l.last ≠ t.issue.pc ∧ l.start ≤ tgt ∧ tgt ≤ l.last)
    (∀ tgt : BitVec 13, inside tgt.toNat → goes (.br p tgt) tgt.toNat) ∧
    (∀ (ss : BitVec 5), t.readable [ss] [] [] → (rdS t ss).poison = false →
      (∀ tgt : BitVec 13, (∀ l ∈ t.issue.loops, l.last ≠ t.issue.pc) →
        ((rdS t ss).val ≠ 0 → stays (.bz p ss tgt)) ∧ ((rdS t ss).val = 0 → stays (.bnz p ss tgt))) ∧
      (∀ tgt : BitVec 13, inside tgt.toNat →
        ((rdS t ss).val = 0 → goes (.bz p ss tgt) tgt.toNat) ∧ ((rdS t ss).val ≠ 0 → goes (.bnz p ss tgt) tgt.toNat)) ∧
      ((rdS t ss).val.toNat ≤ 0x1FFF → inside (rdS t ss).val.toNat → goes (.bri p ss) (rdS t ss).val.toNat) ∧
      (t.freeAt 1 (.tp true) → s.tileEnds p (.pred p ss) (s.lands p (.tp ((rdS t ss).val != 0))))) ∧
    (∀ (count : LoopCount) (e : BitVec 13) (n : Nat),
      (match count with
        | .imm c => n = c.toNat
        | .reg r => t.readable [r] [] [] ∧ (rdS t r).poison = false ∧ n = (rdS t r).val.toNat % 2 ^ 32) →
      t.issue.loops.length < 4 → t.issue.pc < e.toNat → (∀ l ∈ t.issue.loops.head?, e.toNat ≤ l.last) →
      (n ≠ 0 → s.tileEnds p (.loop_ p count e) (s.stepOf p { t with issue := { t.issue with
        loops := { start := t.issue.pc + 1, last := e.toNat, left := n - 1 } :: t.issue.loops } })) ∧
      (n = 0 → s.tileEnds p (.loop_ p count e) (tick b { t with issue := { t.issue with
        last := t.issue.pc, pc := (afterBundle e.toNat t.issue.loops).1, loops := (afterBundle e.toNat t.issue.loops).2 } }))) ∧
    s.tileEnds p (.tend p) (s.stepOf p { t with issue := { t.issue with
      ended := .tend, tendCycle := t.issue.cycle + 1, loops := [] } })

/-- On a tile that may issue, with the address register readable and clean, the address within 2 MiB, aligned, and no LDW
occupying the store: LD.V puts 1 KiB in flight to vd for 3 cycles, LD.S its 1, 2, 4 or 8 bytes to sd, zero- or
sign-extended; ST.V and ST.S write the bytes of their source, every other byte of the store reads as before, and a
load leaves every byte as it was. Until a store completes, what it replaced is kept in flight with it (R64). Nothing
but the tile and the time changes. -/
def Obligations.StoreAccess : Prop :=
  ∀ (s : State) (p : PTile) (ss : BitVec 5), s.canIssue p →
    let t := s.tile p.val
    let at' := fun (imm : Word) => ((rdS t ss).val + imm).toNat
    t.readable [ss] [] [] → (rdS t ss).poison = false → t.issue.ldwUntil ≤ t.issue.cycle →
    let flies := fun (c : Instr) (w : Landing) =>
      Ends c s fun u => u.tile p.val = (s.stepOf p t).fly t.issue.cycle 3 [w] ∧ s.onlyTile p u ∧
        ∀ a, Mem.rd (u.tile p.val).store a = Mem.rd t.store a
    let stores := fun (c : Instr) (a n : Nat) (bs : Nat → Byte) =>
      Ends c s fun u => s.onlyTile p u ∧
        (∀ b, Mem.rd (u.tile p.val).store b = if a ≤ b ∧ b < a + n then bs (b - a) else Mem.rd t.store b) ∧
        ∃ pz, u.tile p.val = { (s.stepOf p t).fly t.issue.cycle 3 [storeUndo t a n] with
          store := (u.tile p.val).store, storePoison := pz }
    (∀ (vd : BitVec 6) (imm : BitVec 24), at' (imm.signExtend 64) + 1024 ≤ 2 ^ 21 → at' (imm.signExtend 64) % 128 = 0 →
      (∀ d : BitVec 8192, ∀ x : BitVec 256, t.freeAt 3 (.vreg vd.toNat (BitVec.allOnes 8192) d x)) →
      flies (.ldV p vd ss imm) (.vreg vd.toNat (BitVec.allOnes 8192)
        (BitVec.ofNat 8192 (Mem.rdNat t.store (at' (imm.signExtend 64)) 1024))
        (BitVec.ofNat 256 (storePoisBits t (at' (imm.signExtend 64)) 4 256)))) ∧
    (∀ (sd : BitVec 5) (size : MemSize) (sg : Bool) (imm : BitVec 22),
      let a := at' (imm.signExtend 64)
      a + sizeBytes size ≤ 2 ^ 21 → a % sizeBytes size = 0 → t.freeAt 3 (.sreg sd.toNat {}) →
      flies (.ldS p sd ss size sg imm) (.sreg sd.toNat
        { val := if sg then BitVec.ofInt 64 (signedOf (8 * sizeBytes size) (Mem.rdNat t.store a (sizeBytes size)))
            else BitVec.ofNat 64 (Mem.rdNat t.store a (sizeBytes size)),
          poison := storePois t a })) ∧
    (∀ (vs : BitVec 6) (imm : BitVec 24), at' (imm.signExtend 64) + 1024 ≤ 2 ^ 21 → at' (imm.signExtend 64) % 128 = 0 →
      t.readable [] [vs] [] →
      stores (.stV p vs ss imm) (at' (imm.signExtend 64)) 1024 fun i => (rdV t vs).data.extractLsb' (8 * i) 8) ∧
    (∀ (sa : BitVec 5) (size : MemSize) (imm : BitVec 22),
      let a := at' (imm.signExtend 64)
      a + sizeBytes size ≤ 2 ^ 21 → a % sizeBytes size = 0 → t.readable [sa] [] [] →
      stores (.stS p sa ss size imm) a (sizeBytes size) fun i => (rdS t sa).val.extractLsb' (8 * i) 8)

/-- On a tile that may issue with TP = 1 and the operand cases of R98 to R100 and R109 not met: LDW occupies the store and
puts the latch image with its tag and metadata record in flight for its occupancy + 1 cycles; MMA and MMAS count the
pass and put the contributions of the pass in flight for 12; ACRD puts the readout in flight for 6, with the flags to
pf unless pf is 0, and clears the set where it says so; ACSET clears the set and gives it its new anchor as the next
cycle begins. Nothing but the tile and the time changes. -/
def Obligations.MatrixOperations : Prop :=
  ∀ (s : State) (p : PTile), s.canIssue p →
    let t := s.tile p.val
    (∀ (w : BitVec 1) (sp : Sparsity) (wf : ElemFmt) (ss : BitVec 5) (imm : BitVec 23),
      let a := ((rdS t ss).val + imm.signExtend 64).toNat
      opFail (.ldw w sp wf ss imm) = none → t.readable [ss] [] [] → (rdS t ss).poison = false →
      a + imageBytes wf sp ≤ 2 ^ 21 → a % 128 = 0 → t.issue.ldwUntil ≤ t.issue.cycle →
      (∀ l, t.freeAt (ldwOccupancy wf sp + 1) (.latch w.toNat l)) →
      let l : Latch :=
        { main := BitVec.ofNat 65536 (Mem.rdNat t.store a (mainBytes wf)),
          side := BitVec.ofNat 40960 (Mem.rdNat t.store (a + mainBytes wf) (sideBytes wf sp)),
          mainPoison := BitVec.ofNat 1024 (storePoisBits t a 8 (mainBytes wf / 8)),
          sidePoison := BitVec.ofNat 640 (storePoisBits t (a + mainBytes wf) 8 (sideBytes wf sp / 8)), tag := some (wf, sp) }
      Ends (.ldw p w sp wf ss imm) s fun u => s.onlyTile p u ∧
        u.tile p.val = (s.stepOf p { t with
          ldwBusy := t.ldwBusy + ldwOccupancy wf sp
          issue := { t.issue with ldwUntil := t.issue.cycle + ldwOccupancy wf sp } }).fly t.issue.cycle (ldwOccupancy wf sp + 1)
            [.latch w.toNat { l with metaLegal := metaAllLegal l wf sp }]) ∧
    (t.issue.tp = true →
      (∀ a : MmaArgs, inFlightTo t (3, a.w.toNat) = false →
        t.readable (if isMx a.af then [a.sx] else []) [a.va] [a.pm] → (rdP t a.pm).poison = false →
        (rdW t a.w).tag = some (a.wf, a.sp) → (a.sp ≠ .dense → (rdW t a.w).metaLegal = true) →
        a.row.toNat < rowsPerReg a.af a.sp →
        let pm := (rdP t a.pm).val
        let x := (s.stepOf p (countPass t a (gateCounts a (rdV t a.va) (rdS t a.sx) pm))).fly t.issue.cycle 12
          [mmaLanding a (rdW t a.w) (rdV t a.va) (rdS t a.sx) pm (rdA t a.set).anchor.toInt]
        (opFail (.mma a) = none → s.tileEnds p (.mma p a) x) ∧ (opFail (.mmas a) = none → s.tileEnds p (.mmas p a) x)) ∧
      (∀ a : AcrdArgs, opFail (.acrd a) = none → inFlightTo t (4, a.set.toNat) = false →
        t.readable (if a.stochastic then [a.ss] else []) [] [] → a.h.toNat < readParts a.rf →
        (∀ m d x, t.freeAt 6 (.vreg a.vd.toNat m d x)) → (∀ v, t.freeAt 6 (.preg a.pf.toNat v)) →
        Ends (.acrd p a) s fun u => s.onlyTile p u ∧
          ∃ m d x, (u.tile p.val) = (s.stepOf p { t with
              accs := if a.clr then tset {} t.accs a.set.toNat (clearAcc (rdA t a.set)) else t.accs,
              issue := { t.issue with ordAcrd := (t.issue.ordAcrd + b2n a.stochastic) % 2 ^ 16 } }).fly t.issue.cycle 6
                (.vreg a.vd.toNat m d x :: if a.pf = 0 then [] else [.preg a.pf.toNat (acrdFlags (rdA t a.set))]) ∧
            ((a.stochastic && (rdS t a.ss).poison) = false → .vreg a.vd.toNat m d x = acrdLanding a (rdA t a.set) fun col =>
              stochasticR (rdS t a.ss).val.toNat t.issue.transit t.issue.ordAcrd (s.ltileOf p.val * 128 ||| col))) ∧
      (∀ (set : BitVec 3) (anchor : AnchorSrc) (v : Int), opFail (.acset set anchor) = none →
        inFlightTo t (4, set.toNat) = false →
        (match anchor with
          | .imm x => v = x.toInt
          | .reg n => t.readable [n] [] [] ∧ (rdS t n).poison = false ∧ v = (rdS t n).val.toInt) →
        -512 ≤ v → v ≤ 511 → t.freeAt 1 (.anchor set.toNat (BitVec.ofInt 10 v)) →
        s.tileEnds p (.acset p set anchor) (s.lands p (.anchor set.toNat (BitVec.ofInt 10 v)))))

/-- On a tile that may issue with TP = 1, with its sources readable, its predicate clean, its encoding accepted and no
write in flight to its destination that completes as late: each lane-wise, selecting, broadcasting, permuting,
reducing, comparing, extracting, predicate, MX quantising and gate operation answers a next state in which its result
is in flight for 2, 4, 10 or 16 cycles (R61), and nothing but the tile and the time differs. VCVT
and GPACK, which change the tile as they issue, have their own statement. -/
def Obligations.VectorOperations : Prop :=
  ∀ (s : State) (p : PTile), s.canIssue p → (s.tile p.val).issue.tp = true →
    let t := s.tile p.val
    let flies := fun (c : Instr) (op : SlotOp) (lat : Nat) (ws : List Landing) =>
      opFail op = none → (∀ w ∈ ws, t.freeAt lat w) → s.tileEnds p c ((s.stepOf p t).fly t.issue.cycle lat ws)
    let pm := fun (n : BitVec 4) => (rdP t n).val
    let sound := fun (n : BitVec 4) => (rdP t n).poison = false
    (∀ a : VArgs, t.readable [] [a.va, a.vb] [a.pm] → sound a.pm →
      let x := rdV t a.va
      let y := rdV t a.vb
      flies (.vadd p a) (.vbin .vadd a) 2 [vbinLanding .vadd a (pm a.pm) x y] ∧
      flies (.vsub p a) (.vbin .vsub a) 2 [vbinLanding .vsub a (pm a.pm) x y] ∧
      flies (.vmul p a) (.vbin .vmul a) 2 [vbinLanding .vmul a (pm a.pm) x y] ∧
      flies (.vadds p a) (.vbin .vadds a) 2 [vbinLanding .vadds a (pm a.pm) x y] ∧
      flies (.vsubs p a) (.vbin .vsubs a) 2 [vbinLanding .vsubs a (pm a.pm) x y] ∧
      flies (.vmin p a) (.vbin .vmin a) 2 [vbinLanding .vmin a (pm a.pm) x y] ∧
      flies (.vmax p a) (.vbin .vmax a) 2 [vbinLanding .vmax a (pm a.pm) x y] ∧
      flies (.vand p a) (.vbin .vand a) 2 [vbinLanding .vand a (pm a.pm) x y] ∧
      flies (.vor p a) (.vbin .vor a) 2 [vbinLanding .vor a (pm a.pm) x y] ∧
      flies (.vxor p a) (.vbin .vxor a) 2 [vbinLanding .vxor a (pm a.pm) x y] ∧
      flies (.vshl p a) (.vbin .vshl a) 2 [vbinLanding .vshl a (pm a.pm) x y] ∧
      flies (.vshr p a) (.vbin .vshr a) 2 [vbinLanding .vshr a (pm a.pm) x y] ∧
      flies (.vsra p a) (.vbin .vsra a) 2 [vbinLanding .vsra a (pm a.pm) x y] ∧
      flies (.vsel p a) (.vsel a) 2 [vselLanding a (pm a.pm) x y] ∧
      flies (.vperm p a) (.vperm a) 4 [vpermLanding a (pm a.pm) x y] ∧
      (t.readable [] [a.vc] [] → flies (.vfma p a) (.vfma a) 4 [vfmaLanding a (pm a.pm) x y (rdV t a.vc)])) ∧
    (∀ a : VArgs, t.readable [] [a.va] [a.pm] → sound a.pm →
      let x := rdV t a.va
      flies (.vabs p a) (.vun .vabs a) 2 [vunLanding .vabs a (pm a.pm) x] ∧
      flies (.vneg p a) (.vun .vneg a) 2 [vunLanding .vneg a (pm a.pm) x] ∧
      flies (.vnot p a) (.vun .vnot a) 2 [vunLanding .vnot a (pm a.pm) x] ∧
      flies (.vmov p a) (.vun .vmov a) 2 [vunLanding .vmov a (pm a.pm) x] ∧
      flies (.vexp p a) (.vun .vexp a) 10 [vunLanding .vexp a (pm a.pm) x] ∧
      flies (.vexp2 p a) (.vun .vexp2 a) 10 [vunLanding .vexp2 a (pm a.pm) x] ∧
      flies (.vlog2 p a) (.vun .vlog2 a) 10 [vunLanding .vlog2 a (pm a.pm) x] ∧
      flies (.vrcp p a) (.vun .vrcp a) 10 [vunLanding .vrcp a (pm a.pm) x] ∧
      flies (.vrsqrt p a) (.vun .vrsqrt a) 10 [vunLanding .vrsqrt a (pm a.pm) x] ∧
      flies (.vtanh p a) (.vun .vtanh a) 10 [vunLanding .vtanh a (pm a.pm) x] ∧
      flies (.vsigm p a) (.vun .vsigm a) 10 [vunLanding .vsigm a (pm a.pm) x] ∧
      (∀ (op : RedOp) (g : BitVec 3), flies (.vred p a op g) (.vred a op g) 4 [vredLanding a op g.toNat (pm a.pm) x])) ∧
    (∀ (a : VArgs) (ss : BitVec 5), t.readable [ss] [] [a.pm] → sound a.pm →
      flies (.vbcast p a ss) (.vbcast a ss) 2 [vbcastLanding a (pm a.pm) (rdS t ss)]) ∧
    (∀ (slot : VSlot) (ty : LaneTy) (n pd : BitVec 4) (va vb : BitVec 6) (c : Cond), t.readable [] [va, vb] [n] → sound n →
      flies (.vcmp p slot ty n pd va vb c) (.vcmp slot ty n pd va vb c) 2
        [.preg pd.toNat (vcmpResult ty (pm n) (rdV t va) (rdV t vb) c)]) ∧
    (∀ (slot : VSlot) (ty : LaneTy) (sd : BitVec 5) (va : BitVec 6) (ss : BitVec 5), t.readable [ss] [va] [] →
      flies (.vext p slot ty sd va ss) (.vext slot ty sd va ss) 2 [.sreg sd.toNat (vextResult ty (rdV t va) (rdS t ss))]) ∧
    (∀ (slot : VSlot) (pd pa pb : BitVec 4), t.readable [] [] [pa, pb] →
      let z := (rdP t pa).poison || (rdP t pb).poison
      flies (.pand p slot pd pa pb) (.pbin .pand slot pd pa pb) 2 [.preg pd.toNat { val := pm pa &&& pm pb, poison := z }] ∧
      flies (.por p slot pd pa pb) (.pbin .por slot pd pa pb) 2 [.preg pd.toNat { val := pm pa ||| pm pb, poison := z }] ∧
      flies (.pxor p slot pd pa pb) (.pbin .pxor slot pd pa pb) 2 [.preg pd.toNat { val := pm pa ^^^ pm pb, poison := z }]) ∧
    (∀ (slot : VSlot) (pd pa : BitVec 4) (sd : BitVec 5), t.readable [] [] [pa] →
      let z := (rdP t pa).poison
      flies (.pnot p slot pd pa) (.pnot slot pd pa) 2 [.preg pd.toNat { val := ~~~(pm pa), poison := z }] ∧
      flies (.ppop p slot sd pa) (.ppop slot sd pa) 2
        [.sreg sd.toNat { val := BitVec.ofNat 64 ((List.range 256).countP fun i => (pm pa).getLsbD i), poison := z }]) ∧
    (∀ a : QmxArgs, t.readable [] [a.va] [a.pm] → sound a.pm → mxRowOk a = true →
      let r := mxResult a (pm a.pm) (rdV t a.va)
      flies (.vqmx p a) (.vqmx a) 2 [r.1, .sreg a.sd.toNat r.2.1] ∧
      flies (.vqmxc p a) (.vqmxc a) 2 [.sreg a.sd.toNat r.2.2]) ∧
    (∀ (n : BitVec 4) (vd va : BitVec 6) (k : Fin 9), t.readable [] [va] [n] → sound n →
      flies (.gate p n vd va k) (.gate n vd va k) 16 [gateLanding vd.toNat (pm n) (rdV t va) k.val])

/-- On a tile that may issue with TP = 1 and its sources readable and clean where R94 asks it: VCVT puts its conversion in
flight for 2 cycles and, where it rounds stochastically, advances its ordinal modulo 2^16; GPACK takes lanes 0 to 7 in
order against the capacity counters, counts what it placed and what overflowed, and puts its lanes in flight for 4
cycles. -/
def Obligations.ConvertAndPack : Prop :=
  ∀ (s : State) (p : PTile), s.canIssue p → (s.tile p.val).issue.tp = true →
    let t := s.tile p.val
    (∀ a : CvtArgs, opFail (.vcvt a) = none → t.readable (if a.stochastic then [a.ss] else []) [a.va] [a.pm] →
      (rdP t a.pm).poison = false → a.h.toNat < cvtParts a.sty a.dty →
      (∀ m d x, t.freeAt 2 (.vreg a.vd.toNat m d x)) →
      (a.stochastic = true → (rdS t a.ss).poison = false) →
      s.tileEnds p (.vcvt p a) ((s.stepOf p { t with issue := { t.issue with
          ordCvt := (t.issue.ordCvt + b2n a.stochastic) % 2 ^ 16 } }).fly t.issue.cycle 2
        [vcvtLanding a (rdP t a.pm).val (rdV t a.va) fun j =>
          stochasticR (rdS t a.ss).val.toNat t.issue.transit t.issue.ordCvt (s.ltileOf p.val * 2048 ||| j)])) ∧
    (∀ (vd va : BitVec 6) (ss : BitVec 5), opFail (.gpack vd va ss) = none → t.readable [ss] [va] [] →
      (rdS t ss).poison = false → (∀ i, i < 8 → (rdV t va).poison.getLsbD i = false) →
      (∀ m d x, t.freeAt 4 (.vreg vd.toNat m d x)) →
      let r := gpackRun ((rdS t ss).val.toNat % 2 ^ 16) (rdV t va) 8 0 t.gateCnt
      s.tileEnds p (.gpack p vd va ss) ((s.stepOf p { t with
          gateCnt := r.1, fig := { t.fig with placed := t.fig.placed + r.2.2.1, overflow := t.fig.overflow + r.2.2.2 } }).fly
        t.issue.cycle 4 [gpackLanding vd.toNat (rdV t va) r.2.1]))

/-- On a tile that may issue with TP = 1, sources readable, predicate clean and encoding accepted, each two-source
lane-wise operation on integer lanes of w bits (VAND, VOR and VXOR on every type) puts one write in flight for 2
cycles; landing it gives every active lane of vd the result of R101 (wrapping modulo 2^w, saturating for VADDS and
VSUBS, signed or with U unsigned for VMIN and VMAX, shifts by b mod w), every inactive lane 0 with Z and its old value
without. -/
def Obligations.VectorIntegerLanes : Prop :=
  ∀ (s : State) (p : PTile) (a : VArgs), s.canIssue p → (s.tile p.val).issue.tp = true →
    let t := s.tile p.val
    let w := laneBits a.ty
    t.readable [] [a.va, a.vb] [a.pm] → (rdP t a.pm).poison = false →
    (∀ m d x, t.freeAt 2 (.vreg a.vd.toNat m d x)) →
    let sgn := fun (x : Nat) => if 2 * x < 2 ^ w then (x : Int) else (x : Int) - 2 ^ w
    let rd := fun (x : Nat) => if a.u then (x : Int) else sgn x
    let lo : Int := if a.u then 0 else -(2 ^ (w - 1))
    let hi : Int := if a.u then 2 ^ w - 1 else 2 ^ (w - 1) - 1
    let gives := fun (c : Instr) (op : SlotOp) (f : Nat → Nat → Int) => opFail op = none →
      Ends c s fun u => s.onlyTile p u ∧ ∃ l : Landing, u.tile p.val = (s.stepOf p t).fly t.issue.cycle 2 [l] ∧
        ∀ (z : Tile) (i : Nat), i < laneCount a.ty →
          (lane (rdV (land z l) a.vd).data w i : Int) =
            if (rdP t a.pm).val.getLsbD (w * i / 32) then
              f (lane (rdV t a.va).data w i) (lane (rdV t a.vb).data w i) % 2 ^ w
            else if a.z then 0 else lane (rdV z a.vd).data w i
    ((a.ty = .i32 ∨ a.ty = .i16 ∨ a.ty = .i8) →
      gives (.vadd p a) (.vbin .vadd a) (fun x y => x + y) ∧
      gives (.vsub p a) (.vbin .vsub a) (fun x y => x - y) ∧
      gives (.vmul p a) (.vbin .vmul a) (fun x y => x * y) ∧
      gives (.vadds p a) (.vbin .vadds a) (fun x y => max lo (min hi (rd x + rd y))) ∧
      gives (.vsubs p a) (.vbin .vsubs a) (fun x y => max lo (min hi (rd x - rd y))) ∧
      gives (.vmin p a) (.vbin .vmin a) (fun x y => if rd x ≤ rd y then x else y) ∧
      gives (.vmax p a) (.vbin .vmax a) (fun x y => if rd x ≤ rd y then y else x) ∧
      gives (.vshl p a) (.vbin .vshl a) (fun x y => x * 2 ^ (y % w)) ∧
      gives (.vshr p a) (.vbin .vshr a) (fun x y => x / 2 ^ (y % w)) ∧
      gives (.vsra p a) (.vbin .vsra a) (fun x y => sgn x / 2 ^ (y % w))) ∧
    gives (.vand p a) (.vbin .vand a) (fun x y => ((x &&& y : Nat) : Int)) ∧
    gives (.vor p a) (.vbin .vor a) (fun x y => ((x ||| y : Nat) : Int)) ∧
    gives (.vxor p a) (.vbin .vxor a) (fun x y => ((x ^^^ y : Nat) : Int))

/-- On a tile that may issue while its transit predicate is 0, each operation of the M and V slots answers a next state in
which the tile has only moved on to its next bundle, one cycle later, with one more no-op counted: nothing is written,
put in flight or faulted, whatever the operands; and SEND with its sources readable, an existing template that its
flits fit and a nonzero mask only marks its slot void. -/
def Obligations.PredicatedOff : Prop :=
  ∀ (s : State) (p : PTile), s.canIssue p → (s.tile p.val).issue.tp = false →
    let t := s.tile p.val
    (∀ (c : Instr) (op : SlotOp), c.slotOp = some (p, op) → isMV op = true →
      s.tileEnds p c (s.stepOf p { t with fig := { t.fig with noops := t.fig.noops + 1 } })) ∧
    (∀ (vs : BitVec 6) (slot fo : BitVec 5) (nm1 : BitVec 4), t.readable [] [vs] [] →
      let deps := slotDeps t s.version (s.phaseOf t.issue.transit) slot.toNat
      let o := tget {} t.outbox slot.toNat
      let cur := deps[o.released]?.getD (deps.getLastD ⟨0, 0, 0, false, 0⟩)
      let h := depTemplate t s.version cur
      deps ≠ [] → fo.toNat + nm1.toNat + 1 ≤ hdrLen h → (hdrMulticast h = true → hdrMask h ≠ 0) →
      s.tileEnds p (.send p vs slot fo nm1) (s.stepOf p { t with
        outbox := tset {} t.outbox slot.toNat { o with void := true } }))

/-- On a tile that may issue with TP = 1: SEND of a readable register into a slot with a departure of the phase not yet
released, whose template its flits fit and whose mask is not 0, clears the void mark and puts its flits and their
poison in flight for 2 cycles. RECV (whatever TP) from a slot whose arrival carries the generation of the transit, is
ready, has no replay pending and none waiting in the crossing, puts flits fo to fo + n - 1 in flight for 3 cycles to
flits 0 to n - 1 of vd; flits beyond the payload and those of a void read as 0. -/
def Obligations.SendAndReceive : Prop :=
  ∀ (s : State) (p : PTile), s.canIssue p →
    let t := s.tile p.val
    (∀ (vs : BitVec 6) (slot fo : BitVec 5) (nm1 : BitVec 4), t.issue.tp = true → t.readable [] [vs] [] →
      let deps := slotDeps t s.version (s.phaseOf t.issue.transit) slot.toNat
      let o := tget {} t.outbox slot.toNat
      let n := nm1.toNat + 1
      let r := rdV t vs
      ∀ h : o.released < deps.length,
      let head := depTemplate t s.version deps[o.released]
      fo.toNat + n ≤ hdrLen head → (hdrMulticast head = true → hdrMask head ≠ 0) →
      s.tileEnds p (.send p vs slot fo nm1) ((s.stepOf p
          { t with outbox := tset {} t.outbox slot.toNat { o with void := false, written := true, sender := t.issue.pc } }).fly t.issue.cycle 2
        [.outbox slot.toNat fo.toNat n (BitVec.ofNat 12800 (r.data.toNat % 2 ^ (512 * n)))
          (BitVec.ofNat 400 (r.poison.toNat % 2 ^ (16 * n)))])) ∧
    (∀ (vd ib : BitVec 6) (fo : BitVec 5) (nm1 : BitVec 4),
      let o := tget {} t.inbox ib.toNat
      let n := nm1.toNat + 1
      fo.toNat + n ≤ 25 → o.replayPending = false → (s.tileCtx p.val).crossing ib.toNat = false →
      o.gen = some ((t.issue.transit + 2 ^ 16 - t.tables.lag.getD ib.toNat 0) % 2 ^ 16) → o.ready ≤ cycleInstant t →
      (∀ m d x, t.freeAt 3 (.vreg vd.toNat m d x)) →
      Ends (.recv p vd ib fo nm1) s fun u => s.onlyTile p u ∧ ∃ d x,
        u.tile p.val = (s.stepOf p t).fly t.issue.cycle 3 [.vreg vd.toNat (BitVec.ofNat 8192 (2 ^ (512 * n) - 1)) d x] ∧
        ∀ i < 512 * n, d.getLsbD i =
          (!o.void && decide (512 * fo.toNat + i < 512 * o.len) && o.payload.getLsbD (512 * fo.toNat + i)))

/-- On a tile that may issue, with sources readable and clean, the tag neither OUTSTANDING nor DATA, the range and the
alignment right, the address in a segment of the program that allows the access, the tag bound to a queue with room
whose mode reaches the address: LDQ.V, LDQ.T, LDQ.I, STQ.V and STQ.T answer a next state in which the tag is
OUTSTANDING and the operation takes its place in its district MQE by the instant of issue and then the physical slot
(R194), with the accesses of its queue ahead of it (R202), and joins those of every operation of its queue behind it;
with a length of 0 the tag takes its completed state at once and the queue counts one operation (R111). The tile moves
on one cycle, no other tile and no byte of HBM changes. -/
def Obligations.QueueOperationsIssue : Prop :=
  ∀ (s : State) (p : PTile), s.canIssue p →
    let t := s.tile p.val
    let d := districtOf p.val
    let queue := fun (tag : BitVec 6) => t.tables.queueOf.getD tag.toNat 0xFF
    let admits := fun (tag : BitVec 6) (code write : Bool) (a len : Nat) =>
      (rdTag t tag).st ≠ .outstanding ∧ (rdTag t tag).st ≠ .data ∧ a % 64 = 0 ∧ segOk s.prog.segs code write a len = true ∧
      queue tag ≠ 0xFF ∧ (s.qcfg d (queue tag)).1 ≠ 0 ∧
      ((s.mqe d).ops.filter (·.queue == queue tag)).length < (s.qcfg d (queue tag)).2.1 ∧
      ((s.qcfg d (queue tag)).1 = 1 → a / 2 ^ 40 = s.ownSlot) ∧
      (match tierOf a with
        | .board b => b = s.ownSlot ∨ (s.prog.streams ≠ 0 ∧ (s.ctx (s.boardCtx d b)).tx ≠ .off ∧
            (s.resolve (s.ctxDest (s.boardCtx d b))).isSome = true)
        | _ => True)
    let queued := fun (c : Instr) (tag : BitVec 6) (kind : QKind) (fin : TagState) (a len : Nat) =>
      Ends c s fun u =>
        (∀ q, q ≠ p.val → u.tile q = s.tile q) ∧ (∀ e, e ≠ d → u.mqe e = s.mqe e) ∧ u.hbm = s.hbm ∧
        (len = 0 → u.tile p.val = s.stepOf p { t with tags := tset {} t.tags tag.toNat { st := fin } } ∧
          (u.mqe d).ops = (s.mqe d).ops ∧
          (tget {} (u.mqe d).figs (queue tag)).ops = (tget {} (s.mqe d).figs (queue tag)).ops + 1) ∧
        (len ≠ 0 → u.tile p.val = s.stepOf p { t with tags := tset {} t.tags tag.toNat { st := .outstanding } } ∧
          let ahead := (s.mqe d).ops.filter fun e => e.beforeOp t.issue.start p.val
          let behind := (s.mqe d).ops.filter fun e => !e.beforeOp t.issue.start p.val
          (u.mqe d).ops = ahead ++ MqeOp.mk p.val tag.toNat (queue tag) kind a len t.issue.start t.issue.pc
              ((ahead.filter (·.queue == queue tag)).map fun e => (e.addr, e.len))
              (t.ldwBusy - (t.issue.ldwUntil - t.issue.cycle)) ::
            behind.map fun e => if e.queue == queue tag then { e with before := e.before ++ [(a, len)] } else e)
    let clean := fun (ns : List (BitVec 5)) => t.readable ns [] [] ∧ ∀ n ∈ ns, (rdS t n).poison = false
    (∀ (tag : BitVec 6) (ss n : BitVec 5) (imm : BitVec 19), clean [ss] → n.toNat ≤ 16 →
      let a := ((rdS t ss).val + imm.signExtend 64).toNat
      admits tag false false a (64 * n.toNat) →
      queued (.ldqV p tag ss n imm) tag (.ldqv n.toNat) .data a (64 * n.toNat)) ∧
    (∀ (tag vs : BitVec 6) (ss n : BitVec 5) (imm : BitVec 13), clean [ss] → t.readable [] [vs] [] → n.toNat ≤ 16 →
      let a := ((rdS t ss).val + imm.signExtend 64).toNat
      admits tag false true a (64 * n.toNat) →
      queued (.stqV p tag vs ss n imm) tag (.stqv n.toNat (rdV t vs).data (rdV t vs).poison) .done a (64 * n.toNat)) ∧
    (∀ (tag : BitVec 6) (st sm sl : BitVec 5), clean [st, sm, sl] →
      let ta := (rdS t st).val.toNat
      let a := (rdS t sm).val.toNat
      let len := (rdS t sl).val.toNat
      ta % 128 = 0 → len % 128 = 0 → ta + len ≤ 2 ^ 21 →
      (admits tag false false a len → queued (.ldqT p tag st sm sl) tag (.ldqt ta) .done a len) ∧
      (admits tag false true a len → queued (.stqT p tag st sm sl) tag (.stqt ta) .done a len)) ∧
    (∀ (tag : BitVec 6) (first : BitVec 4) (cnt so : BitVec 5), clean [so] → first.toNat + cnt.toNat ≤ 16 →
      let base := match s.prog.segs.find? (fun g => g.kind == 4) with
        | some g => g.base
        | none => 0
      let a := base + (rdS t so).val.toNat
      (rdS t so).val.toNat % 64 = 0 → admits tag true false a (16384 * cnt.toNat) →
      queued (.ldqI p tag first cnt so) tag (.ldqi first.toNat cnt.toNat) .free a (16384 * cnt.toNat))

/-- On a tile that may issue: QWAIT, its mask readable and clean, goes on after one cycle when no named tag is
OUTSTANDING, and otherwise leaves the tile in QWAIT_STALL on those tags from the next cycle on; QPOP of a tag that holds DATA frees the tag
and puts its data in flight to vd for 3 cycles, every lane poisoned when the access failed. -/
def Obligations.QwaitAndQpop : Prop :=
  ∀ (s : State) (p : PTile), s.canIssue p →
    let t := s.tile p.val
    (∀ (w : WaitSet) (m : BitVec 64),
      (match w with
        | .mask ss => t.readable [ss] [] [] ∧ (rdS t ss).poison = false ∧ m = (rdS t ss).val
        | .tag q => m = BitVec.ofNat 64 (2 ^ q.toNat)) →
      (outstandingOf t m = 0 → s.tileEnds p (.qwait p w) (s.stepOf p { t with issue := { t.issue with wait := 0 } })) ∧
      (outstandingOf t m ≠ 0 →
        let v := s.stepOf p { t with issue := { t.issue with wait := outstandingOf t m } }
        s.tileEnds p (.qwait p w) { v with issue := { v.issue with status := .qwaitStall, hold := t.issue.cycle + 1 } })) ∧
    (∀ (vd tag : BitVec 6), (rdTag t tag).st = .data → (∀ m d x, t.freeAt 3 (.vreg vd.toNat m d x)) →
      s.tileEnds p (.qpop p vd tag) ((s.stepOf p { t with tags := tset {} t.tags tag.toNat {} }).fly t.issue.cycle 3
        [.vreg vd.toNat (BitVec.allOnes 8192) (rdTag t tag).data
          (if (rdTag t tag).failed then BitVec.allOnes 256 else (rdTag t tag).poison)]))

/-- FIXED_LATENCY_COMPLETE, LDW_COMPLETE and MMA_CONTRIBUTION_LAND carry an active tile to the cycle in which its first
operation in flight (any, a latch load, a pass) completes, or to the meridian: where the cycle it reaches begins no
later than the meridian, everything due by then has landed and left the hazard watch. QWAIT_RESUME returns a tile none
of whose awaited tags is OUTSTANDING to RUNNING, at a cycle that begins later than the last of them completed unless
it is past the meridian. TEND_REACHED takes a running tile whose block has ended, with every SEND
departed, to TEND_WAIT at the cycle in which all it issued has completed, where that cycle does not begin after the
meridian. -/
def Obligations.TileProgress : Prop :=
  ∀ (s : State) (p : PTile),
    let t := s.tile p.val
    let b := s.beat p.val
    let lands := fun (c : Instr) (q : Landing → Prop) =>
      ∀ f ∈ t.issue.inflight, q f.what → t.active = true → (∀ g ∈ t.issue.inflight, q g.what → f.done ≤ g.done) →
        t.issue.cycle < f.done →
        Ends c s fun u => u.tile p.val = ticks b (f.done - t.issue.cycle) t ∧ s.onlyTile p u ∧
          ((∀ k, k < f.done - t.issue.cycle → (ticks b k t).issue.start < b.stop) →
            (u.tile p.val).issue.start ≤ b.stop → (u.tile p.val).issue.cycle = f.done ∧
            ∀ g, g ∈ (u.tile p.val).issue.inflight ↔ g ∈ t.issue.inflight ∧ f.done < g.done)
    lands (.fixedLatencyComplete p) (fun _ => True) ∧
    lands (.ldwComplete p) (fun w => ∃ n l, w = .latch n l) ∧
    lands (.mmaContributionLand p) (fun w => ∃ n cs k, w = .acc n cs k) ∧
    (t.issue.status = .qwaitStall → outstandingOf t t.issue.wait = 0 →
      Ends (.qwaitResume p) s fun u => s.onlyTile p u ∧ (u.tile p.val).issue.status = .running ∧
        (u.tile p.val).issue.wait = 0 ∧ (u.tile p.val).issue.pc = t.issue.pc ∧
        (t.issue.waitDone < (u.tile p.val).issue.start ∨ b.stop ≤ (u.tile p.val).issue.start)) ∧
    (∀ c : Nat, t.issue.status = .running → t.issue.ended = .tend → s.sendPending p.val = false →
      c = t.issue.inflight.foldl (fun c f => max c f.done) (max t.issue.cycle t.issue.tendCycle) →
      let v := ticks b (c - t.issue.cycle) t
      v.issue.start ≤ s.deadline t → c ≤ v.issue.cycle →
      Ends (.tendReached p) s fun u => s.onlyTile p u ∧
        u.tile p.val = { v with issue := { v.issue with
          status := .tendWait, reached := some v.issue.start, tendCycle := c } })

/-- On a tile that may issue, whose bundle is not poisoned and passes the decode check (M and V slots unchecked while TP =
0): the slots issue together in their order; where none faults and none goes to a memory queue the tile moves on as
the C slot directs, a branch beside a QWAIT that stalls included, with one no-op counted for each enabled M or V slot while TP = 0. Where a part fails the check,
nothing of the bundle issues: the tile is FAULTED and one program-fatal record of ILLEGAL_ENCODING names the first
failing part. -/
def Obligations.BundleIssue : Prop :=
  ∀ (s : State) (p : PTile), s.canIssue p →
    let t := s.tile p.val
    let w := (tget 0 t.imem t.issue.pc).toNat
    let parts := decodeBundle t.issue.tp w
    shas t.imemPoison t.issue.pc = false →
    (decodeFails parts = [] →
      let out := issueAll (s.tileCtx p.val) { t with fig := { t.fig with
        noops := t.fig.noops + (if t.issue.tp then 0 else enabledMV w) } } (decodeOps parts)
      out.faults = [] → out.ops = [] →
      s.tileEnds p (.bundleIssue p) (moveOn (s.beat p.val) out.tile out.ctl out.wait)) ∧
    (∀ (f : DecodeFail) (fs : List DecodeFail), decodeFails parts = f :: fs → s.stopsLater → s.ras.queue.length < 256 →
      Ends (.bundleIssue p) s fun u =>
        u.tile p.val = landAll { t with issue := { t.issue with status := .faulted } } ∧
        ∃ r : FaultRec, u.ras.queue = s.ras.queue ++ [r] ∧ r.code = 0x010F ∧ r.cls = 4 ∧ r.ptile = p.val ∧
          r.bundle = t.issue.pc ∧ r.slot = slotNo f.slot)

/-- On a tile that may issue, an operation that meets a fault of its operand cases leaves no effect of its own. A
program-fatal fault (class 4) leaves the tile FAULTED with what was in flight landed; a transit-fatal one (class 3)
ends the block: later departures leave as voids and no loop is active. One record is queued with the code, the class,
the tile and the bundle address, and TIL_FAULT_SUMMARY holds code, class and slot. -/
def Obligations.TileFaults : Prop :=
  ∀ (s : State) (p : PTile) (c : Instr) (op : SlotOp) (f : TFault), s.canIssue p → c.slotOp = some (p, op) →
    opFail op = none →
    let t := s.tile p.val
    (isMV op = true → t.issue.tp = true) → issueOp (s.tileCtx p.val) t op = .error f →
    s.stopsLater → s.ras.queue.length < 224 →
    Ends c s fun u =>
      (f.cls = 4 → u.tile p.val = landAll { t with issue := { t.issue with last := t.issue.pc, status := .faulted } }) ∧
      (f.cls = 3 → u.tile p.val = { t with issue := { t.issue with
        last := t.issue.pc, ended := .fatal, voidRest := true, loops := [], wait := 0 } }) ∧
      (∃ r : FaultRec, u.ras.queue = s.ras.queue ++ [r] ∧ r.code = f.code ∧ r.cls = f.cls ∧ r.ptile = p.val ∧
        r.bundle = t.issue.pc ∧ r.slot = slotNo (slotOf op)) ∧
      u.fget (R.tilFaultSummary p.val) F.tilFaultSummary_CODE = f.code % 2 ^ 16 ∧
      u.fget (R.tilFaultSummary p.val) F.tilFaultSummary_CLASS = f.cls % 8 ∧
      u.fget (R.tilFaultSummary p.val) F.tilFaultSummary_SLOT = slotNo (slotOf op)

/-- Formalises R112. On a tile that may issue, each of LDQ.V, LDQ.T, LDQ.I, STQ.V and STQ.T on a tag in state OUTSTANDING
or DATA, its sources readable, does not execute: the tag keeps its state and its data, the tile is FAULTED and the
record queued is HAZARD_WRITE, program-fatal; the MQE is unchanged. -/
def Obligations.BusyTagFaults : Prop :=
  ∀ (s : State) (p : PTile) (tag : BitVec 6), s.canIssue p → s.stopsLater → s.ras.queue.length < 256 →
    let t := s.tile p.val
    ((rdTag t tag).st = .outstanding ∨ (rdTag t tag).st = .data) →
    let refuses := fun (c : Instr) (ss : List (BitVec 5)) (vs : List (BitVec 6)) => t.readable ss vs [] →
      Ends c s fun u => rdTag (u.tile p.val) tag = rdTag t tag ∧ (u.tile p.val).issue.status = .faulted ∧
        u.mqe (districtOf p.val) = s.mqe (districtOf p.val) ∧
        ∃ r : FaultRec, u.ras.queue = s.ras.queue ++ [r] ∧ r.code = 0x0102 ∧ r.cls = 4 ∧ r.ptile = p.val
    (∀ ss n imm, refuses (.ldqV p tag ss n imm) [ss] []) ∧
    (∀ st sm sl, refuses (.ldqT p tag st sm sl) [st, sm, sl] []) ∧
    (∀ first cnt so, refuses (.ldqI p tag first cnt so) [so] []) ∧
    (∀ vs ss n imm, refuses (.stqV p tag vs ss n imm) [ss] [vs]) ∧
    (∀ st sm sl, refuses (.stqT p tag st sm sl) [st, sm, sl] [])

/-- QUEUE_OP_COMPLETE of an operation on the own board slot, behind no earlier one of its queue in a pseudo-channel and
touching no lost one: the operation leaves its MQE. A load of n flits leaves its tag in DATA with the bytes of its
range and the poison of its poisoned units; a store leaves the tag DONE and, where no unit of its range is poisoned,
writes exactly the bytes of its range, every other byte of HBM unchanged. Completion on the host tier through a bound
window with the link up, behind nothing on its DMA channel (R191), takes the operation out of its MQE likewise. -/
def Obligations.QueueCompletes : Prop :=
  ∀ (s : State) (d : District) (i : Nat) (x : QExt) (o : MqeOp), (s.mqe d.val).ops[i]? = some o →
    let off := o.addr % 2 ^ 40
    (tierOf o.addr = .board s.ownSlot → behindAnother (s.mqe d.val).ops i o = false →
      s.deadUnits off o.len = [] →
      Ends (.queueOpComplete d i x) s fun u => (u.mqe d.val).ops = (s.mqe d.val).ops.erase o ∧
        (∀ e, e ≠ d.val → u.mqe e = s.mqe e) ∧ (∀ q, q ≠ o.tile → u.tile q = s.tile q) ∧
        (∀ n, o.kind = .ldqv n → u.hbm = s.hbm ∧
          let g := tget {} (u.tile o.tile).tags o.tag
          g.st = .data ∧ g.failed = false ∧
          (o.len ≤ 1024 → ∀ j < o.len, g.data.extractLsb' (8 * j) 8 = Mem.rd s.hbm (off + j)) ∧
          (x.errs = [] → ∀ k, g.poison.getLsbD k = ((tget {} (s.tile o.tile).tags o.tag).poison.getLsbD k ||
            (decide (k / 16 < cdiv o.len 64) && shas s.hbmPoison ((unitsOf off o.len).getD (k / 16) 0) && decide (k < 256))))) ∧
        (o.kind.loads = false → (tget {} (u.tile o.tile).tags o.tag).st = .done ∧
          (s.hbmBad off o.len = false → (storeData (s.tile o.tile) o).1.length = o.len →
            ∀ a, Mem.rd u.hbm a = if off ≤ a ∧ a < off + o.len then (storeData (s.tile o.tile) o).1.getD (a - off) 0
              else Mem.rd s.hbm a))) ∧
    (∀ w off h, tierOf o.addr = .host w off → s.hostAddr w off o.len = some h → x.failed = false →
      s.dmaOn = true → s.behindDma w o = false →
      Ends (.queueOpComplete d i x) s fun u => (u.mqe d.val).ops = (s.mqe d.val).ops.erase o ∧ u.hbm = s.hbm ∧
        (o.kind.loads = false →
          u.stw.toHost = Mem.wrBytes s.stw.toHost h (storeData (s.tile o.tile) o).1))

/-- HBM_SCRUB_STEP on a ready stack with a scrub period moves the position on by one granule and counts a pass at the end;
ROW_REMAP of a row that has failed (R209) and is not yet remapped takes a free entry while a program runs, and of a row
that has not failed changes nothing; PSEUDO_CHANNEL_LOST sets its bit and the
stack DEGRADED and queues the program-fatal record 0x0206; CANCEL_ALL empties the MQE of a district and frees every
tag it held, and changes no byte of HBM outside the units its cancelled stores cover and none of tile store outside
what its cancelled loads would write; MQE_QCFG_WRITE with legal values and room in the sums sets mode, rate and depth
of a queue with nothing outstanding. -/
def Obligations.HbmAndQueueCommands : Prop :=
  ∀ (s : State),
    (∀ (h : Stack) (errs : List HbmErr), s.fget (R.hbmScrubCtl h.val) F.hbmScrubCtl_PERIOD_H ≠ 0 →
      (s.fget (R.hbmStatus h.val) F.hbmStatus_STATE = 2 ∨ s.fget (R.hbmStatus h.val) F.hbmStatus_STATE = 3) →
      let n := s.fget (R.hbmScrubStatus h.val) F.hbmScrubStatus_POSITION
      let k := s.fget (R.hbmScrubStatus h.val) F.hbmScrubStatus_PASSES
      Ends (.hbmScrubStep h errs) s fun u =>
        u.fget (R.hbmScrubStatus h.val) F.hbmScrubStatus_POSITION = (n + 1) % 2 ^ 27 ∧
        u.fget (R.hbmScrubStatus h.val) F.hbmScrubStatus_PASSES = (if n + 1 = 2 ^ 27 then (k + 1) % 2 ^ 16 else k) ∧
        u.hbm = s.hbm) ∧
    (∀ (h : Stack) (pc : BitVec 5) (row : BitVec 32), s.rowFails h.val pc.toNat row.toNat = false →
      Ends (.rowRemap h pc row) s fun u => u = s) ∧
    (∀ (h : Stack) (pc : BitVec 5) (row : BitVec 32), s.running = true → s.rowFails h.val pc.toNat row.toNat = true →
      (∀ r ∈ s.ras.hbmRows, r.stack = h.val → r.pc = pc.toNat → r.row = row.toNat → r.entry = none) →
      (∃ n, n < 32 ∧ s.fget (R.hbmRemapN h.val n) F.hbmRemapN_VALID = 0) →
      Ends (.rowRemap h pc row) s fun u => ∃ n, n < 32 ∧ s.fget (R.hbmRemapN h.val n) F.hbmRemapN_VALID = 0 ∧
        u.fget (R.hbmRemapN h.val n) F.hbmRemapN_VALID = 1 ∧ u.fget (R.hbmRemapN h.val n) F.hbmRemapN_PC = pc.toNat ∧
        u.fget (R.hbmRemapN h.val n) F.hbmRemapN_ROW = row.toNat ∧
        (∀ o, o ≠ R.hbmRemapN h.val n → u.reg o = s.reg o) ∧
        u = { s with regs := u.regs, ras := { s.ras with hbmRows := u.ras.hbmRows, hbmErrs := u.ras.hbmErrs } }) ∧
    (∀ (h : Stack) (pc : BitVec 5), (s.fget (R.hbmStatus h.val) F.hbmStatus_PC_LOST).testBit pc.toNat = false →
      s.stopsLater → s.ras.queue.length < 256 →
      Ends (.pseudoChannelLost h pc) s fun u =>
        u.fget (R.hbmStatus h.val) F.hbmStatus_PC_LOST = s.fget (R.hbmStatus h.val) F.hbmStatus_PC_LOST + 2 ^ pc.toNat ∧
        u.fget (R.hbmStatus h.val) F.hbmStatus_STATE = 3 ∧
        ∃ r : FaultRec, u.ras.queue = s.ras.queue ++ [r] ∧ r.code = 0x0206 ∧ r.cls = 4) ∧
    (∀ d : District, Ends (.cancelAll d) s fun u => (u.mqe d.val).ops = [] ∧
      (∀ o ∈ (s.mqe d.val).ops, tget {} (u.tile o.tile).tags o.tag = {}) ∧
      (∀ q, (∀ o ∈ (s.mqe d.val).ops, o.tile ≠ q) → u.tile q = s.tile q) ∧
      (∀ q a, (∀ o ∈ (s.mqe d.val).ops, o.tile = q → o.loadsAt a = false) → Mem.rd (u.tile q).store a = Mem.rd (s.tile q).store a) ∧
      (∀ a, (∀ o ∈ (s.mqe d.val).ops, s.storesAt o a = false) → Mem.rd u.hbm a = Mem.rd s.hbm a) ∧
      (∀ e, e ≠ d.val → u.mqe e = s.mqe e) ∧
      (∀ n, ∃ w, u.ctx n = { s.ctx n with waiting := w }) ∧
      u = { s with tiles := u.tiles, mqes := u.mqes, hbm := u.hbm, hbmPoison := u.hbmPoison, draws := u.draws,
                   svc := { s.svc with awaits := u.svc.awaits, ctx := u.svc.ctx },
                   stw := { s.stw with toHost := u.stw.toHost, dma := u.stw.dma } }) ∧
    (∀ (d : District) (q : Fin 64) (v : Word), (∀ o ∈ (s.mqe d.val).ops, o.queue ≠ q.val) →
      let m := field v.toNat 30 2
      let r := field v.toNat 16 8
      let k := field v.toNat 0 9
      m ≤ 2 → r ≤ 128 → k ≤ 256 → s.depthSum d.val q.val k ≤ 2048 → s.rateSum d.val q.val m r ≤ 128 →
      Ends (.mqeQcfgWrite d q v) s fun u => u.qcfg d.val q.val = (m, k, r) ∧
        (∀ o, o ≠ R.mqeQcfgN d.val q.val → u.reg o = s.reg o) ∧ u = { s with regs := u.regs })

/-- OUTBOX_RELEASE of a departure that is due and leaves its district, its crossing free in that fret and its FIFO with
room, of a slot that was written (or is conditional, or whose tile ended in a fault): one packet with the header of
R306 joins the FIFO and the slot counts one release; one whose first route entry is LOCAL for a tile of its district goes
into that tile's inbox slot (R258, log 88). OUTBOUND_CROSSING_RELEASE takes the earliest packet; one whose header passes
the checks and whose output fret is free and scheduled for the own device claims the fret and joins the mesh (or the
link at its own stop), and one for a tile of the device joins the mesh. CROSSING_ENTRY moves a vector at its district
from the mesh into the inbound FIFO. INBOUND_CROSSING_RELEASE to a tile that no longer issues writes the inbox slot with
the generation of the transit of the release (R55), or marks it REPLAY_PENDING for a stomped arrival. -/
def Obligations.DeparturesAndCrossings : Prop :=
  ∀ (s : State),
    (∀ (p : PTile) (slot : BitVec 5),
      let d := districtOf p.val
      let t := s.tile p.val
      let o := tget {} t.outbox slot.toNat
      let deps := slotDeps t s.version (s.phaseOf s.transit) slot.toNat
      ∀ h : o.released < deps.length,
      let cur := deps[o.released]
      let void := o.void || t.issue.voidRest
      let hdr := s.fillHeader (depTemplate t s.version cur) void cur.fret s.transit (s.ltileOf p.val) o.poison.toNat
      let fret := s.transit * s.fretsPer + cur.fret
      s.releasing p.val = true → ¬(t.issue.status = .running ∧ t.issue.ended = .open) → s.sramSound p →
      (cur.cond = true ∨ o.written = true ∨ t.issue.voidRest = true) →
      ¬(hdrMulticast (depTemplate t s.version cur) = true ∧ hdrMask (depTemplate t s.version cur) = 0) →
      (∀ f ∈ t.issue.inflight, ∀ a b c e, f.what ≠ .outbox slot.toNat a b c e) →
      (s.stays d hdr = none → s.meshClaims.contains (outLink d fret) = false → (s.clk d).outFifo.length < 8 →
        Ends (.outboxRelease p slot) s fun u => ∃ pk : CrossPkt,
          (u.clk d).outFifo = (s.clk d).outFifo ++ [pk] ∧ pk.tile = p.val ∧ pk.slot = slot.toNat ∧ pk.stomped = false ∧
          pk.header = BitVec.ofNat 512 hdr ∧ (void = true → pk.payload = 0) ∧
          (tget {} (u.tile p.val).outbox slot.toNat).released = o.released + 1 ∧
          (∀ q, q ≠ p.val → u.tile q = s.tile q) ∧ (∀ e, e ≠ d → u.clk e = s.clk e) ∧ u.hbm = s.hbm ∧ u.mesh = s.mesh) ∧
      (∀ q, s.stays d hdr = some q →
        Ends (.outboxRelease p slot) s fun u =>
          (tget {} (u.tile p.val).outbox slot.toNat).released = o.released + 1 ∧
          let new := tget {} (u.tile q).inbox (VH.buf hdr)
          new.ready = fretStart fret >>> 32 ∧ new.gen = some (s.transitOf (fretStart fret) % 2 ^ 16) ∧
            (∀ e, u.clk e = s.clk e) ∧ u.hbm = s.hbm ∧ u.mesh = s.mesh)) ∧
    (∀ (d : District) (late : Nat) (pk : CrossPkt), firstTag (s.clk d.val).outFifo = some pk →
      let rel := (s.clk d.val).outTick pk.tag + late
      let v := ((s.setClk d.val { s.clk d.val with
        outFifo := (s.clk d.val).outFifo.erase pk, lastOut := some rel }).reach (rel <<< 32)).drainCheck
      let f := pk.header.toNat
      let ns := (stampNs v.ns (VH.stamp f)).toNat
      rel ≤ pk.tag + s.slipLimit d.val → s.beyond (rel <<< 32) = false →
      (∀ q, v.hopOf 8 f = .out q → v.headerBad q ns f = false →
        let h := meshHops d.val (attach q)
        v.outBar q 8 (ns / 4 + h + 6) (VH.epoch f) false = none →
        Ends (.outboundCrossingRelease d late) s fun u =>
          (u.clk d.val).outFifo = (s.clk d.val).outFifo.erase pk ∧ (ns / 4 + h + 6) ∈ (u.fab q).claims ∧
          (d.val ≠ attach q → u.mesh = s.mesh ++
            [{ vec := { header := pk.header, payload := pk.payload }, dest := .port q, stop := d.val, fret := ns / 4 }]) ∧
          (d.val = attach q → ∃ e : Sent, (u.link q).sent = (s.link q).sent ++ [e] ∧ e.fret = ns / 4 + 6 ∧
            e.seq = (s.link q).txNext ∧ e.isVec = true)) ∧
      (∀ q, v.hopOf 8 f = .here → v.headerBad 8 ns f = false → s.ptileOf (unitOf (VH.dest f)) = some q →
        Ends (.outboundCrossingRelease d late) s fun u =>
          (u.clk d.val).outFifo = (s.clk d.val).outFifo.erase pk ∧ u.mesh = s.mesh ++
            [{ vec := { header := pk.header, payload := pk.payload }, dest := .tile q, stop := d.val, fret := ns / 4 }])) ∧
    (∀ (d : District) (m : MeshVec) (p : Nat), s.mesh.find? (fun m => m.stop == d.val && (match m.dest with
        | .tile p => districtOf p == d.val
        | .port _ => false)) = some m → m.dest = .tile p → s.beyond (fretStart m.fret) = false →
      s.meshClaims.contains (inLink d.val m.fret) = false → (s.clk d.val).inFifo.length < 8 →
      Ends (.crossingEntry d) s fun u => u.mesh = s.mesh.erase m ∧ (∃ pk : CrossPkt,
        (u.clk d.val).inFifo = (s.clk d.val).inFifo ++ [pk] ∧ pk.tile = p ∧ pk.slot = VH.buf m.vec.header.toNat ∧
        pk.header = m.vec.header ∧ pk.stomped = m.vec.stomped) ∧
        (∀ q, q ≠ p → u.tile q = s.tile q) ∧
        (u.tile p).fig.arrs = (s.tile p).fig.arrs + (if m.vec.stomped then 0 else 1)) ∧
    (∀ (d : District) (late : Nat) (pk : CrossPkt), firstTag (s.clk d.val).inFifo = some pk →
      let rel := s.inEdge d.val pk.tag + late <<< 32
      s.clkState d.val ≠ clkHalted → s.beyond rel = false → (s.tile pk.tile).issue.status ≠ .running →
      let old := tget {} (s.tile pk.tile).inbox pk.slot
      Ends (.inboundCrossingRelease d late) s fun u =>
        (u.clk d.val).inFifo = (s.clk d.val).inFifo.erase pk ∧ (∀ q, q ≠ pk.tile → u.tile q = s.tile q) ∧
        let new := tget {} (u.tile pk.tile).inbox pk.slot
        (pk.stomped = true → new = { old with replayPending := true }) ∧
        (pk.stomped = false → new.gen = some (s.transitOf rel % 2 ^ 16) ∧ new.len = VH.len pk.header.toNat ∧
          new.void = VH.void pk.header.toNat ∧ new.replayPending = false ∧ (new.void = true → new.payload = 0)))

/-- MESH_HOP over a link nobody claims in the fret moves a vector one stop in one fret and claims the link, and a claimed
link is a program-fatal clash. VECTOR_ARRIVAL_PORT always takes the first settled vector of the port; one whose header
passes the checks goes on in its output fret with HOP one higher, or to its tile. VECTOR_REPLAY_SEND sends the copy
that was set a replay fret and counts it; REPLAY_COPY_DEPARTURE sends the first copy of the replay queue as a new
packet of the link. -/
def Obligations.VectorsAtPorts : Prop :=
  ∀ (s : State),
    (∀ (i : Nat) (bad : BitVec 25) (m : MeshVec), s.mesh[i]? = some m → m.stop ≠ m.target →
      let nxt := meshNext m.stop m.target
      (s.meshClaims.contains (m.stop, nxt, m.fret) = false → nxt ≠ m.target →
        Ends (.meshHop i bad) s fun u => u.meshClaims = s.meshClaims ++ [(m.stop, nxt, m.fret)] ∧
          u.mesh = s.mesh.eraseIdx i ++ [{ m with vec := damage m.vec bad, stop := nxt, fret := m.fret + 1 }] ∧
          u = { s with mesh := u.mesh, meshClaims := u.meshClaims, ngt := { s.ngt with now := u.ngt.now } }) ∧
      (s.meshClaims.contains (m.stop, nxt, m.fret) = true → s.stopsLater → s.ras.queue.length < 256 →
        Ends (.meshHop i bad) s fun u => u.mesh = s.mesh.eraseIdx i ∧
          ∃ r : FaultRec, u.ras.queue = s.ras.queue ++ [r] ∧ r.code = 0x0501 ∧ r.cls = 4)) ∧
    (∀ (port : Port) (bad : BitVec 25) (r : RxVec) (rs : List RxVec), (s.link port.val).rxVec = r :: rs →
      let v := (s.drainCheck.setLink port.val { s.link port.val with rxVec := rs }).reach (r.at_ <<< 32)
      let x := damage r.vec bad
      let f := x.header.toNat
      let g := (v.retime port.val r.at_).1
      let l := v.linkFrets port.val
      (VH.kind f = 3 → Ends (.vectorArrivalPort port bad) s fun u => u = v) ∧
      (VH.kind f ≠ 3 → v.headerBad port.val (r.at_ >>> 16) f = false →
        (∀ q, v.hopOf port.val f = .out q → v.outBar q port.val (g + l + 12) (VH.epoch f) false = none → VH.replay f = false →
          Ends (.vectorArrivalPort port bad) s fun u => (u.link port.val).rxVec = rs ∧
            (g + l + 12) ∈ (u.fab q).claims ∧ ∃ e : Sent, (u.link q).sent = (s.link q).sent ++ [e] ∧ e.fret = g + l + 12 ∧
              e.what = .vec (hopped x)) ∧
        (∀ p, v.hopOf port.val f = .here → s.ptileOf (unitOf (VH.dest f)) = some p →
          Ends (.vectorArrivalPort port bad) s fun u => (u.link port.val).rxVec = rs ∧
            u.mesh = s.mesh ++ [{ vec := x, dest := .tile p, stop := attach port.val, fret := g + l + 6 }]))) ∧
    (∀ (port : Port) (e : Sent) (fret : Nat), (s.link port.val).sent.find? (fun e => e.isVec && e.replayAt.isSome) = some e →
      e.replayAt = some fret → s.portUp port.val = true → s.portOpen port.val = true →
      Ends (.vectorReplaySend port) s fun u =>
        (u.link port.val).sent.map (·.seq) = (s.link port.val).sent.map (·.seq) ∧
        (∀ x ∈ (u.link port.val).sent, x.seq = e.seq → x.replayAt = none ∧ x.replay = true) ∧
        (u.fab port.val).fig.replays = (s.fab port.val).fig.replays ++ [fret] ∧
        u.fget (R.lnkReplay port.val) F.lnkReplay_REPLAYED =
          min (s.fget (R.lnkReplay port.val) F.lnkReplay_REPLAYED + 1) 65535) ∧
    (∀ (port : Port) (fret : Nat) (x : Vec) (rest : List (Nat × Vec)), (s.fab port.val).replayQ = (fret, x) :: rest →
      s.portUp port.val = true → s.portOpen port.val = true →
      Ends (.replayCopyDeparture port) s fun u => (u.fab port.val).replayQ = rest ∧
        (u.fab port.val).fig.replays = (s.fab port.val).fig.replays ++ [fret] ∧ ∃ e : Sent,
          (u.link port.val).sent = (s.link port.val).sent ++ [e] ∧ e.fret = fret ∧ e.what = .vec x ∧
          e.seq = (s.link port.val).txNext)

/-- Through any powered port: FAB_EPOCH_REQUEST with meridians generated, AT_TRANSIT at least four transits ahead, the old
version drained (R327) and no flip pending sets PENDING and AT_TRANSIT and nothing else; with the transit too near, the
old version not drained, a flip pending or no meridians it sets REFUSED and changes neither; FAB_EPOCH_CANCEL clears
PENDING, and REFUSED where it says so; FAB_EPOCH_REFUSED_CLEAR clears REFUSED alone. -/
def Obligations.VersionFlipRequests : Prop :=
  ∀ (s : State) (port : Port), (s.link port.val).st ≠ .disabled →
    let fe := fun (u : State) (f : RField) => u.fget R.fabEpoch f
    (∀ at' : BitVec 48, s.valid = true → s.transit + 4 ≤ at'.toNat → s.drainedNow = true → fe s F.fabEpoch_PENDING = 0 →
      Ends (.fabEpochRequest port at') s fun u => s.onlyRegs [R.fabEpoch] u ∧ fe u F.fabEpoch_PENDING = 1 ∧
        fe u F.fabEpoch_AT_TRANSIT = at'.toNat ∧ fe u F.fabEpoch_REFUSED = fe s F.fabEpoch_REFUSED ∧
        fe u F.fabEpoch_ACTIVE = fe s F.fabEpoch_ACTIVE ∧ fe u F.fabEpoch_DRAINED = 1) ∧
    (∀ at' : BitVec 48, (s.valid = false ∨ at'.toNat < s.transit + 4 ∨ s.drainedNow = false ∨ fe s F.fabEpoch_PENDING = 1) →
      Ends (.fabEpochRequest port at') s fun u => s.onlyRegs [R.fabEpoch] u ∧ fe u F.fabEpoch_REFUSED = 1 ∧
        fe u F.fabEpoch_PENDING = fe s F.fabEpoch_PENDING ∧ fe u F.fabEpoch_AT_TRANSIT = fe s F.fabEpoch_AT_TRANSIT ∧
        fe u F.fabEpoch_ACTIVE = fe s F.fabEpoch_ACTIVE) ∧
    (∀ r : Bool, Ends (.fabEpochCancel port r) s fun u => s.onlyRegs [R.fabEpoch] u ∧ fe u F.fabEpoch_PENDING = 0 ∧
      fe u F.fabEpoch_REFUSED = (if r then 0 else fe s F.fabEpoch_REFUSED) ∧
      fe u F.fabEpoch_ACTIVE = fe s F.fabEpoch_ACTIVE ∧ fe u F.fabEpoch_AT_TRANSIT = fe s F.fabEpoch_AT_TRANSIT) ∧
    Ends (.fabEpochRefusedClear port) s fun u => s.onlyRegs [R.fabEpoch] u ∧ fe u F.fabEpoch_REFUSED = 0 ∧
      fe u F.fabEpoch_PENDING = fe s F.fabEpoch_PENDING ∧ fe u F.fabEpoch_AT_TRANSIT = fe s F.fabEpoch_AT_TRANSIT ∧
      fe u F.fabEpoch_ACTIVE = fe s F.fabEpoch_ACTIVE

/-- DROOP_TRIP of a powered untripped district notes the trip and a stretch of STEPS from then on, and with meridians
generated counts an event; DROOP_CLEAR ends both. CLK_RETUNE_WRITE through a powered instance takes a setting R254
accepts as pending, refuses another with REFUSED and the record 0x0405, and with bit REFUSED only clears it, as
CLK_REFUSED_CLEAR does; through a gated instance each is a bus error and changes nothing (R265). RETUNE_IDLE_APPLY
without meridians puts the pending setting in force in every powered district; CLK_MIN_SETTING_WRITE takes a legal value
not above the setting in force or pending; HALT_RESTART restarts every halted district that has locked;
STRETCH_HISTORY_READ clears CLK_STRETCH_MAX of every powered district. -/
def Obligations.ClockCommands : Prop :=
  ∀ (s : State) (d : District),
    let st := s.clkState d.val
    let c := s.clk d.val
    let cr := fun (u : State) (f : RField) => u.fget R.clkRetune f
    (st ≠ clkGated → c.tripped = none →
      Ends (.droopTrip d) s fun u => u.clk d.val = { c with
          tripped := some s.ngt.now, droops := c.droops + b2n s.valid
          stretch := c.stretch ++ [{ since := s.ngt.now, steps := s.fget (R.clkDroopCtl d.val) F.clkDroopCtl_STEPS }] } ∧
        u.fget (R.clkDroopCount d.val) F.clkDroopCount_EVENTS = (if s.valid then
          min (s.fget (R.clkDroopCount d.val) F.clkDroopCount_EVENTS + 1) 65535
          else s.fget (R.clkDroopCount d.val) F.clkDroopCount_EVENTS) ∧
        (c.stretch = [] → u.stretchNow d.val = s.fget (R.clkDroopCtl d.val) F.clkDroopCtl_STEPS) ∧
        (∀ e, e ≠ d.val → u.clk e = s.clk e) ∧ u = { s with clks := u.clks, regs := u.regs }) ∧
    (∀ x, c.tripped = some x →
      Ends (.droopClear d) s fun u => u.clk d.val = { c.endStretch s.ngt.now with tripped := none } ∧
        (s.valid = false → u.regs = s.regs) ∧ (∀ e, e ≠ d.val → u.clk e = s.clk e) ∧
        u = { s with clks := u.clks, regs := u.regs }) ∧
    (st ≠ clkGated → ∀ v : Word,
      let set := field v.toNat 0 6
      let at' := field v.toNat 16 48
      (v.getLsbD 14 = true → Ends (.clkRetuneWrite d v) s fun u => s.wroteRegs [R.clkRetune] u ∧
        cr u F.clkRetune_REFUSED = 0 ∧ cr u F.clkRetune_PENDING = cr s F.clkRetune_PENDING ∧
        cr u F.clkRetune_SETTING = cr s F.clkRetune_SETTING ∧ cr u F.clkRetune_AT_TRANSIT = cr s F.clkRetune_AT_TRANSIT) ∧
      (v.getLsbD 14 = false → 20 ≤ set → set ≤ 42 → s.fget R.clkMinSetting F.clkMinSetting_MIN ≤ set →
        (s.valid = true → s.transit + 4 ≤ at') →
        ¬(cr s F.clkRetune_PENDING = 1 ∧ s.valid = true ∧ cr s F.clkRetune_AT_TRANSIT < s.transit + 4) →
        Ends (.clkRetuneWrite d v) s fun u => s.wroteRegs [R.clkRetune] u ∧ cr u F.clkRetune_PENDING = 1 ∧
          cr u F.clkRetune_SETTING = set ∧ cr u F.clkRetune_AT_TRANSIT = at' ∧
          cr u F.clkRetune_REFUSED = cr s F.clkRetune_REFUSED) ∧
      (v.getLsbD 14 = false → s.retuneOk set at' = false → s.ras.queue.length < 224 →
        Ends (.clkRetuneWrite d v) s fun u => cr u F.clkRetune_REFUSED = 1 ∧
          cr u F.clkRetune_PENDING = cr s F.clkRetune_PENDING ∧ cr u F.clkRetune_SETTING = cr s F.clkRetune_SETTING ∧
          cr u F.clkRetune_AT_TRANSIT = cr s F.clkRetune_AT_TRANSIT ∧
          ∃ r : FaultRec, u.ras.queue = s.ras.queue ++ [r] ∧ r.code = 0x0405 ∧ r.cls = 1)) ∧
    (st ≠ clkGated → Ends (.clkRefusedClear d) s fun u => s.wroteRegs [R.clkRetune] u ∧ cr u F.clkRetune_REFUSED = 0 ∧
      cr u F.clkRetune_PENDING = cr s F.clkRetune_PENDING) ∧
    (st ≠ clkGated → ∀ v : BitVec 6, 20 ≤ v.toNat → v.toNat ≤ 42 → v.toNat ≤ s.setting →
      (cr s F.clkRetune_PENDING = 1 → v.toNat ≤ cr s F.clkRetune_SETTING) →
      Ends (.clkMinSettingWrite d v) s fun u => s.wroteRegs [R.clkMinSetting] u ∧
        u.fget R.clkMinSetting F.clkMinSetting_MIN = v.toNat) ∧
    (st = clkGated →
      let bars := fun (x : Instr) => Ends x s fun u => u = { s with stw := { s.stw with answer := { kind := .busError } } }
      (∀ v, bars (.clkRetuneWrite d v)) ∧ bars (.clkRefusedClear d) ∧ ∀ v, bars (.clkMinSettingWrite d v)) ∧
    (s.valid = false → cr s F.clkRetune_PENDING = 1 →
      Ends .retuneIdleApply s fun u =>
        (∀ e, e < 32 → u.fget (R.clkStatus e) F.clkStatus_SETTING =
          (if s.clkState e = clkGated then s.fget (R.clkStatus e) F.clkStatus_SETTING else cr s F.clkRetune_SETTING)) ∧
        u.setting = cr s F.clkRetune_SETTING ∧ cr u F.clkRetune_PENDING = 0 ∧
        (∀ e, e < 32 → u.clkState e = s.clkState e) ∧ u = { s with regs := u.regs, clks := u.clks, clkSetting := u.clkSetting }) ∧
    (∀ (ns m m' : Nat), (∃ e, e < 32 ∧ s.clkState e = clkHalted) →
      (∀ e, e < 32 → s.clkState e = clkHalted → (s.clk e).halt = some (m, m')) →
      Ends (.haltRestart ns 0) s fun u => (∀ e, e < 32 → s.clkState e = clkHalted → u.clkOn e = true ∧
          (u.clk e).at_ = m + min ns 2000 <<< 48 ∧
          u.fget (R.clkHalt e) F.clkHalt_LAST_NS = min ns 2000 ∧
          u.fget (R.clkHalt e) F.clkHalt_COUNT = (s.fget (R.clkHalt e) F.clkHalt_COUNT + 1) % 2 ^ 32) ∧
        (∀ e, e < 32 → s.clkState e ≠ clkHalted → u.clkState e = s.clkState e ∧ u.clk e = s.clk e)) ∧
    Ends .stretchHistoryRead s fun u => (∀ e, e < 32 → s.clkState e ≠ clkGated →
        u.reg (R.clkStretchMax e) = regReset (R.clkStretchMax e) ∧ u.clk e = { s.clk e with worstNom := 0 }) ∧
      (∀ e, e < 32 → s.clkState e = clkGated → u.reg (R.clkStretchMax e) = s.reg (R.clkStretchMax e) ∧ u.clk e = s.clk e) ∧
      u = { s with regs := u.regs, clks := u.clks, ras := { s.ras with stretch := u.ras.stretch } }

/-- LINK_PACKET_RECEIVE on an UP port whose gate is not CLOSED: a readable packet in the sequence window, with a good LCRC
(and a good HCRC for a vector), is taken into the queue of its plane; a sequence already settled or before RX_NEXT is
dropped and counted; a failed one is NAKed, and one whose header is good goes on stomped (R318). ACK_RECEIVED drops the packets it covers; beyond what was sent it is
malformed, stale it changes nothing. NAK_RECEIVED of a service packet puts it in line for replay. ACK_TIMEOUT at its
instant sends every unacknowledged service packet again. FRAME_RECEIVE of an unreadable frame counts FRAME_FAIL; a
good one without packets sets FLOOR and ends the run of unreadable frames; a training frame takes the port to RECOVER
(R386). -/
def Obligations.LinkReception : Prop :=
  ∀ (s : State) (port : Port),
    let l := s.link port.val
    (∀ k : LinkPkt, l.st = .up → l.gate ≠ .closed →
      let v := vecOfFlits k.flits
      let isVec := hPlane (k.flits.headD 0).toNat = 0
      ((lnkDist k.seq.toNat l.rxNext < 0 ∨ l.settled.contains k.seq.toNat = true) →
        Ends (.linkPacketReceive port k) s fun u => (u.link port.val).rxVec = l.rxVec ∧ (u.link port.val).rxSvc = l.rxSvc ∧
          u.fget (R.lnkDupCount port.val) F.lnkDupCount_DUPLICATES =
            min (s.fget (R.lnkDupCount port.val) F.lnkDupCount_DUPLICATES + 1) (2 ^ 32 - 1)) ∧
      (0 ≤ lnkDist k.seq.toNat l.rxNext → lnkDist k.seq.toNat l.rxNext < 8192 → l.settled.contains k.seq.toNat = false →
        (k.readable = true → k.crc = .good →
          (isVec → hcrcOk v.header.toNat = true → Ends (.linkPacketReceive port k) s fun u =>
            (u.link port.val).rxVec = l.rxVec ++ [{ vec := v, at_ := k.at_ }] ∧ (u.link port.val).rxSvc = l.rxSvc ∧
            (u.link port.val).naks = l.naks ∧ ∀ q, q ≠ port.val → u.link q = s.link q) ∧
          (¬isVec → Ends (.linkPacketReceive port k) s fun u =>
            (u.link port.val).rxSvc = l.rxSvc ++ [svcOfFlits k.flits] ∧ (u.link port.val).rxVec = l.rxVec ∧
            (u.link port.val).naks = l.naks ∧ ∀ q, q ≠ port.val → u.link q = s.link q)) ∧
        (k.readable = true → k.crc = .failed → ¬isVec → l.naks = [] →
          let good := hPlane (k.flits.headD 0).toNat = 2 ∧ hcrcOk (k.flits.headD 0).toNat = true
          Ends (.linkPacketReceive port k) s fun u => (u.link port.val).rxVec = l.rxVec ∧
            (good → (u.link port.val).rxSvc = l.rxSvc ++ [{ svcOfFlits k.flits with stomped := true }]) ∧
            (¬good → (u.link port.val).rxSvc = l.rxSvc) ∧
            (∃ g y, (u.link port.val).naks = [(g, y, 2 ^ (k.slot % 6))]) ∧
            u.fget (R.lnkErrCount port.val) F.lnkErrCount_CRC_FAIL =
              min (s.fget (R.lnkErrCount port.val) F.lnkErrCount_CRC_FAIL + 1) 65535) ∧
        (k.crc = .failed → isVec → hcrcOk v.header.toNat = true → Ends (.linkPacketReceive port k) s fun u =>
          (u.link port.val).rxVec = l.rxVec ++ [{ vec := { v with stomped := true }, at_ := k.at_, own := true }] ∧
          u.fget (R.fabCountErr port.val) F.fabCountErr_STOMPS =
            satN F.fabCountErr_STOMPS.len (s.fget (R.fabCountErr port.val) F.fabCountErr_STOMPS + 1)))) ∧
    (∀ a : BitVec 20,
      (0 < lnkDist a.toNat l.txOldest → lnkDist a.toNat l.txOldest ≤ lnkDist l.txNext l.txOldest →
        Ends (.ackReceived port a) s fun u => (u.link port.val).txOldest = a.toNat ∧ (u.link port.val).expiries = 0 ∧
          (u.link port.val).sent = l.sent.filter (fun e => decide (0 ≤ lnkDist e.seq a.toNat)) ∧
          (∀ q, q ≠ port.val → u.link q = s.link q) ∧ u = { s with links := u.links, regs := u.regs }) ∧
      (lnkDist l.txNext l.txOldest < lnkDist a.toNat l.txOldest → s.ras.queue.length < 224 →
        Ends (.ackReceived port a) s fun u => u.links = s.links ∧
          ∃ r : FaultRec, u.ras.queue = s.ras.queue ++ [r] ∧ r.code = 0x0707 ∧ r.cls = 1) ∧
      (lnkDist a.toNat l.txOldest ≤ 0 → lnkDist a.toNat l.txOldest ≤ lnkDist l.txNext l.txOldest →
        Ends (.ackReceived port a) s fun u => u = s)) ∧
    (∀ (fret : BitVec 16) (k : Nat) (e : Nat × Nat × Nat) (x : Sent), k < 6 →
      l.ended.find? (fun e => e.1 % 2 ^ 16 == fret.toNat && decide (s.nowFret ≤ e.1 + 256)) = some e →
      ∀ e2, l.ended.find? (fun y => y.1 == e.1 && y.2.1 == k) = some e2 →
      l.sent.find? (fun y => y.seq == e2.2.2) = some x → x.isVec = false → x.nakd = false → x.seq ∉ l.replaySvc →
      Ends (.nakReceived port fret (BitVec.ofNat 6 (2 ^ k))) s fun u => (u.link port.val).replaySvc = l.replaySvc ++ [x.seq] ∧
        (u.link port.val).sent.map (·.seq) = l.sent.map (·.seq) ∧
        u.fget (R.lnkErrCount port.val) F.lnkErrCount_NAK_RECEIVED =
          min (s.fget (R.lnkErrCount port.val) F.lnkErrCount_NAK_RECEIVED + 1) 65535) ∧
    (l.st = .up → l.partner = .opened → l.gate ≠ .closed → s.buffered port.val ≠ [] →
      let due := l.ackSince + (s.fget (R.lnkAckCtl port.val) F.lnkAckCtl_ACK_TIMEOUT_NS) <<< 48
      due ≤ (s.reach due).ngt.now → (s.reach due).buffered port.val ≠ [] → l.expiries + 1 < s.fget (R.lnkAckCtl port.val) F.lnkAckCtl_STALL_LIMIT →
      s.ras.queue.length < 224 →
      Ends (.ackTimeout port) s fun u => (u.link port.val).replaySvc = l.unackedSvc ∧
        (u.link port.val).expiries = l.expiries + 1 ∧ (u.link port.val).st = .up ∧
        u.fget (R.lnkReplay port.val) F.lnkReplay_TIMEOUTS =
          min (s.fget (R.lnkReplay port.val) F.lnkReplay_TIMEOUTS + 1) 65535 ∧
        ∃ r : FaultRec, u.ras.queue = s.ras.queue ++ [r] ∧ r.code = 0x0706 ∧ r.cls = 1) ∧
    (∀ fr : Frame, l.st = .up →
      (fr.training = true → Ends (.frameReceive port fr) s fun u => (u.link port.val).st = .recover ∧
        (u.link port.val).recoverAt = some (s.reach (fr.at_ <<< 32)).ngt.now ∧ ∀ q, q ≠ port.val → u.link q = s.link q) ∧
      let c := fecDecode ((s.reach (fr.at_ <<< 32)).drainCheck.frameBytes port.val fr)
      let h := frameHdr c.bytes
      fr.training = false → c.fixed = [] →
      (h.ok = false → l.unreadable < 7 →
        Ends (.frameReceive port fr) s fun u => (u.link port.val).unreadable = l.unreadable + 1 ∧
          (u.link port.val).st = .up ∧ u.fget (R.lnkErrCount port.val) F.lnkErrCount_FRAME_FAIL =
            min (s.fget (R.lnkErrCount port.val) F.lnkErrCount_FRAME_FAIL + 1) 65535) ∧
      (h.ok = true → h.ends ≤ 6 → h.gate = 1 → (l.partner = .opened ∨ s.quiet) → h.nak = none → lnkDist h.ack l.txOldest = 0 →
        0 ≤ lnkDist l.txNext l.txOldest → (parseFrame c.bytes h l.asm).pkts = [] → (parseFrame c.bytes h l.asm).drones = [] →
        Ends (.frameReceive port fr) s fun u => (u.link port.val).unreadable = 0 ∧ (u.link port.val).floor = h.floor ∧
          (u.link port.val).partner = .opened ∧ (u.link port.val).rxVec = l.rxVec ∧ (u.link port.val).sent = l.sent ∧
          ∀ q, q ≠ port.val → u.link q = s.link q))

/-- On an UP port: LANE_LOCK_LOSS of a covered lane with no failed lane in its direction marks it FAILED, records 0x0701,
keeps the port UP and, with AUTO_SUB, asks for its substitution; LANE_SUB_REQ_RECEIVED sets the switch fret to the
first multiple of 256 at least 64 frets on; LANE_SUB_ACK_RECEIVED gives the waiting substitutions of the lane the fret
with bits 15:8 as acknowledged; LANE_SWITCH_FRET at that fret retires the lane and drops the substitution;
LANE_RETIRE_WRITE of a lane a parity lane can replace asks for its substitution. -/
def Obligations.LanesAndSubstitution : Prop :=
  ∀ (s : State) (port : Port),
    let l := s.link port.val
    (∀ n : Fin 30, l.st = .up →
      let x := l.lane true n.val
      x.role ≠ .failed → x.role ≠ .retired → (∀ k, k < 30 → (l.lane true k).role ≠ .failed) →
      (x.role = .active → (l.cover true x.logical).isSome = true) → s.ras.queue.length < 224 →
      Ends (.laneLockLoss port n) s fun u => ((u.link port.val).lane true n.val).role = .failed ∧
        (u.link port.val).st = .up ∧ (∀ k, k ≠ n.val → (u.link port.val).lane true k = l.lane true k) ∧
        (s.fget (R.lnkLaneCtl port.val) F.lnkLaneCtl_AUTO_SUB = 1 →
          ∃ y ∈ (u.link port.val).subs, y.rx = true ∧ y.lane = n.val) ∧
        (s.fget (R.lnkLaneCtl port.val) F.lnkLaneCtl_AUTO_SUB = 0 → (u.link port.val).subs = l.subs) ∧
        ∃ r : FaultRec, u.ras.queue = s.ras.queue ++ [r] ∧ r.code = 0x0701 ∧ r.cls = 1) ∧
    (∀ n : Fin 30, l.st = .up → (l.lane false n.val).role ≠ .retired →
      ((l.lane false n.val).role = .active → (l.cover false (l.lane false n.val).logical).isSome = true) →
      (∀ y ∈ l.subs, y.rx = false → y.lane ≠ n.val) →
      Ends (.laneSubReqReceived port n) s fun u => ∃ f, s.nowFret + 64 ≤ f ∧ f < s.nowFret + 320 ∧ f % 256 = 0 ∧
        u = s.setLink port.val { l with subs := l.subs ++ [{ rx := false, lane := n.val, switchFret := some f }] }) ∧
    (∀ (n : Fin 30) (f8 : BitVec 8),
      Ends (.laneSubAckReceived port n f8) s fun u => ∃ f, f % 256 = 0 ∧ f / 256 % 256 = f8.toNat ∧ s.nowFret ≤ f ∧
        u = s.setLink port.val { l with subs := l.subs.map fun y =>
          if y.rx && y.lane == n.val && y.switchFret.isNone then { y with switchFret := some f } else y }) ∧
    (∀ (y : LaneSub) (f : Nat), l.subs = [y] → y.switchFret = some f → fretStart f ≤ (s.reach (fretStart f)).ngt.now →
      y.lane < 30 →
      Ends (.laneSwitchFret port) s fun u => ((u.link port.val).lane y.rx y.lane).role = .retired ∧
        (u.link port.val).subs = [] ∧ (u.link port.val).st = l.st ∧
        (if y.rx then (u.link port.val).rxRetired else (u.link port.val).txRetired) =
          sins (if y.rx then l.rxRetired else l.txRetired) y.lane) ∧
    (∀ n : BitVec 5, n.toNat < 30 → l.st = .up → (l.lane true n.toNat).role ≠ .retired →
      ((l.lane true n.toNat).logical < 28 → (l.cover true (l.lane true n.toNat).logical).isSome = true) →
      (∀ y ∈ l.subs, y.rx = true → y.lane ≠ n.toNat) →
      Ends (.laneRetireWrite port n) s fun u => u = s.setLink port.val
        { l with subs := l.subs ++ [{ rx := true, lane := n.toNat, switchFret := none }] })

/-- PARTNER_LEAVING on an UP port, LINK_DOWN_TIMEOUT in RECOVER at its instant, TRAINING_ATTEMPT_FAIL while TRAINING and
LNK_FORCE_DOWN take the port DOWN with their reason, its sequence state and replay buffer emptied and its gate closed
(LEAVING stays). PORT_RECOVERED in time returns it to UP; PORT_TRAINING_COMPLETE with 28 usable lanes each way takes
it to UP with its gate closed; LNK_TRAIN starts training from DOWN. LNK_GATE_WRITE opens an UP, unquarantined gate and
closes any; LNK_QUARANTINE_WRITE closes it, and releases it. Every other port keeps its link. -/
def Obligations.PortStates : Prop :=
  ∀ (s : State) (port : Port),
    let p := port.val
    let l := s.link p
    let shut : Gate := if l.gate = .leaving then .leaving else .closed
    let downs := fun (c : Instr) (reason : Nat) => Ends c s fun u =>
      u.link p = { l.emptied with st := .down, gate := shut, downReason := reason } ∧ (∀ q, q ≠ p → u.link q = s.link q) ∧
      u.fget (R.lnkCtl p) F.lnkCtl_GATE = 0
    (l.st = .up → downs (.partnerLeaving port) 2) ∧
    (∀ t, l.st = .recover → l.recoverAt = some t →
      let due := t + (s.fget (R.lnkDownTime p) F.lnkDownTime_US * 1000) <<< 48
      (due ≤ (s.reach due).ngt.now → downs (.linkDownTimeout port) 1) ∧
      (s.ngt.now ≤ due → ∀ (record : List Byte) (r : Relock),
        let t : TrainData := { rxUsable := r.rxUsable, txUsable := r.txUsable, record := record, fresh := r.fresh, scr := r.scr }
        28 ≤ (l.usable t true).length → 28 ≤ (l.usable t false).length →
        Ends (.portRecovered port record r) s fun u => (u.link p).st = .up ∧ (u.link p).recoverAt = none ∧
          (u.link p).record = record ∧ (u.link p).rxScr = r.scr ∧ (∀ q, q ≠ p → u.link q = s.link q) ∧
          (l.fresh = false → r.fresh = false → (u.link p).replaySvc = l.unackedSvc ∧ (u.link p).sent = l.sent ∧
            (u.link p).txNext = l.txNext) ∧
          (l.fresh = true ∨ r.fresh = true → (u.link p).sent = [] ∧ (u.link p).txNext = 0 ∧ (u.link p).rxNext = 0))) ∧
    (∀ few : Bool, l.st = .training → downs (.trainingAttemptFail port few) (if few then 4 else 3)) ∧
    (∀ few : Bool, l.st ≠ .training → Ends (.trainingAttemptFail port few) s fun u => u = s) ∧
    (l.st = .down → s.fget (R.lnkCtl p) F.lnkCtl_FORCE_DOWN = 0 → Ends (.lnkTrain port) s fun u =>
      u.link p = { l with st := .training } ∧ ∀ q, q ≠ p → u.link q = s.link q) ∧
    (∀ t : TrainData, (l.st = .training ∨ l.st = .down) → s.fget (R.lnkCtl p) F.lnkCtl_FORCE_DOWN = 0 →
      28 ≤ (l.usable t true).length → 28 ≤ (l.usable t false).length →
      Ends (.portTrainingComplete port t) s fun u => (u.link p).st = .up ∧ (u.link p).gate = shut ∧
        (u.link p).partner = .closed ∧ (u.link p).record = t.record ∧
        (u.link p).rxLanes = mapLanes (l.usable t true) ∧ (u.link p).txLanes = mapLanes (l.usable t false) ∧
        (u.link p).rxScr = t.scr ∧
        ∀ q, q ≠ p → u.link q = s.link q) ∧
    ((l.st = .up ∨ l.st = .recover ∨ l.st = .training) → downs (.lnkForceDown port true) 5) ∧
    (l.st ≠ .disabled → Ends (.lnkForceDown port false) s fun u => u.fget (R.lnkCtl p) F.lnkCtl_FORCE_DOWN = 0 ∧
      s.onlyRegs [R.lnkCtl p] u) ∧
    (l.st ≠ .disabled → Ends (.lnkQuarantineWrite port true) s fun u => u.link p = { l with gate := shut } ∧
      u.fget (R.lnkCtl p) F.lnkCtl_QUARANTINE = 1 ∧ u.fget (R.lnkCtl p) F.lnkCtl_GATE = s.fget (R.lnkCtl p) F.lnkCtl_GATE ∧
      ∀ q, q ≠ p → u.link q = s.link q) ∧
    (l.st ≠ .disabled → Ends (.lnkQuarantineWrite port false) s fun u => u.fget (R.lnkCtl p) F.lnkCtl_QUARANTINE = 0 ∧
      (s.fget (R.lnkCtl p) F.lnkCtl_GATE = 0 → s.onlyRegs [R.lnkCtl p] u)) ∧
    (l.st = .up → s.fget (R.lnkCtl p) F.lnkCtl_QUARANTINE = 0 → l.gate ≠ .leaving →
      Ends (.lnkGateWrite port true) s fun u => (u.link p).gate = .opened ∧ u.fget (R.lnkCtl p) F.lnkCtl_GATE = 1 ∧
        (∀ q, q ≠ p → u.link q = s.link q) ∧ (s.quiet → u = { s with links := u.links, regs := u.regs })) ∧
    (l.st ≠ .disabled → Ends (.lnkGateWrite port false) s fun u => u.link p = { l with gate := shut } ∧
      u.fget (R.lnkCtl p) F.lnkCtl_GATE = 0 ∧ (∀ q, q ≠ p → u.link q = s.link q) ∧
      u = { s with links := u.links, regs := u.regs })

/-- On an UP port with its gate open: a queued packet whose turn it is, with room for it in the replay buffer, leaves the
output queue in the fret in which its flits find place, takes the next link sequence number and is kept for replay; a
packet in line for replay leaves again under its own number and is counted. -/
def Obligations.ServicePacketDeparts : Prop :=
  ∀ (s : State) (port : Port) (w : Leaving) (served : List (Nat × Nat)),
    let p := port.val
    let g := tget {} s.svc.fig p
    let first := max s.nowFret g.lastFret
    s.portUp p = true → s.portOpen p = true →
    (s.pickClass p true = some (w, served) ∨ (s.pickClass p true = none ∧ s.pickClass p false = some (w, served))) →
    ∀ ps, s.place p 65536 w.flits first (if first = g.lastFret then g.lastFlits else 0) = some ps →
    let f := endFret ps
    f ≤ (s.reach (fretStart f)).nowFret →
    (∀ h : SvcHeld, w = .fresh h → s.svcOccupancy p + w.flits ≤ 6144 → s.occupancy p + w.flits ≤ 8192 →
      Ends (.servicePacketDepart port) s fun u => u.outQ p = (s.outQ p).erase h ∧ ∃ e : Sent,
        (u.link p).sent = (s.link p).sent ++ [e] ∧ e.seq = (s.link p).txNext ∧ e.fret = f ∧ e.kept = true ∧
        e.what = .svc (stamped h (4 * f)) ∧ (u.link p).txNext = ((s.link p).txNext + 1) % 2 ^ 20 ∧
        ∀ q, q ≠ p → u.link q = s.link q ∧ u.outQ q = s.outQ q) ∧
    (∀ e : Sent, w = .replay e → Ends (.servicePacketDepart port) s fun u => u.outQ p = s.outQ p ∧
      (u.link p).sent.map (·.seq) = (s.link p).sent.map (·.seq) ∧ (u.link p).txNext = (s.link p).txNext ∧
      (u.link p).replaySvc = (s.link p).replaySvc.erase e.seq ∧
      u.fget (R.lnkReplay p) F.lnkReplay_REPLAYED = min (s.fget (R.lnkReplay p) F.lnkReplay_REPLAYED + 1) 65535)

/-- TIME_EXCHANGE_START of a trained port at an instant of R225 not yet dealt with sends a record of TYPE 1 with the next
SEQ and the departure stamp, at another instant nothing; TIME_EXCHANGE_REQ_RECEIVED answers a good request with a record
of TYPE 2 that echoes SEQ, carries both stamps and the CORR of the request; a bad record counts one rejection, awaited or
not. TIME_EXCHANGE_RSP_RECEIVED within 32,000 ns on a port that is no parent writes theta and delay of R227 and ends the
exchange; on the parent port of A alone, frozen, it makes A USABLE. TIME_EXCHANGE_MISSED after 32,000 ns counts one,
whether the request left or not. A port that is not up starts, answers and misses nothing. -/
def Obligations.TimeExchanges : Prop :=
  ∀ (s : State) (port : Port),
    let p := port.val
    let out := s.ngt.exch.find? (·.1 == p)
    let rejected := fun (u : State) => u.fget (R.ngtPortNAsym p) F.ngtPortNAsym_REJECTED =
      min (s.fget (R.ngtPortNAsym p) F.ngtPortNAsym_REJECTED + 1) 65535
    let missed := fun (u : State) => u.fget (R.ngtPortNDelay p) F.ngtPortNDelay_MISSED =
        min (s.fget (R.ngtPortNDelay p) F.ngtPortNDelay_MISSED + 1) 65535 ∧
      u.fget (R.ngtPortNDelay p) F.ngtPortNDelay_DELAY = s.fget (R.ngtPortNDelay p) F.ngtPortNDelay_DELAY
    (s.portUp p = false → ∀ t1 r t2 t3,
      Ends (.timeExchangeStart port t1) s (· = s) ∧ Ends (.timeExchangeReqReceived port r t2 t3) s (· = s) ∧
      Ends (.timeExchangeRspReceived port r t2) s (· = s) ∧ Ends (.timeExchangeMissed port) s (· = s)) ∧
    (s.portUp p = true → ∀ t1 : Nat,
      let q := (tget 0 s.ngt.exchSeq p + 1) % 2 ^ 16
      (s.exchDue p t1 = false → Ends (.timeExchangeStart port t1) s (· = s)) ∧
      (s.exchDue p t1 = true → Ends (.timeExchangeStart port t1) s fun u =>
        u.ngt.exch.find? (·.1 == p) = some (p, { seq := q, t1 := hwStamp t1 }) ∧
        (let r := tget [] u.ngt.sentRec p
         r.length = 48 ∧ leAt r 0 1 = 1 ∧ leAt r 4 2 = q ∧ leAt r 6 10 = hwStamp t1 % 2 ^ 80 ∧ leAt r 16 10 = 0 ∧
         leAt r 32 8 = (s.reg R.ngtEpochId).toNat) ∧ (out = none → u = { s with ngt := u.ngt }))) ∧
    (s.portUp p = true → ∀ (r : List Byte) (t2 t3 : Nat),
      (exchBad r = false → leAt r 0 1 = 1 →
        Ends (.timeExchangeReqReceived port r t2 t3) s fun u => u = { s with ngt := u.ngt } ∧
          let a := tget [] u.ngt.sentRec p
          a.length = 48 ∧ leAt a 0 1 = 2 ∧ leAt a 4 2 = leAt r 4 2 ∧ leAt a 6 10 = hwStamp t2 % 2 ^ 80 ∧
          leAt a 16 10 = hwStamp t3 % 2 ^ 80 ∧ leAt a 26 6 = 0 ∧ leAt a 40 6 = leAt r 26 6) ∧
      ((exchBad r = true ∨ leAt r 0 1 ≠ 1) → Ends (.timeExchangeReqReceived port r t2 t3) s fun u => rejected u ∧
        u.ngt.sentRec = s.ngt.sentRec ∧ s.onlyRegs [R.ngtPortNAsym p] { u with ngt := s.ngt })) ∧
    (s.portUp p = true → ∀ (r : List Byte) (t4 : Nat), (∀ due, s.rspDue p = some due → (s.reach (t4 <<< 32)).ngt.now ≤ due) →
      (s.rspBad p r = true → Ends (.timeExchangeRspReceived port r t4) s fun u => rejected u ∧ u.ngt.exch = s.ngt.exch) ∧
      (∀ x : Exchange, out = some (p, x) → s.rspBad p r = false → leAt r 4 2 = x.seq →
        let fwd : Int := (leAt r 6 10 : Int) - x.t1 - signedOf 48 (leAt r 40 6)
        let rev : Int := (hwStamp t4 : Int) - leAt r 16 10 - signedOf 48 (leAt r 26 6)
        let theta := (fwd - rev - signedOf 32 (s.fget (R.ngtPortNAsym p) F.ngtPortNAsym_ASYM)) / 2
        (s.parentOf false ≠ p → s.parentOf true ≠ p → Ends (.timeExchangeRspReceived port r t4) s fun u =>
          u.fget (R.ngtPortNOffset p) F.ngtPortNOffset_VALID = 1 ∧
          u.fget (R.ngtPortNOffset p) F.ngtPortNOffset_THETA = ofSigned 48 theta ∧
          u.fget (R.ngtPortNDelay p) F.ngtPortNDelay_DELAY = ofSigned 48 ((fwd + rev) / 2) ∧
          u.ngt.exch.find? (·.1 == p) = none ∧ u.ngt.y = s.ngt.y ∧ u.ngt.integ = s.ngt.integ ∧ u.ngtState = s.ngtState) ∧
        (s.parentOf false = p → s.parentOf true ≠ p → s.masterOf false = false → servesDomain r false = true →
          leAt r 32 8 = (s.reg R.ngtEpochId).toNat → s.fget R.ngtServoCtl F.ngtServoCtl_FREEZE = 1 →
          Ends (.timeExchangeRspReceived port r t4) s fun u => u.domState false = 2 ∧ u.domState true = s.domState true ∧
            u.ngt.domA.lastE = theta ∧ u.ngt.domA.lastUsable = some u.ngt.now ∧ u.ngt.y = s.ngt.y ∧
            u.ngtState = s.ngtState))) ∧
    (s.portUp p = true →
      (∀ x : Exchange, out = some (p, x) →
        let due := x.t1 <<< 32 + 32000 <<< 48
        due ≤ (s.reach due).ngt.now →
        Ends (.timeExchangeMissed port) s fun u => u.ngt.exch.find? (·.1 == p) = none ∧ missed u) ∧
      (let due := (s.openSlot p + 32000) <<< 48
       out = none → due ≤ (s.reach due).ngt.now → Ends (.timeExchangeMissed port) s missed))

/-- DOMAIN_MISSING of a USABLE domain whose parent port is down takes a LOCKED follower (not frozen) to HOLDOVER with y at
the integrator, held to the slew limit, where neither domain is usable any more or the active one is gone and no switch
is asked for; with the active domain usable it changes the domain alone; a master of B that followed A is MASTER from
then on. HOLDOVER_BUDGET_EXPIRY with no program takes HOLDOVER to FREE once the estimate exceeds its budget, and with a
program armed to LOST. NGT_SWITCH_REQ is noted in a follower; that it is ignored in FREE and MASTER is the model's choice
(notes/assumptions/90.md). A PPS_EDGE that is not in use changes nothing, one in use sets PPS_d_OK; PPS_LOST 2 s later
clears it and records 0x0305, once. -/
def Obligations.TimeStates : Prop :=
  ∀ s : State,
    (∀ b, s.domState b ≠ 2 → Ends (.domainMissing b) s (· = s)) ∧
    (∀ b, s.domState b = 2 → ¬(s.parentOf b < 8 ∧ s.portUp (s.parentOf b) = true) →
      (s.ngtState = ngtLocked → s.fget R.ngtServoCtl F.ngtServoCtl_FREEZE = 0 → s.masterOf true = false →
        (s.domState (!b) ≠ 2 ∨ (s.activeB = b ∧ s.ngt.switchReq = false ∧ s.fget R.ngtRole F.ngtRole_AUTO_SWITCH = 0)) →
        Ends (.domainMissing b) s fun u => u.domState b = 1 ∧ u.domState (!b) = s.domState (!b) ∧ u.ngtState = ngtHold ∧
          u.ngt.y = s.slewed s.ngt.integ ∧ u.ngt.integ = s.ngt.integ ∧ u.ngt.holdStart = s.ngt.now ∧
          u = { s with regs := u.regs, ngt := u.ngt }) ∧
      (s.activeB ≠ b → s.domState (!b) = 2 → (s.masterOf true = false ∨ b = true) →
        Ends (.domainMissing b) s fun u => u.domState b = 1 ∧ u.domState (!b) = s.domState (!b) ∧
          u.ngtState = s.ngtState ∧ u.ngt.y = s.ngt.y ∧ u = { s with regs := u.regs, ngt := u.ngt }) ∧
      (b = false → s.masterOf true = true → s.fget R.ngtServoCtl F.ngtServoCtl_FREEZE = 0 → s.ngtState ≠ ngtLost →
        s.ngtState ≠ ngtFree → Ends (.domainMissing b) s fun u => u.domState false = 1 ∧ u.ngtState = ngtMaster)) ∧
    ((s.ngtState ≠ ngtHold ∨ s.fget R.ngtServoCtl F.ngtServoCtl_FREEZE = 1) → Ends .holdoverBudgetExpiry s (· = s)) ∧
    (s.ngtState = ngtHold → s.fget R.ngtServoCtl F.ngtServoCtl_FREEZE = 0 →
      s.ngt.eLast.natAbs * 1000 > s.fget R.ngtHoldover F.ngtHoldover_BUDGET_PS * 65536 →
      (s.armed = false → Ends .holdoverBudgetExpiry s fun u => u.ngtState = ngtFree ∧
        u = { s with regs := u.regs, ngt := u.ngt } ∧ u.ngt.now = s.ngt.now) ∧
      (s.armed = true → s.valid = true → s.ras.queue.length < 256 → Ends .holdoverBudgetExpiry s fun u =>
        u.ngtState = ngtLost ∧ u.prog.st = .stopping ∧ (∃ k, u.prog.stopAt = some k ∧ k ≤ s.transit + 1) ∧
        ∃ r : FaultRec, u.ras.queue = s.ras.queue ++ [r] ∧ r.code = 0x0304 ∧ r.cls = 4)) ∧
    ((s.ngtState = ngtMaster ∨ s.ngtState = ngtFree) → Ends .ngtSwitchReq s (· = s)) ∧
    (s.ngtState ≠ ngtMaster → s.ngtState ≠ ngtFree → Ends .ngtSwitchReq s fun u =>
      u = { s with ngt := { s.ngt with switchReq := true } }) ∧
    (∀ b rising stamp, s.ppsUse b = false → Ends (.ppsEdge b rising stamp) s (· = s)) ∧
    (∀ b rising stamp, s.ppsUse b = true → (s.fget R.ngtPpsCtl F.ngtPpsCtl_EDGE = 1) ≠ (rising = true) →
      s.fget R.ngtServoCtl F.ngtServoCtl_FREEZE = 1 →
      Ends (.ppsEdge b rising stamp) s fun u => u.fget R.ngtStatus (ppsOk b) = 1 ∧
        u.ngt.pps b = { since := some u.ngt.now } ∧ u.ngt.y = s.ngt.y ∧ u.ngt.integ = s.ngt.integ ∧
        s.onlyRegs [R.ngtStatus] { u with ngt := s.ngt }) ∧
    (∀ b t, (s.ngt.pps b).since = some t →
      let due := t + (2 * 10 ^ 9) <<< 48
      ((s.ppsUse b = false ∨ (s.ngt.pps b).lost = true) → Ends (.ppsLost b) s (· = s)) ∧
      (s.ppsUse b = true → (s.ngt.pps b).lost = false → due ≤ (s.reach due).ngt.now → s.ras.queue.length < 224 →
        Ends (.ppsLost b) s fun u => u.fget R.ngtStatus (ppsOk b) = 0 ∧ u.ngt.y = s.ngt.y ∧
          u.ngt.pps b = { since := some t, lost := true } ∧
          ∃ r : FaultRec, u.ras.queue = s.ras.queue ++ [r] ∧ r.code = 0x0305 ∧ r.cls = 1))

/-- TRIGGER_FIRE of a SINGLE trigger in time begins its pulse and spends it, past its instant it sets MISSED and records
0x0306. TRIGGER_PULSE_END ends the pulse. NGT_TRIG_WRITE during a pulse waits behind those that wait already; otherwise
a legal write of CTL sets its fields (a reserved MODE and a WIDTH_NS of 0 leave theirs, R244), an ineffective one changes
nothing, a write of TIME of a trigger that is not PERIODIC sets TIME. CAPTURE_EDGE of a selected edge queues stamp,
direction and SEQ, of another changes nothing, at 16 entries counts an overflow. NGT_CAPT_POP removes the head.
PTM_REQUEST_TIMER at its instant sends a request and notes its stamp. PTM_RESPONSE to a request outstanding sets ACTIVE;
one that carries the master time and the delay of the previous dialog (PRESUMED, notes/assumptions/91.md) writes the
pair. NGT_NOW_READ latches the count for its path. -/
def Obligations.TriggersCapturesAndPtm : Prop :=
  ∀ s : State,
    (∀ n : Fin 4, s.trigMode n.val = 1 → (s.trig n.val).spent = false →
      let ns := (s.reg (R.ngtTrigNTime n.val)).toNat
      let pe := (ns + s.fget (R.ngtTrigNCtl n.val) F.ngtTrigNCtl_WIDTH_NS) <<< 48
      (s.ngt.now ≤ (ns + 1) <<< 48 → ns <<< 48 ≤ (s.reach (ns <<< 48)).ngt.now →
        Ends (.triggerFire n) s fun u => u.trig n.val = { s.trig n.val with spent := true, pulseEnd := some pe } ∧
          (∀ m, m ≠ n.val → u.trig m = s.trig m) ∧ u = { s with ngt := u.ngt }) ∧
      ((ns + 1) <<< 48 < s.ngt.now → s.ras.queue.length < 224 →
        Ends (.triggerFire n) s fun u => u.trig n.val = { s.trig n.val with spent := true } ∧
          u.fget (R.ngtTrigNCtl n.val) F.ngtTrigNCtl_MISSED = 1 ∧ u.trigMode n.val = 1 ∧
          ∃ r : FaultRec, u.ras.queue = s.ras.queue ++ [r] ∧ r.code = 0x0306 ∧ r.cls = 1)) ∧
    (∀ (n : Fin 4) (e : Nat), (s.trig n.val).pulseEnd = some e → e ≤ (s.reach e).ngt.now → (s.trig n.val).pend = [] →
      Ends (.triggerPulseEnd n) s fun u => u.trig n.val = { s.trig n.val with pulseEnd := none } ∧
        (∀ m, m ≠ n.val → u.trig m = s.trig m) ∧ u = { s with ngt := u.ngt }) ∧
    (∀ (n : Fin 4) (v : Word), (s.trig n.val).pulseEnd.isSome = true →
      let waits := fun (c : Instr) (w : TrigWrite) => Ends c s fun u =>
        u = s.setTrig n.val { s.trig n.val with pend := (s.trig n.val).pend ++ [w] }
      waits (.ngtTrigWrite n true v) { ctl := some (v.toNat, 2 ^ 64 - 1) } ∧
      waits (.ngtTrigWrite n false v) { time := some (v.toNat, 2 ^ 64 - 1) }) ∧
    (∀ (n : Fin 4) (v : Word), (s.trig n.val).pulseEnd = none →
      let mode := field v.toNat 0 3
      let width := field v.toNat 16 16
      let period := field v.toNat 32 32
      (¬(mode = 2 ∧ period ≤ width) → ¬(mode ≠ 0 ∧ width = 0) →
        Ends (.ngtTrigWrite n true v) s fun u => u.trigMode n.val = (if mode ≤ 3 then mode else s.trigMode n.val) ∧
          u.fget (R.ngtTrigNCtl n.val) F.ngtTrigNCtl_WIDTH_NS =
            (if width = 0 then s.fget (R.ngtTrigNCtl n.val) F.ngtTrigNCtl_WIDTH_NS else width) ∧
          u.fget (R.ngtTrigNCtl n.val) F.ngtTrigNCtl_PERIOD_NS = period ∧
          u.fget (R.ngtTrigNCtl n.val) F.ngtTrigNCtl_POLARITY = field v.toNat 4 1) ∧
      ((mode = 2 ∧ period ≤ width ∨ mode ≠ 0 ∧ width = 0) → Ends (.ngtTrigWrite n true v) s (· = s)) ∧
      (s.trigMode n.val ≠ 2 → Ends (.ngtTrigWrite n false v) s fun u => u.reg (R.ngtTrigNTime n.val) = v ∧
        u.trigMode n.val = s.trigMode n.val)) ∧
    (∀ (n : Fin 4) (rising : Bool) (stamp : Nat),
      let c := s.capt n.val
      let e : CaptEntry := { stamp := hwStamp stamp, rising := rising, seq := c.seq }
      let sel := bit (s.fget (R.ngtCaptNCtl n.val) F.ngtCaptNCtl_EDGE) (if rising then 0 else 1)
      (sel = false → Ends (.captureEdge n rising stamp) s (· = s)) ∧
      (sel = true → c.fifo.length < 16 → Ends (.captureEdge n rising stamp) s fun u =>
        u.capt n.val = { c with seq := (c.seq + 1) % 2 ^ 16, fifo := c.fifo ++ [e] } ∧
        (∀ m, m ≠ n.val → u.capt m = s.capt m) ∧ u = { s with ngt := u.ngt }) ∧
      (sel = true → 16 ≤ c.fifo.length → Ends (.captureEdge n rising stamp) s fun u =>
        (u.capt n.val).fifo = c.fifo ∧ (u.capt n.val).seq = (c.seq + 1) % 2 ^ 16 ∧
        u.fget (R.ngtCaptNCtl n.val) F.ngtCaptNCtl_OVERFLOW =
          min (s.fget (R.ngtCaptNCtl n.val) F.ngtCaptNCtl_OVERFLOW + 1) 65535 ∧
        (c.dropSeen = true → u.ras = s.ras))) ∧
    (∀ n : Fin 4, Ends (.ngtCaptPop n) s fun u => (u.capt n.val).fifo = (s.capt n.val).fifo.tail ∧
      (u.capt n.val).seq = (s.capt n.val).seq ∧ (∀ m, m ≠ n.val → u.capt m = s.capt m) ∧ u = { s with ngt := u.ngt }) ∧
    (let per := s.fget R.ngtPtmCtl F.ngtPtmCtl_PERIOD_MS
     let due := match s.ngt.ptmLast with
       | some t => t + (per * 10 ^ 6) <<< 48
       | none => 0
     let v := s.reach due
     (s.stw.pcie.ptmOn = false ∨ per = 0 → Ends .ptmRequestTimer s (· = s)) ∧
     (s.stw.pcie.ptmOn = true → per ≠ 0 → due ≤ v.ngt.now → Ends .ptmRequestTimer s fun u =>
       u = { v with ngt := { v.ngt with ptmSent := some (hwStamp v.stamp), ptmLast := some v.ngt.now } })) ∧
    (∀ t4 : Nat, (s.ngt.ptmSent = none → ∀ x, Ends (.ptmResponse t4 x) s (· = s)) ∧
      ∀ t1, s.ngt.ptmSent = some t1 →
        (Ends (.ptmResponse t4 none) s fun u => u.fget R.ngtPtmCtl F.ngtPtmCtl_ACTIVE = 1 ∧ u.ngt.ptmSent = none ∧
          u.ngt.ptmPrev = some (t1, hwStamp t4) ∧ s.onlyRegs [R.ngtPtmCtl] { u with ngt := s.ngt }) ∧
        ∀ (p1 q4 : Nat) (master : BitVec 64) (delay : BitVec 32), s.ngt.ptmPrev = some (p1, q4) →
          Ends (.ptmResponse t4 (some (master, delay))) s fun u => u.reg R.ngtPtmHost = master ∧
            u.reg R.ngtPtmNgt = BitVec.ofNat 64 ((t1 + (q4 - p1 - delay.toNat * 65536) / 2) / 65536) ∧
            u.fget R.ngtPtmCtl F.ngtPtmCtl_ACTIVE = 1 ∧ u.ngt.ptmSent = none ∧
            u.fget R.ngtPtmCtl F.ngtPtmCtl_SEQ = (s.fget R.ngtPtmCtl F.ngtPtmCtl_SEQ + 2) % 2 ^ 16 ∧
            s.onlyRegs [R.ngtPtmCtl, R.ngtPtmHost, R.ngtPtmNgt] { u with ngt := s.ngt }) ∧
    (∀ i : Ident, i = .stw0 ∨ i = .stw1 ∨ (i = .host ∧ s.stw.pcie.mse = true) →
      Ends (.ngtNowRead i .full) s fun u => u.stw.answer.kind = .ok ∧ u.stw.answer.data = leBytes 8 s.ns ∧
        u.ngt = (if i = .host then { s.ngt with latchHost := s.ngt.now } else { s.ngt with latchStw := s.ngt.now }) ∧
        u = { s with ngt := u.ngt, stw := { s.stw with answer := u.stw.answer } })

/-- DISCOVERY_DEADLINE at its instant marks MISSING every matched-by-plan port that is not matched and drops the deadline;
before it nothing. DETOUR_PROPOSAL_TIMEOUT proposes a switch to the variant of a link end that has been down for 2 transits with no
proposal, S a detour lead ahead, to every steward of the footprint, and takes part in it; at meridian S - 2 without every ACCEPT it
cancels the switch it proposed and proposes it again. A DETOUR_PROPOSE that a steward cannot take is answered with REFUSE and its
reason; one it can take sets the flip at S and is answered with ACCEPT. DETOUR_ACCEPT and DETOUR_REFUSE of the own switch add and
remove the sender; DETOUR_CANCEL of the switch in progress ends it and its flip. NOT_ARMED of the pending start before its transit
cancels it, of another pair it is only flooded once. PORT_STATE notes the link end, and a second link of the program that it reports
DOWN stops the program; TRANSIT_FAILED of the own program marks the transit failed and, with its stop bit, stops the program from
t + 2; one of another program is flooded on the first time and dropped on a repeat. -/
def Obligations.TopologyMessages : Prop :=
  ∀ s : State,
    (∀ (t : Nat) (a : Almanac), s.top.deadline = some t → s.top.active = some a →
      ((s.reach t).ngt.now < t → Ends .discoveryDeadline s fun u => u = s.reach t) ∧
      (t ≤ (s.reach t).ngt.now → Ends .discoveryDeadline s fun u => u.top.deadline = none ∧
        (∀ p : Port, (a.farEnd s.coord p.val).isSome = true → s.matched p.val = false →
          u.fget (R.topPortNDisc p.val) F.topPortNDisc_MISSING = 1) ∧
        (∀ p : Port, s.matched p.val = true → u.fget (R.topPortNDisc p.val) F.topPortNDisc_MISSING =
          s.fget (R.topPortNDisc p.val) F.topPortNDisc_MISSING))) ∧
    (s.top.deadline = none → Ends .discoveryDeadline s (· = s)) ∧
    (s.prog.detour = none → (∀ x ∈ s.top.downs, s.transit < x.2.2 + 2) → Ends .detourProposalTimeout s (· = s)) ∧
    (∀ (x : Nat × Nat × Nat) (xs : List (Nat × Nat × Nat)), s.prog.detour = none → s.top.downs = x :: xs →
      x.2.2 + 2 ≤ s.transit → s.running = false →
      Ends .detourProposalTimeout s fun u => u = { s with top := { s.top with downs := xs } }) ∧
    (∀ (a : Almanac) (p v tf : Nat), s.top.active = some a → s.valid = true → s.transit + a.detourLead < 2 ^ 48 →
      (∃ q, q < 8 ∧ s.fabOn q = true) →
      let at' := s.transit + a.detourLead
      let far := (a.farEnd s.coord p).getD (0, 0)
      let new : Detour := { end0 := s.coord, port0 := p, end1 := far.1, port1 := far.2, variant := v,
                            tf := if v = 0 then at' else tf, s := at', pid := s.prog.hdr.programId % 2 ^ 32, proposer := true }
      let toldAll (u : State) (body : List Byte) : Prop :=
        ∀ c ∈ s.footprint, ∃ k ∈ u.stw.msgOut, k.dest = c / 2 ^ 15 * 2 ^ 15 + 0x400 ∧ k.body = body
      let proposed (u : State) : Prop := toldAll u (detourBody 4 new 0) ∧ u.prog.detour = some { new with accepts := [s.coord] } ∧
        u.prog.inactive = v ∧ u.fget R.fabEpoch F.fabEpoch_PENDING = 1 ∧ u.fget R.fabEpoch F.fabEpoch_AT_TRANSIT = at'
      (∀ t, s.prog.detour = none → s.top.downs.find? (fun x => decide (x.2.2 + 2 ≤ s.transit)) = some (p, tf, t) →
        s.variantFor s.prog.secs p = some v → s.running = true → s.prog.variant ≠ v → s.detourBar new = none →
        Ends .detourProposalTimeout s proposed) ∧
      (∀ d : Detour, s.prog.detour = some d → d.proposer = true → d.port0 = p → d.variant = v → d.tf = tf → d.s ≤ s.transit + 2 →
        s.transit < d.s → (∃ c, (c = s.coord ∨ c ∈ s.footprint) ∧ c ∉ d.accepts) → s.detourDrop.detourBar new = none →
        Ends .detourProposalTimeout s fun u => toldAll u (detourBody 7 d 0) ∧ proposed u)) ∧
    (∀ (m : RxMsg) (z : State), s.takeKind 4 = some (m, z) →
      let d := detourOf m.body
      let mine (p : Nat) : Bool := (d.end0 == z.coord && d.port0 == p) || (d.end1 == z.coord && d.port1 == p)
      (∀ r, z.detourBar d = some r → Ends .detourPropose s fun u =>
        u.stw.msgOut = z.stw.msgOut ++ [{ dest := deviceOf m.src * 2 ^ 15 / 2 ^ 15 * 2 ^ 15 + 0x400, body := detourBody 6 d r }] ∧
        u.top.downs = z.top.downs.filter (fun x => !mine x.1) ∧ u.prog = z.prog ∧ u.regs = z.regs) ∧
      (z.detourBar d = none → z.valid = true → (∃ q, q < 8 ∧ z.fabOn q = true) → Ends .detourPropose s fun u =>
        (∃ k : MsgOut, u.stw.msgOut.getLast? = some k ∧ k.body = detourBody 5 d 0 ∧
          k.dest = deviceOf m.src * 2 ^ 15 / 2 ^ 15 * 2 ^ 15 + 0x400) ∧
        u.prog.detour = some d ∧ u.prog.inactive = d.variant ∧ u.fget R.fabEpoch F.fabEpoch_PENDING = 1 ∧
        u.fget R.fabEpoch F.fabEpoch_AT_TRANSIT = d.s)) ∧
    (∀ (m : RxMsg) (z : State) (d : Detour), z.prog.detour = some d → d.proposer = true → d.s = leAt m.body 19 6 →
      d.variant = leAt m.body 11 2 → d.pid = leAt m.body 25 4 →
      let c := deviceOf m.src * 2 ^ 15 + 0x7FFF
      (s.takeKind 5 = some (m, z) → Ends .detourAccept s fun u => ∃ e : Detour, u.prog.detour = some e ∧
        (∀ k, k ∈ e.accepts ↔ k = c ∨ k ∈ d.accepts) ∧ e = { d with accepts := e.accepts } ∧
        u = { z with prog := { z.prog with detour := some e } }) ∧
      (s.takeKind 6 = some (m, z) → Ends .detourRefuse s fun u => ∃ e : Detour, u.prog.detour = some e ∧
        (∀ k, k ∈ e.accepts ↔ k ≠ c ∧ k ∈ d.accepts) ∧ e = { d with accepts := e.accepts } ∧
        u = { z with prog := { z.prog with detour := some e } }) ∧
      (s.takeKind 7 = some (m, z) → Ends .detourCancel s fun u => u.prog = { z.prog with detour := none } ∧
        u.fget R.fabEpoch F.fabEpoch_PENDING = 0 ∧ z.onlyRegs [R.fabEpoch] { u with prog := z.prog })) ∧
    (∀ (m : RxMsg) (z : State), s.takeKind 3 = some (m, z) →
      let pid := leAt m.body 1 8
      let t := leAt m.body 9 6
      (z.top.floods.contains (pid, t) = true → Ends .notArmed s (· = z)) ∧
      (z.top.floods.contains (pid, t) = false → (pid ≠ z.prog.hdr.programId ∨ z.prog.startAt ≠ t) →
        Ends .notArmed s fun u => u.top.floods = z.top.floods ++ [(pid, t)] ∧ u.prog = z.prog ∧ u.regs = z.regs) ∧
      (z.top.floods.contains (pid, t) = false → pid = z.prog.hdr.programId → z.prog.startAt = t → z.prog.startPend = true →
        z.transit < t → z.prog.st = .starting → z.fget R.clkRetune F.clkRetune_PENDING = 0 → z.ras.queue.length < 224 →
        Ends .notArmed s fun u => u.prog.st = .armed ∧ u.prog.startPend = false ∧ u.valid = false ∧
          u.top.floods = z.top.floods ++ [(pid, t)] ∧
          ∃ r : FaultRec, u.ras.queue = z.ras.queue ++ [r] ∧ r.code = 0x0804 ∧ r.cls = 1)) ∧
    (∀ (m : RxMsg) (z : State), s.takeKind 8 = some (m, z) → z.top.active = none →
      let e := deviceOf m.src * 2 ^ 15 + 0x7FFF
      let p := leAt m.body 1 1
      let noted (u : State) : Prop := ((e, p, 0) ∈ u.top.reported ↔ ¬(leAt m.body 2 1 = 2 ∧ leAt m.body 3 1 = 1)) ∧
        ∀ r ∈ z.top.reported, (r.1 ≠ e ∨ r.2.1 ≠ p) → r ∈ u.top.reported
      (¬(leAt m.body 2 1 = 4 ∧ z.secondLink e p = true) → Ends .portState s fun u => noted u ∧
        u = { z with top := { z.top with reported := u.top.reported } }) ∧
      (leAt m.body 2 1 = 4 → z.secondLink e p = true → z.valid = true → Ends .portState s fun u => noted u ∧
        u.prog.st = .stopping ∧ (∃ k, u.prog.stopAt = some k ∧ k ≤ z.transit + 1) ∧
        u = { z with top := { z.top with reported := u.top.reported }, prog := u.prog })) ∧
    (∀ (m : RxMsg) (z : State), s.takeKind 0x0B = some (m, z) →
      let t := leAt m.body 10 6
      let pair := (leAt m.body 2 8, t)
      (pair.1 ≠ z.prog.hdr.programId → pair ∈ z.prog.flooded → Ends .transitFailed s (· = z)) ∧
      (pair.1 ≠ z.prog.hdr.programId → pair ∉ z.prog.flooded → Ends .transitFailed s fun u =>
        u = ({ z with prog := { z.prog with flooded := z.prog.flooded ++ [pair] } }).flood
          (failedBody (bit (leAt m.body 1 1) 0) pair.1 t (leAt m.body 16 2)) ∧ u.regs = z.regs ∧ u.tiles = z.tiles) ∧
      (leAt m.body 2 8 = z.prog.hdr.programId → z.prog.st = .running → z.valid = true →
        (∀ d ∈ z.prog.done, ¬(d.2.1 ≤ t ∧ t ≤ d.2.2)) →
        Ends .transitFailed s fun u => t ∈ u.prog.failed ∧ (∀ k ∈ z.prog.failed, k ∈ u.prog.failed) ∧
          (bit (leAt m.body 1 1) 0 = true → u.prog.st = .stopping ∧ ∃ k, u.prog.stopAt = some k ∧ k ≤ t + 2) ∧
          (bit (leAt m.body 1 1) 0 = false → u.prog.st = .running ∧ u.prog.stopAt = z.prog.stopAt)))

/-- With meridians generated and no power failure, MERIDIAN carries NGT to exactly the next meridian, and no tag of any
tile stays DONE; a stop that is due stops the program and ends the meridians; a flip that is due, with no stop
scheduled, exchanges the table versions; a retune that is due, with no program loaded and no throttling, is in force
in every district that is not power-gated. With no meridians generated, or after a power failure, it changes nothing. -/
def Obligations.MeridianStep : Prop :=
  ∀ (s : State) (x : Meas),
    ((s.nextMeridian = none ∨ s.enr.failed = true) → Ends (.meridian x) s (· = s)) ∧
    (∀ m, s.nextMeridian = some m → s.enr.failed = false →
      (Ends (.meridian x) s fun u => u.ngt.now = m ∧
        ∀ p tag, (tget {} (u.tile p).tags tag).st ≠ .done) ∧
      (∀ k, s.prog.stopAt = some k → k ≤ s.transit + 1 → s.armed = true → Ends (.meridian x) s fun u =>
        (u.prog.st = .loaded ∨ u.prog.st = .none) ∧ u.valid = false ∧
        ∀ q : Port, u.fget (R.fabCtl q.val) F.fabCtl_ENABLE = 0) ∧
      (s.fget R.fabEpoch F.fabEpoch_PENDING = 1 → s.fget R.fabEpoch F.fabEpoch_AT_TRANSIT ≤ s.transit + 1 → s.prog.stopAt = none →
        Ends (.meridian x) s fun u => u.fget R.fabEpoch F.fabEpoch_ACTIVE = 1 - s.fget R.fabEpoch F.fabEpoch_ACTIVE ∧
          u.fget R.fabEpoch F.fabEpoch_PENDING = 0 ∧ u.fget R.fabEpoch F.fabEpoch_DRAINED = 0 ∧
          u.prog.variant = s.prog.inactive ∧ u.prog.inactive = s.prog.variant) ∧
      (s.fget R.clkRetune F.clkRetune_PENDING = 1 → s.fget R.clkRetune F.clkRetune_AT_TRANSIT ≤ s.transit + 1 →
        s.prog.st = .none → s.enr.hot = false →
        Ends (.meridian x) s fun u => u.fget R.clkRetune F.clkRetune_PENDING = 0 ∧
          ∀ d : District, u.clkState d.val ≠ clkGated →
            u.fget (R.clkStatus d.val) F.clkStatus_SETTING = s.fget R.clkRetune F.clkRetune_SETTING))

/-- FREE_INTERVAL_CLOSE without meridians adds each meter to its total, shows its energy, the interval number and KIND 1,
and reaches the interval end; with meridians it changes nothing. THERMAL_SAMPLE shows the hottest junction and stack
and doubles refresh above 85 degrees; at 115 degrees THERMTRIP is asserted and 0x0B04 recorded. THERMAL_RELEASE_STEP
raises the cap by one 1 s after cooling, and changes nothing while the device is not cool. -/
def Obligations.EnergyAndTemperature : Prop :=
  ∀ s : State,
    (∀ x : Meas, (s.valid = true ∨ s.enr.failed = true) → Ends (.freeIntervalClose x) s (· = s)) ∧
    (∀ x : Meas, s.valid = false → s.enr.failed = false → Ends (.freeIntervalClose x) s fun u =>
      (∀ m, m < 12 → u.reg (R.enrRailMTotal m) = s.reg (R.enrRailMTotal m) + BitVec.ofNat 64 (ujOf x m) ∧
        u.fget (R.enrRailMLast m) F.enrRailMLast_UJ = min (ujOf x m) (2 ^ 32 - 1) ∧
        u.fget (R.enrRailMLast m) F.enrRailMLast_MAX_MW = min (x.mw.getD m 0) (2 ^ 32 - 1)) ∧
      u.fget R.enrInterval F.enrInterval_KIND = 1 ∧ u.fget R.enrInterval F.enrInterval_INDEX = s.ns / 8192 % 2 ^ 48 ∧
      u.ngt.now = ((s.ns / 8192 + 1) * 8192) <<< 48 ∧ u.tiles = s.tiles ∧ u.links = s.links ∧ u.hbm = s.hbm) ∧
    (∀ t : Temps, s.enr.failed = true → Ends (.thermalSample t) s (· = s)) ∧
    (∀ t : Temps, s.enr.failed = false → hottest (junctions t) < 115 →
      (hottest (junctions t) : Int) < s.fget R.pwrThermCtl F.pwrThermCtl_LIMIT_C →
      Ends (.thermalSample t) s fun u =>
        u.fget R.pwrTherm F.pwrTherm_TJ_MAX_C = ofSigned 8 (clampI (-128) 127 (hottest (junctions t))) ∧
        u.fget R.pwrTherm F.pwrTherm_HBM_MAX_C = ofSigned 8 (clampI (-128) 127 (hottest t.hbmStacks)) ∧
        (∀ h : Stack, u.fget (R.hbmStatus h.val) F.hbmStatus_REFRESH_2X = b2n (decide (85 < t.hbmStacks.getD h.val 0))) ∧
        u.fget R.pwrTherm F.pwrTherm_CAP = s.fget R.pwrTherm F.pwrTherm_CAP ∧ u.ras = s.ras ∧ u.pins = s.pins ∧
        u = { s with regs := u.regs, enr := u.enr }) ∧
    (∀ t : Temps, s.enr.failed = false → 115 ≤ hottest (junctions t) → s.pins.thermtrip = false → s.ras.queue.length < 200 →
      Ends (.thermalSample t) s fun u => u.pins.thermtrip = true ∧ u.fget R.pwrRailStatus F.pwrRailStatus_THERMTRIP = 1 ∧
        ∃ r ∈ u.ras.queue, r.code = 0x0B04 ∧ r.cls = 5) ∧
    (s.enr.coolSince = none → Ends .thermalReleaseStep s (· = s)) ∧
    (∀ t, s.enr.coolSince = some t →
      let due := t + (10 ^ 9) <<< 48
      ((s.reach due).ngt.now < due → Ends .thermalReleaseStep s fun u => u = s.reach due) ∧
      (due ≤ (s.reach due).ngt.now → s.enr.capHold = false → s.fget R.pwrTherm F.pwrTherm_CAP < 42 →
        Ends .thermalReleaseStep s fun u => u.fget R.pwrTherm F.pwrTherm_CAP = s.fget R.pwrTherm F.pwrTherm_CAP + 1 ∧
          u.enr.coolSince = some due ∧ u.tiles = s.tiles ∧ u.links = s.links))

/-- RAIL_FAULT clears the GOOD bit of the rail; of any rail but VKEEP it also records 0x0B07 and begins the power failure.
POWER_FAIL asserts PWRFAIL, records 0x0B05 of class 5, halts every running tile, closes with LEAVING the gates of
powered ports, loses HBM, closes the open energy interval, and begins the save of the ledgers, time and log where READY was reached and no complete
save is held. SAVE_COMPLETE completes the save in progress and takes the device to ROM with its endpoint reset. A
second POWER_FAIL changes nothing. -/
def Obligations.PowerFailure : Prop :=
  ∀ s : State,
    (∀ (rail : Fin 11) (x : Meas),
      let bits := s.fget R.pwrRailStatus F.pwrRailStatus_GOOD
      (rail.val = 10 ∨ s.enr.failed = true → Ends (.railFault rail x) s fun u =>
        u.fget R.pwrRailStatus F.pwrRailStatus_GOOD = (if bits.testBit rail.val then bits - 2 ^ rail.val else bits) ∧
        s.onlyRegs [R.pwrRailStatus] u) ∧
      (rail.val ≠ 10 → s.enr.failed = false → s.ras.queue.length < 200 → Ends (.railFault rail x) s fun u =>
        u.enr.failed = true ∧ (u.fget R.pwrRailStatus F.pwrRailStatus_GOOD).testBit rail.val = false ∧
        u.fget R.pwrRailStatus F.pwrRailStatus_PWRFAIL = 1 ∧
        ∃ a b : FaultRec, u.ras.queue = s.ras.queue ++ [a, b] ∧ a.code = 0x0B07 ∧ b.code = 0x0B05)) ∧
    (∀ (x : Meas) (v : BitVec 16), s.enr.failed = true → Ends (.powerFail x v) s (· = s)) ∧
    (∀ (x : Meas) (v : BitVec 16), s.enr.failed = false → s.ras.queue.length < 256 → Ends (.powerFail x v) s fun u =>
      u.enr.failed = true ∧ u.pins.pwrfail = true ∧ u.fget R.pwrRailStatus F.pwrRailStatus_PWRFAIL = 1 ∧
      (∃ r : FaultRec, u.ras.queue = s.ras.queue ++ [r] ∧ r.code = 0x0B05 ∧ r.cls = 5) ∧
      u.ras.contained = true ∧ u.fget R.devStatus F.devStatus_STATE = 4 ∧
      (∀ p, (u.tile p).issue.status ≠ .running ∧ (u.tile p).issue.status ≠ .tendWait ∧ (u.tile p).issue.status ≠ .qwaitStall) ∧
      (∀ q : Port, (s.link q.val).st ≠ .disabled → (u.link q.val).gate = .leaving) ∧
      (∀ h : Stack, u.fget (R.hbmStatus h.val) F.hbmStatus_STATE = 0) ∧
      u.fget R.enrInterval F.enrInterval_KIND = b2n (!s.valid) ∧
      (∀ k, k < 12 → u.reg (R.enrRailMTotal k) = s.reg (R.enrRailMTotal k) + BitVec.ofNat 64 (ujOf x k)) ∧
      ((s.enr.readySeen = false ∨ s.enr.save.st = 2) → u.enr.save = s.enr.save) ∧
      (s.enr.readySeen = true → s.enr.save.st ≠ 2 → u.enr.save.st = 1 ∧ u.enr.save.ngt = s.ngt.now ∧
        u.enr.save.vkeepStart = v.toNat ∧ u.enr.save.log = u.ras.queue ∧ u.enr.save.epochId = s.reg R.ngtEpochId)) ∧
    (∀ us v : BitVec 16, (s.enr.failed = false ∨ s.enr.saved = true) → Ends (.saveComplete us v) s (· = s)) ∧
    (∀ us v : BitVec 16, s.enr.failed = true → s.enr.saved = false → Ends (.saveComplete us v) s fun u =>
      u.enr.saved = true ∧ u.fget R.devStatus F.devStatus_STATE = 0 ∧ u.stw.pcie = {} ∧
      (s.enr.save.st = 1 → u.enr.save = { s.enr.save with st := 2, digestOk := true, us := us.toNat, vkeepEnd := v.toNat }) ∧
      (s.enr.save.st ≠ 1 → u.enr.save = s.enr.save) ∧ u.fget R.pwrVkeep F.pwrVkeep_NOW_MV = v.toNat ∧
      u.fget R.pwrVkeep F.pwrVkeep_MIN_MV = min v.toNat (s.fget R.pwrVkeep F.pwrVkeep_MIN_MV) ∧
      s.onlyRegs [R.devStatus, R.pwrVkeep] { u with enr := s.enr, stw := s.stw })

/-- FAULT_RECORD_DRAIN of a ready device moves the head record to the end of the log under the next index, and does
nothing on an empty queue; a slot whose SRAM errors ask for it is then to be retired, where AUTO_RETIRE is 1, at the transit R526
gives. RAS_LOG_POP drops the head. RAS_CAPO_PEND_WRITE with no change pending sets slot, VALID and AT_TRANSIT, otherwise nothing.
SRAM_SCRUB_STEP with a period counts a pass at its last row; a corrected error queues 0x0C05, an uncorrectable one of an unpoisoned
tile-store word queues 0x0C06 and poisons the word; words errors have struck meanwhile are held until they are read (log 19).
SRAM_ROW_SUBSTITUTE
of a row that is due with a spare row left moves it once and queues 0x0C07, otherwise nothing. -/
def Obligations.FaultQueueAndRepair : Prop :=
  ∀ s : State,
    (s.ras.queue = [] → s.ras.due = [] → Ends .faultRecordDrain s (· = s)) ∧
    (∀ p t, s.ras.queue = [] → s.ras.due = [p] → s.valid = true → s.fget R.rasCtl F.rasCtl_AUTO_RETIRE = 1 →
      let o := R.rasCapoDPend (districtOf p)
      s.fget o F.rasCapoDPend_VALID = 0 → s.retireWhen (districtOf p) (p % 17) 0 = .ok (some t) →
      Ends .faultRecordDrain s fun u => u.fget o F.rasCapoDPend_SLOT = p % 17 ∧ u.fget o F.rasCapoDPend_VALID = 1 ∧
        u.fget o F.rasCapoDPend_AT_TRANSIT = t % 2 ^ 48 ∧ s.onlyRegs [o] { u with ras := s.ras } ∧
        u.ras = { s.ras with due := [] }) ∧
    (∀ r rs, s.ras.queue = r :: rs → s.ras.due = [] → 2 ≤ s.fget R.devStatus F.devStatus_STATE → s.ras.log.length < logSize →
      Ends .faultRecordDrain s fun u => u.ras.queue = rs ∧ u.ras.log = s.ras.log ++ [{ r with index := s.ras.nextIndex }] ∧
        u.ras.nextIndex = s.ras.nextIndex + 1 ∧ u.fget R.devEvent F.devEvent_FAULT_LOGGED = 1 ∧ u.tiles = s.tiles ∧ u.hbm = s.hbm) ∧
    Ends .rasLogPop s (fun u => u = { s with ras := { s.ras with queue := s.ras.queue.tail } }) ∧
    (∀ (d : District) (v : Word),
      let o := R.rasCapoDPend d.val
      (s.fget o F.rasCapoDPend_VALID = 1 → Ends (.rasCapoPendWrite d v) s (· = s)) ∧
      (s.fget o F.rasCapoDPend_VALID = 0 → Ends (.rasCapoPendWrite d v) s fun u => s.onlyRegs [o] u ∧
        (field v.toNat 0 5 ≤ 16 → u.fget o F.rasCapoDPend_SLOT = field v.toNat 0 5) ∧
        (16 < field v.toNat 0 5 → u.fget o F.rasCapoDPend_SLOT = s.fget o F.rasCapoDPend_SLOT) ∧
        u.fget o F.rasCapoDPend_VALID = field v.toNat 15 1 ∧ u.fget o F.rasCapoDPend_AT_TRANSIT = field v.toNat 16 48)) ∧
    (∀ (e : Option SramErr) (x : ScrubStep), s.fget R.rasScrubCtl F.rasScrubCtl_PERIOD_S = 0 → Ends (.sramScrubStep e x) s fun u =>
      u = { s with ras := { s.ras with latent := s.ras.latent ++ x.struck } }) ∧
    (s.fget R.rasScrubCtl F.rasScrubCtl_PERIOD_S ≠ 0 → ∀ xs : List SramErr,
      let on : ScrubStep := { last := false, struck := xs }
      (Ends (.sramScrubStep none on) s fun u => u = { s with ras := { s.ras with latent := s.ras.latent ++ xs } }) ∧
      (Ends (.sramScrubStep none { last := true, struck := xs }) s fun u =>
        s.onlyRegs [R.rasScrubCtl] { u with ras := s.ras } ∧ u.ras = { s.ras with latent := s.ras.latent ++ xs } ∧
        u.fget R.rasScrubCtl F.rasScrubCtl_PASSES =
          (s.fget R.rasScrubCtl F.rasScrubCtl_PASSES + 1) % 2 ^ F.rasScrubCtl_PASSES.len ∧
        u.fget R.rasScrubCtl F.rasScrubCtl_PERIOD_S = s.fget R.rasScrubCtl F.rasScrubCtl_PERIOD_S) ∧
      (∀ e : SramErr, s.ras.queue.length < 200 →
        (e.bad = false → Ends (.sramScrubStep (some e) on) s fun u =>
          ∃ r rest, u.ras.queue = s.ras.queue ++ r :: rest ∧ r.code = 0x0C05 ∧ r.cls = 1) ∧
        (e.bad = true → e.array = 0 → shas (s.tile e.unit).storePoison (sramByte e / 8) = false →
          Ends (.sramScrubStep (some e) on) s fun u =>
            (∃ r rest, u.ras.queue = s.ras.queue ++ r :: rest ∧ r.code = 0x0C06 ∧ r.cls = 2 ∧ r.ptile = e.unit) ∧
            shas (u.tile e.unit).storePoison (sramByte e / 8) = true))) ∧
    (∀ e : SramErr,
      let h := s.sramRow e
      let due := h.ue = true ∨ s.fget R.rasCtl F.rasCtl_CE_ROW_THRESH ≤ h.ces.length
      ((¬due ∨ 2 ≤ s.sparesUsed e) → Ends (.sramRowSubstitute e) s (· = s)) ∧
      (due → s.sparesUsed e < 2 → s.ras.queue.length < 200 → Ends (.sramRowSubstitute e) s fun u =>
        (∃ r rest, u.ras.queue = s.ras.queue ++ r :: rest ∧ r.code = 0x0C07 ∧ rest.length ≤ 1) ∧
        (u.sramRow e).moved = h.moved + 1 ∧ (u.sramRow e).ue = false ∧ (u.sramRow e).ces = [] ∧
        u = { s with ras := u.ras }))

/-- STREAM_SEND of a request on a stream that is OFF ends it with 0x0300 and sends nothing; on an OPEN stream with room it
joins the output queue of its route, is numbered and charged, beyond the window it waits; a response joins it uncharged on any
stream. CREDIT_TIMER and STREAM_TIMEOUT at their instants send CREDIT and restart the probe timer, and a response overdue ends its
operation. RESIDENCE_TIMEOUT discards the packet held longest, once it is held too long, and records 0x0603. SERVICE_PACKET_FORWARD
discards a malformed packet with 0x0601 and queues a good transit packet at its output with HOP one higher, a data packet sealed
again. STREAM_GRANT_WRITE and STREAM_RESET_WRITE set and clear a context, COUNTER_ARM and COUNTER_CLEAR a counter. -/
def Obligations.ServiceStreams : Prop :=
  ∀ (s : State) (n : Fin 16384),
    let c := s.ctx n.val
    (∀ r : SendReq, (SH.planeOf r.op).isSome = true → SH.isRsp (s.reqPkt n.val r).flit.toNat = false →
      let f := (s.reqPkt n.val r).flit.toNat
      (c.tx = .off → Ends (.streamSend n r) s fun u =>
        u = { s with svc := { s.svc with ended := s.svc.ended ++ [(n.val, r.tag, 0x0300)] } }) ∧
      (∀ d ridx route, s.resolve (SH.dest f) = some d → c.tx = .opened → c.waiting = [] → c.outstanding + costOf f ≤ c.window →
        (c.next + 2 ^ 16 - c.base) % 2 ^ 16 < 64 → s.pickRoute n.val = some (ridx, route) →
        heldFlits (s.outQ (route % 16)) (fun g => !SH.isRsp g) + SH.flits f ≤ 65536 →
        Ends (.streamSend n r) s fun u => (∃ h : SvcHeld, u.outQ (route % 16) = s.outQ (route % 16) ++ [h] ∧ h.src = 8 ∧
            SH.op h.pkt.flit.toNat = SH.op f ∧ SH.dest h.pkt.flit.toNat = d ∧ SH.sseq h.pkt.flit.toNat = c.next % 2 ^ 16 ∧
            SH.hop h.pkt.flit.toNat = 1 ∧ h.pkt.body = (s.reqPkt n.val r).body) ∧
          (u.ctx n.val).outstanding = c.outstanding + costOf f ∧ (u.ctx n.val).next = (c.next + 1) % 2 ^ 16 ∧
          (u.ctx n.val).waiting = [] ∧ (∀ m, m ≠ n.val → u.ctx m = s.ctx m) ∧ u.hbm = s.hbm ∧ u.tiles = s.tiles) ∧
      (c.tx = .opened → (s.resolve (SH.dest f)).isSome = true → c.waiting = [] → c.window < c.outstanding + costOf f →
        Ends (.streamSend n r) s fun u => (∃ w : Waiting, (u.ctx n.val).waiting = [w] ∧ w.tag = r.tag ∧
            SH.op w.pkt.flit.toNat = SH.op f ∧ w.pkt.body = (s.reqPkt n.val r).body) ∧
          (u.ctx n.val).outstanding = c.outstanding ∧ u.svc.txq = s.svc.txq ∧ (∀ m, m ≠ n.val → u.ctx m = s.ctx m))) ∧
    (∀ (r : SendReq) (d ridx route : Nat), (SH.planeOf r.op).isSome = true → SH.isRsp (s.reqPkt n.val r).flit.toNat = true →
      let f := (s.reqPkt n.val r).flit.toNat
      s.resolve (SH.dest f) = some d → c.waiting = [] → s.pickRoute n.val = some (ridx, route) →
      heldFlits (s.outQ (route % 16)) SH.isRsp + SH.flits f ≤ 65536 →
      Ends (.streamSend n r) s fun u => (∃ h : SvcHeld, u.outQ (route % 16) = s.outQ (route % 16) ++ [h] ∧
          SH.op h.pkt.flit.toNat = SH.op f ∧ SH.dest h.pkt.flit.toNat = d) ∧
        (u.ctx n.val).outstanding = c.outstanding ∧ (u.ctx n.val).next = c.next ∧ (u.ctx n.val).waiting = []) ∧
    (c.creditDue = none → Ends (.creditTimer n) s (· = s)) ∧
    (∀ t, c.creditDue = some t → t ≤ (s.reach t).ngt.now → Ends (.creditTimer n) s fun u =>
      (u.ctx n.val).creditDue = none ∧ (u.ctx n.val).credited = c.rxReleased ∧ (u.ctx n.val).held = c.held) ∧
    (c.flight = [] → (∀ a ∈ s.svc.awaits, a.stream ≠ n.val) → Ends (.streamTimeout n) s (· = s)) ∧
    (c.flight ≠ [] → (∀ a ∈ s.svc.awaits, a.stream ≠ n.val) →
      c.baseSince + s.streamTimeout ≤ (s.reach (c.baseSince + s.streamTimeout)).ngt.now →
      Ends (.streamTimeout n) s fun u => (u.ctx n.val).baseSince = u.ngt.now ∧
        ∃ more, (u.ctx n.val).flight = c.flight ++ more) ∧
    (∀ a : Await, s.svc.awaits.filter (fun x => x.stream == n.val) = [a] → c.flight = [] → (∀ t q, a.owner ≠ .mqe t q) →
      let v := s.reach (a.issued + s.streamTimeout)
      a.issued + s.streamTimeout ≤ v.ngt.now → Ends (.streamTimeout n) s fun u =>
        u = { v with svc := { v.svc with awaits := v.svc.awaits.erase a, ended := v.svc.ended ++ [(n.val, a.tag, 0x0400)] } }) ∧
    (∀ port : Port, (s.outQ port.val = [] → Ends (.residenceTimeout port) s (· = s)) ∧
      (∀ (pre post : List SvcHeld) (h : SvcHeld), s.outQ port.val = pre ++ h :: post → (∀ x ∈ pre, h.since < x.since) →
        (∀ x ∈ post, h.since ≤ x.since) →
        let due := h.since + (s.fget R.svcCtl F.svcCtl_MAX_RESIDENCE_US * 1000) <<< 48 + 1
        ((s.reach due).ngt.now < due → Ends (.residenceTimeout port) s fun u => u = s.reach due) ∧
        (due ≤ (s.reach due).ngt.now → s.ras.queue.length < 224 → Ends (.residenceTimeout port) s fun u =>
          u.outQ port.val = pre ++ post ∧ (∀ q, q ≠ port.val → u.outQ q = s.outQ q) ∧
          u.fget (R.svcPortNEvents port.val) F.svcPortNEvents_DISCARDS =
            min (s.fget (R.svcPortNEvents port.val) F.svcPortNEvents_DISCARDS + 1) 65535 ∧
          ∃ r : FaultRec, u.ras.queue = s.ras.queue ++ [r] ∧ r.code = 0x0603 ∧ r.cls = 1)) ∧
      ((s.link port.val).rxSvc = [] → Ends (.servicePacketForward port) s (· = s)) ∧
      (∀ (pk : SvcPkt) (rest : List SvcPkt), (s.link port.val).rxSvc = pk :: rest →
        let out := svcEntry pk.flit.toNat
        (s.svcMalformed port.val pk = true → s.ras.queue.length < 224 → Ends (.servicePacketForward port) s fun u =>
          (u.link port.val).rxSvc = rest ∧ u.svc = s.svc ∧
          ∃ r : FaultRec, u.ras.queue = s.ras.queue ++ [r] ∧ r.code = 0x0601 ∧ r.cls = 1) ∧
        (s.svcMalformed port.val pk = false → out = 8 → pk.stomped = true → Ends (.servicePacketForward port) s fun u =>
          (u.link port.val).rxSvc = rest ∧ u.svc = s.svc ∧ u.ras = s.ras ∧ u.regs = s.regs) ∧
        (s.svcMalformed port.val pk = false → out ≠ 8 → s.svcTakes out = true →
          heldFlits (s.outQ out) (fun g => SH.isRsp g == SH.isRsp pk.flit.toNat) + SH.flits pk.flit.toNat ≤ 65536 →
          Ends (.servicePacketForward port) s fun u => (u.link port.val).rxSvc = rest ∧
            (∃ h : SvcHeld, u.outQ out = s.outQ out ++ [h] ∧ h.src = port.val ∧
              SH.hop h.pkt.flit.toNat = SH.hop pk.flit.toNat + 1 ∧ SH.dest h.pkt.flit.toNat = SH.dest pk.flit.toNat ∧
              SH.ctl h.pkt.flit.toNat % 2 ^ 288 = SH.ctl pk.flit.toNat % 2 ^ 288 ∧ h.pkt.body = pk.body ∧
              h.pkt.stomped = pk.stomped ∧ (0 < SH.hop pk.flit.toNat → hRoute h.pkt.flit.toNat (SH.hop pk.flit.toNat - 1) = port.val) ∧
              (hPlane pk.flit.toNat = 1 → SH.ctl h.pkt.flit.toNat = SH.ctl pk.flit.toNat) ∧
              (hPlane pk.flit.toNat = 2 → hcrcOk h.pkt.flit.toNat = true)) ∧
            (∀ q, q ≠ out → u.outQ q = s.outQ q) ∧ u.ras = s.ras))) ∧
    (∀ v : Word, let w := field v.toNat 48 16
      v.getLsbD 3 = false → Ends (.streamGrantWrite n v) s fun u => s.onlyRegs [R.svcSctxNRx n.val] u ∧
        u.fget (R.svcSctxNRx n.val) F.svcSctxNRx_RX_WINDOW =
          if w < s.fget (R.svcSctxNRx n.val) F.svcSctxNRx_RX_WINDOW ∧ c.held ≠ 0 then
            s.fget (R.svcSctxNRx n.val) F.svcSctxNRx_RX_WINDOW else w) ∧
    (∀ v : Word, let w := field v.toNat 48 16
      v.getLsbD 3 = true → c.held = 0 → Ends (.streamGrantWrite n v) s fun u => (u.ctx n.val).rxOn = decide (w ≠ 0) ∧
        (w ≠ 0 → (u.ctx n.val).granted = if c.rxOn then max c.granted w else w) ∧
        u.fget (R.svcSctxNRx n.val) F.svcSctxNRx_RX_WINDOW = w) ∧
    ((c.outstanding ≠ 0 ∨ c.held ≠ 0) → Ends (.streamResetWrite n) s (· = s)) ∧
    (c.outstanding = 0 → c.held = 0 → (∀ w ∈ c.waiting, SH.isRsp w.pkt.flit.toNat = false ∧ ∀ t q, w.owner ≠ .mqe t q) →
      Ends (.streamResetWrite n) s fun u => u.ctx n.val = {} ∧ (∀ m, m ≠ n.val → u.ctx m = s.ctx m) ∧
        u.fget (R.svcSctxNRx n.val) F.svcSctxNRx_FENCED = 0 ∧ s.onlyRegs [R.svcSctxNRx n.val] { u with svc := s.svc } ∧
        u.svc = { s.svc with ctx := u.svc.ctx, ended := s.svc.ended ++ c.waiting.map fun w => (n.val, w.tag, 0x0300) }) ∧
    (∀ (k : Fin 4096) (v : Word),
      let o := R.svcCcntN k.val
      let count := s.fget o F.svcCcntN_COUNT
      let total := if v.getLsbD 58 then field v.toNat 32 26 else s.fget o F.svcCcntN_TOTAL
      let set := v.getLsbD 58 = true ∨ s.fget o F.svcCcntN_TOTAL_SET = 1
      (Ends (.counterClear k) s fun u => u.reg o = regReset o ∧ tget 0 u.svc.puts k.val = 0 ∧
        s.onlyRegs [o] { u with svc := s.svc } ∧ u.svc = { s.svc with puts := u.svc.puts }) ∧
      (v.getLsbD 60 = false → s.ccntBroken k.val = none → Ends (.counterArm k v) s (· = s)) ∧
      (v.getLsbD 60 = true → tget 0 s.svc.puts k.val = count →
        (¬(set ∧ total < count) → Ends (.counterArm k v) s fun u => u.fget o F.svcCcntN_TOTAL = total ∧
          (u.fget o F.svcCcntN_TOTAL_SET = 1 ↔ set) ∧ u.fget o F.svcCcntN_COUNT = count ∧
          (set → count = total → u.fget o F.svcCcntN_STATE = 2 ∧ u.svc.interrupts = s.svc.interrupts + 1) ∧
          (¬(set ∧ count = total) → u.fget o F.svcCcntN_STATE = 1 ∧ u.svc = s.svc) ∧ u.ras = s.ras) ∧
        (set → total < count → s.stopsLater → s.ras.queue.length < 256 → Ends (.counterArm k v) s fun u =>
          u.fget o F.svcCcntN_STATE = 1 ∧
          ∃ r : FaultRec, u.ras.queue = s.ras.queue ++ [r] ∧ r.code = 0x0608 ∧ r.cls = 4)))

/-- For a packet that has reached this device and is in sequence and within its window: LOAD answers LOAD_DATA with the
bytes and leaves HBM, STORE writes exactly its bytes and answers STORE_ACK, a failing one answers its status and
changes no memory; ATOMIC writes the new value and answers the old; PUT in range writes exactly its bytes and counts
one arrival, out of range it is discarded; MSG joins the receive queue of the steward. A duplicate is only counted.
LOAD_DATA, STORE_ACK and ATOMIC_RSP settle the awaited request of their unit, stream and TAG: the steward holds the result, the
data of a DMA channel land in its transfer's destination, an MQE's piece is no longer awaited or its operation fails; one that
nobody awaits is dropped. With no such packet each command changes nothing. -/
def Obligations.RemoteMemory : Prop :=
  ∀ (s : State) (port : Port),
    let acts : List (Nat × Instr) := [(1, .svcLoad port []), (2, .svcStore port), (3, .svcAtomic port []), (4, .svcPut port),
      (5, .svcMsg port), (0x81, .svcLoadData port), (0x82, .svcStoreAck port), (0x83, .svcAtomicRsp port), (0x90, .svcCredit port),
      (0x91, .svcGrant port), (0x92, .svcProbe port), (0x93, .svcProbeRsp port)]
    (∀ a ∈ acts, s.takeOp port.val a.1 = none → (a.1 = 0x92 → s.sec.fetches = []) → Ends a.2 s (· = s)) ∧
    (∀ a ∈ acts, a.1 ≤ 3 → ∀ pk z, s.takeOp port.val a.1 = some (pk, z) →
      (z.ctx (SH.stream pk.flit.toNat)).rxMap.any (·.seq == SH.sseq pk.flit.toNat) = true →
      Ends a.2 s fun u => u.hbm = s.hbm ∧ (∀ q, u.outQ q = z.outQ q) ∧
        (u.ctx (SH.stream pk.flit.toNat)).dups = (z.ctx (SH.stream pk.flit.toNat)).dups + 1) ∧
    (∀ pk z, s.takeOp port.val 1 = some (pk, z) →
      let f := pk.flit.toNat
      let off := field (SH.ctl f) 0 48
      let len := field (SH.ctl f) 48 16
      let st := z.accessStatus f off len false
      z.takes f → z.answerable f → Ends (.svcLoad port []) s fun u => u.hbm = s.hbm ∧
        z.reply u f 0x81 st (if st = 0 then z.hbmBytes off len else List.replicate 64 0#8)) ∧
    (∀ pk z, s.takeOp port.val 2 = some (pk, z) →
      let f := pk.flit.toNat
      let off := SH.addr f
      let len := 64 * SH.len f
      let st := z.accessStatus f off len false
      z.takes f → z.answerable f →
      (st ≠ 0 → Ends (.svcStore port) s fun u => u.hbm = s.hbm ∧ u.hbmPoison = s.hbmPoison ∧ z.reply u f 0x82 st []) ∧
      (st = 0 → pk.body.length = len → Ends (.svcStore port) s fun u => z.reply u f 0x82 0 [] ∧
        ∀ a, Mem.rd u.hbm a = if off ≤ a ∧ a < off + len then pk.body.getD (a - off) 0 else Mem.rd s.hbm a)) ∧
    (∀ pk z, s.takeOp port.val 3 = some (pk, z) →
      let f := pk.flit.toNat
      let off := field (SH.ctl f) 0 48
      let st := z.accessStatus f off 8 true
      z.takes f → z.answerable f →
      (st ≠ 0 → Ends (.svcAtomic port []) s fun u => u.hbm = s.hbm ∧ z.reply u f 0x83 st []) ∧
      (∀ v, st = 0 → z.hbmBad off 8 = false →
        atomicNew (field (SH.ctl f) 48 8) (leNat (z.hbmBytes off 8)) (field (SH.ctl f) 64 64) (field (SH.ctl f) 128 64) = some v →
        Ends (.svcAtomic port []) s fun u => z.reply u f 0x83 0 [] ∧
          ∀ a, Mem.rd u.hbm a = if off ≤ a ∧ a < off + 8 then (leBytes 8 v).getD (a - off) 0 else Mem.rd s.hbm a)) ∧
    (∀ pk z, s.takeOp port.val 4 = some (pk, z) →
      let f := pk.flit.toNat
      let n := SH.stream f
      let len := 64 * SH.len f
      let lim := 65536 * z.fget (R.svcSctxNRxbuf n) F.svcSctxNRxbuf_LIMIT_64K
      let base := (z.fget (R.svcSctxNRxbuf n) F.svcSctxNRxbuf_BASE + SH.addr f) % 2 ^ 40
      let cnt := R.svcCcntN (SH.xfer f)
      unitOf (SH.dest f) = 0x400 →
      (lim < SH.addr f + len → Ends (.svcPut port) s fun u => u.hbm = s.hbm ∧ u.svc.ctx = s.svc.ctx ∧
        ∀ m, m < 4096 → u.reg (R.svcCcntN m) = s.reg (R.svcCcntN m)) ∧
      (z.takes f → SH.addr f % 64 = 0 → SH.addr f + len ≤ lim → pk.body.length = len → base % 64 = 0 →
        SH.last f = false → s.fget cnt F.svcCcntN_TOTAL_SET = 0 → s.fget cnt F.svcCcntN_STATE ≠ 2 →
        tget 0 s.svc.puts (SH.xfer f) = s.fget cnt F.svcCcntN_COUNT → Ends (.svcPut port) s fun u =>
          u.fget cnt F.svcCcntN_COUNT = (s.fget cnt F.svcCcntN_COUNT + 1) % 2 ^ 26 ∧
          ∀ a, Mem.rd u.hbm a = if base ≤ a ∧ a < base + len then pk.body.getD (a - base) 0 else Mem.rd s.hbm a)) ∧
    (∀ pk z, s.takeOp port.val 5 = some (pk, z) → z.takes pk.flit.toNat →
      let f := pk.flit.toNat
      let un := unitOf (SH.dest f)
      (un = 0x400 ∨ un = 0x401 ∨ (0x410 ≤ un ∧ un ≤ 0x417) ∨ un = 0x7FFF) →
      Ends (.svcMsg port) s fun u => (∃ m : RxMsg, u.svc.stwRx = s.svc.stwRx ++ [m] ∧ m.src = SH.src f ∧ m.unit = un ∧
        m.body = (leBytes 40 (SH.ctl f / 2 ^ 16)).take (field (SH.ctl f) 0 16)) ∧ u.hbm = s.hbm) ∧
    (∀ a ∈ acts, a.1 = 0x81 ∨ a.1 = 0x82 ∨ a.1 = 0x83 → ∀ pk z, s.takeOp port.val a.1 = some (pk, z) →
      rspUnit (unitOf (SH.dest pk.flit.toNat)) = true →
      let f := pk.flit.toNat
      let tag := if a.1 = 0x81 then SH.tag f else field (SH.ctl f) 0 32
      let bytes : List Byte := if a.1 = 0x81 then pk.body else if a.1 = 0x82 then [] else leBytes 8 (field (SH.ctl f) 64 64)
      (z.awaited f tag = none → Ends a.2 s (· = z)) ∧
      (∀ w : Await, z.awaited f tag = some w →
        let rest := s.svc.awaits.erase w
        (w.owner = .steward → Ends a.2 s fun u => u = { z with svc := { s.svc with awaits := rest, got := s.svc.got ++
          [{ owner := .steward, tag := tag, status := SH.status f, bytes := bytes }] } }) ∧
        (∀ c, w.owner = .dma c →
          let got : Got := { owner := .dma c, tag := tag, status := SH.status f, bytes := [] }
          ((w.load = false ∨ SH.status f ≠ 0) →
            Ends a.2 s fun u => u = { z with svc := { s.svc with awaits := rest, got := s.svc.got ++ [got] } }) ∧
          (a.1 = 0x81 → w.load = true → SH.status f = 0 → pk.body.length = w.len → w.land % 64 = 0 → w.len % 64 = 0 → w.land + w.len ≤ 2 ^ 40 →
            Ends a.2 s fun u => u.svc = { s.svc with awaits := rest, got := s.svc.got ++ [got] } ∧
              ∀ x, Mem.rd u.hbm x = if w.land ≤ x ∧ x < w.land + w.len then pk.body.getD (x - w.land) 0 else Mem.rd s.hbm x)) ∧
        (∀ t q, w.owner = .mqe t q → (z.findOp t q).isSome = true →
          (SH.status f = 0 → Ends a.2 s fun u => u.svc.awaits = rest) ∧
          (SH.status f ≠ 0 → Ends a.2 s fun u => ∀ x ∈ u.svc.awaits, x.owner ≠ .mqe t q))))

/-- CREDIT with a possible RELEASED frees that many credits: a sequence in flight that costs more than what is left OUTSTANDING is
released, and BASE_SEQ names the oldest left (log 94); an impossible one is discarded with 0x0605. GRANT of a window opens a stream
that is not OFF, a window of 0 takes it to OFF. PROBE of a receiving half that a window was granted to fences the sequences it has
not received, and is answered with PROBE_RSP; PROBE_RSP takes the fenced sequences out of flight with their credits and, with none
fenced, leaves them. -/
def Obligations.StreamRecovery : Prop :=
  ∀ (s : State) (port : Port) (pk : SvcPkt) (z : State),
    let f := pk.flit.toNat
    let n := SH.stream f
    let c := s.ctx n
    let rel := field (SH.ctl f) 0 32
    let freed := (rel + 2 ^ 32 - c.released) % 2 ^ 32
    z.ctlUnit (unitOf (SH.dest f)) n = true → s.svc.closing = [] →
    (s.takeOp port.val 0x90 = some (pk, z) →
      (freed ≤ c.outstanding → c.waiting = [] → Ends (.svcCredit port) s fun u =>
        (u.ctx n).outstanding = c.outstanding - freed ∧ (u.ctx n).released = rel ∧
        (∀ x, x ∈ (u.ctx n).flight ↔ x ∈ c.flight ∧ x.cost ≤ c.outstanding - freed) ∧
        (u.ctx n).base = (match (u.ctx n).flight with
          | x :: _ => x.seq
          | [] => c.next) ∧
        (∀ m, m ≠ n → u.ctx m = s.ctx m) ∧ u = { z with svc := u.svc }) ∧
      (c.outstanding < freed → s.ras.queue.length < 224 → Ends (.svcCredit port) s fun u => u.svc = s.svc ∧
        ∃ r : FaultRec, u.ras.queue = s.ras.queue ++ [r] ∧ r.code = 0x0605 ∧ r.cls = 1)) ∧
    (s.takeOp port.val 0x91 = some (pk, z) → freed ≤ c.outstanding →
      let w := field (SH.ctl f) 32 16
      (c.tx = .off → Ends (.svcGrant port) s (· = z)) ∧
      (c.tx ≠ .off → w = 0 → Ends (.svcGrant port) s fun u => (u.ctx n).tx = .off ∧ (u.ctx n).window = 0) ∧
      (c.tx ≠ .off → w ≠ 0 → c.waiting = [] → Ends (.svcGrant port) s fun u => (u.ctx n).tx = .opened ∧ (u.ctx n).window = w ∧
        (u.ctx n).outstanding = c.outstanding - freed)) ∧
    (s.takeOp port.val 0x92 = some (pk, z) →
      let base := field (SH.ctl f) 0 16
      let cnt := min 64 (field (SH.ctl f) 16 8)
      (c.granted = 0 → Ends (.svcProbe port) s fun u => (u.ctx n).rxMap = c.rxMap ∧ (u.ctx n).fenced = c.fenced) ∧
      (c.granted ≠ 0 → s.sec.fetches = [] → Ends (.svcProbe port) s fun u =>
        (∀ i < cnt, let q := (base + i) % 2 ^ 16
          0 ≤ seqDist q c.rxBase → (∀ r ∈ c.rxMap, r.seq ≠ q) → q ∉ c.fenced → q ∈ (u.ctx n).fenced) ∧
        (u.ctx n).held = c.held ∧ u.hbm = s.hbm) ∧
      (z.answerable f → s.sec.fetches = [] → Ends (.svcProbe port) s fun u => z.reply u f 0x93 0 [])) ∧
    (s.takeOp port.val 0x93 = some (pk, z) → c.waiting = [] →
      let base := field (SH.ctl f) 0 16
      let map := field (SH.ctl f) 64 64
      let lost (x : InSeq) : Bool := decide ((x.seq + 2 ^ 16 - base) % 2 ^ 16 < 64) && map.testBit ((x.seq + 2 ^ 16 - base) % 2 ^ 16)
      (map = 0 → (∀ x ∈ c.flight, x.cost ≤ c.outstanding) → Ends (.svcProbeRsp port) s fun u => (u.ctx n).flight = c.flight ∧
        (u.ctx n).outstanding = c.outstanding ∧ u.ras = s.ras) ∧
      (Ends (.svcProbeRsp port) s fun u => ∀ x ∈ (u.ctx n).flight, x ∈ c.flight ∧ lost x = false) ∧
      ((∀ x ∈ c.flight, ∀ t q, x.owner ≠ .mqe t q) → Ends (.svcProbeRsp port) s fun u =>
        (u.ctx n).outstanding = c.outstanding - ((c.flight.filter lost).foldl (fun v x => v + x.cost) 0) ∧
        u.svc.ended = s.svc.ended ++ (c.flight.filter lost).map fun x => (n, x.tag, 0x0400)))

/-- By the rules of R456 for a side that may act: SEND by the initiator of an IDLE channel takes it to TO_RESP with bit 16
rung; TAKE by the responder notes it; REPLY takes it to TO_INIT with bit 0, CONSUME by either receiver back to IDLE
with bit 1 or 17; an action out of turn or a LENGTH above 4,032 sets ERR and rings the ERROR bit of the actor and
leaves channel state and area (for a channel whose ledger is right). An identity bound to no side changes nothing. MBX_WIN_ACCESS reads and writes the area
in turn, zeros and nothing out of turn. Doorbell commands ring software bits of the peer, clear bits of the own half,
and write the own half of the mask. Binding and seal obey R458; a reserved identity code leaves its field unchanged. -/
def Obligations.MailboxChannels : Prop :=
  ∀ (s : State) (i : Ident) (ch : Fin 64),
    let n := ch.val
    let c := s.chan n
    let lit := fun (u : State) (b : Nat) => (u.reg (R.dblStatusN n)).getLsbD b = true
    let rest := fun (u : State) => (∀ m, m ≠ n → u.chan m = s.chan m) ∧ s.onlyRegs [R.dblStatusN n] { u with stw := s.stw } ∧
      u.stw.answer = s.stw.answer
    (s.sideOf i n = none → Ends (.mbxSend i ch) s (· = s) ∧ Ends (.mbxTake i ch) s (· = s) ∧ Ends (.mbxReply i ch) s (· = s) ∧
      Ends (.mbxConsume i ch) s (· = s) ∧ (∀ v, Ends (.dblRing i ch v) s (· = s) ∧ Ends (.dblStatusClear i ch v) s (· = s) ∧
        Ends (.dblMaskWrite i ch v) s (· = s))) ∧
    (∀ r, s.sideOf i n = some r → s.mayAct i = true → c.broken = none →
      (r = false → c.st = 0 → c.length ≤ 4032 → Ends (.mbxSend i ch) s fun u =>
        u.chan n = { c with st := 1, taken := false, posted := c.posted + 1, sends := c.sends + 1 } ∧ lit u 16 ∧ rest u) ∧
      (r = false → c.st = 0 → 4032 < c.length → Ends (.mbxSend i ch) s fun u => u.chan n = { c with err := 2 } ∧ lit u 3 ∧ rest u) ∧
      ((r = true ∨ c.st ≠ 0) → Ends (.mbxSend i ch) s fun u =>
        u.chan n = { c with err := 1 } ∧ lit u (if r then 19 else 3) ∧ rest u) ∧
      (r = true → c.st = 1 → c.taken = false → Ends (.mbxTake i ch) s fun u => u = s.setChan n { c with taken := true }) ∧
      ((r = false ∨ c.st ≠ 1 ∨ c.taken = true) → Ends (.mbxTake i ch) s fun u =>
        u.chan n = { c with err := 1 } ∧ lit u (if r then 19 else 3) ∧ rest u) ∧
      (r = true → c.st = 1 → c.length ≤ 4032 → Ends (.mbxReply i ch) s fun u =>
        u.chan n = { c with st := 2, taken := false, posted := c.posted + 1 } ∧ lit u 0 ∧ rest u) ∧
      (r = true → c.st = 1 → 4032 < c.length → Ends (.mbxReply i ch) s fun u => u.chan n = { c with err := 2 } ∧ lit u 19 ∧ rest u) ∧
      ((r = false ∨ c.st ≠ 1) → Ends (.mbxReply i ch) s fun u =>
        u.chan n = { c with err := 1 } ∧ lit u (if r then 19 else 3) ∧ rest u) ∧
      (r = true → c.st = 1 → Ends (.mbxConsume i ch) s fun u =>
        u.chan n = { c with st := 0, taken := false, consumes := c.consumes + 1 } ∧ lit u 1 ∧ rest u) ∧
      (r = false → c.st = 2 → Ends (.mbxConsume i ch) s fun u =>
        u.chan n = { c with st := 0, taken := false, consumes := c.consumes + 1 } ∧ lit u 17 ∧ rest u) ∧
      ((c.st = 0 ∨ (c.st = 1 ∧ r = false) ∨ (c.st = 2 ∧ r = true)) → Ends (.mbxConsume i ch) s fun u =>
        u.chan n = { c with err := 1 } ∧ lit u (if r then 19 else 3) ∧ rest u)) ∧
    (∀ r, s.sideOf i n = some r → s.mayAct i = true →
      (∀ v : BitVec 32, Ends (.dblRing i ch v) s fun u =>
        (∀ o, 4 ≤ o → o < 16 → v.getLsbD (halfBit (!r) o) = true → lit u (halfBit (!r) o)) ∧
        (∀ b, b < 64 → (v.getLsbD b = false ∨ b % 16 < 4 ∨ (b < 16 ↔ r = false)) →
          (u.reg (R.dblStatusN n)).getLsbD b = (s.reg (R.dblStatusN n)).getLsbD b) ∧ u.chan n = c ∧ rest u) ∧
      (∀ v : BitVec 32, Ends (.dblStatusClear i ch v) s fun u => s.onlyRegs [R.dblStatusN n] u ∧
        u.reg (R.dblStatusN n) = s.reg (R.dblStatusN n) &&& ~~~(BitVec.ofNat 64 (v.toNat &&& halfMask r))) ∧
      (∀ v : BitVec 32, Ends (.dblMaskWrite i ch v) s fun u => s.onlyRegs [R.dblMaskN n] { u with stw := s.stw } ∧
        (∀ b, b < 32 → (u.reg (R.dblMaskN n)).getLsbD b =
          if (b < 16 ↔ r = false) then v.getLsbD b else (s.reg (R.dblMaskN n)).getLsbD b))) ∧
    (∀ (off : BitVec 12) (k : Nat), tget 0 s.stw.winSel (idKey i) = n → off.toNat + k ≤ 4096 →
      let mine := fun (side : Bool) (st : Nat) => s.mayAct i = true ∧ s.sideOf i n = some side ∧ c.st = st
      ((mine true 1 ∨ mine false 2) → Ends (.mbxWinAccess i off (.rd k)) s fun u =>
        u = s.answered .ok (Mem.rdBytes c.area off.toNat k)) ∧
      (¬(mine true 1 ∨ mine false 2) → Ends (.mbxWinAccess i off (.rd k)) s fun u =>
        u = s.answered .ok (List.replicate k 0#8)) ∧
      (∀ bs : List Byte, bs.length = k →
        ((mine false 0 ∨ mine true 1) → Ends (.mbxWinAccess i off (.wr bs)) s fun u =>
          (∀ a, Mem.rd (u.chan n).area a = if off.toNat ≤ a ∧ a < off.toNat + k then bs.getD (a - off.toNat) 0
            else Mem.rd c.area a) ∧ (∀ m, m ≠ n → u.chan m = s.chan m) ∧ u = { s with stw := { s.stw with chans := u.stw.chans } }) ∧
        (¬(mine false 0 ∨ mine true 1) → Ends (.mbxWinAccess i off (.wr bs)) s (· = s)))) ∧
    (∀ v : Word, (isCore i = false ∨ s.sealed = true) → Ends (.mbxBindWrite i ch v) s (· = s)) ∧
    (∀ v : Word, isCore i = true → s.sealed = false →
      (v.getLsbD 63 = true → bindOk v.toNat = true → Ends (.mbxBindWrite i ch v) s fun u => s.onlyRegs [R.mbxBindN n] u ∧
        u.reg (R.mbxBindN n) = BitVec.ofNat 64 (bindBits v.toNat)) ∧
      (v.getLsbD 63 = true → pairOk (field v.toNat 0 3) (field v.toNat 8 3) = false → field v.toNat 0 3 % 7 ≠ 0 →
        field v.toNat 8 3 % 7 ≠ 0 → Ends (.mbxBindWrite i ch v) s (· = s)) ∧
      (v.getLsbD 63 = false → field v.toNat 0 3 ≠ 7 → field v.toNat 8 3 ≠ 7 → Ends (.mbxBindWrite i ch v) s fun u =>
        s.onlyRegs [R.mbxBindN n] u ∧ u.reg (R.mbxBindN n) = BitVec.ofNat 64 (bindBits v.toNat)) ∧
      (∀ lo, (lo = 0 ∨ lo = 8) → field v.toNat lo 3 = 7 → Ends (.mbxBindWrite i ch v) s fun u =>
        s.onlyRegs [R.mbxBindN n] u ∧ field (u.reg (R.mbxBindN n)).toNat lo 3 = field (s.reg (R.mbxBindN n)).toNat lo 3)) ∧
    (isCore i = false → Ends (.mbxSealSet i) s (· = s)) ∧
    (isCore i = true → Ends (.mbxSealSet i) s fun u => u.fget R.mbxSeal F.mbxSeal_SEAL = 1 ∧
      u.fget R.devStatus F.devStatus_SEALED = 1 ∧ u.fget R.devStatus F.devStatus_STATE = s.fget R.devStatus F.devStatus_STATE ∧
      s.onlyRegs [R.mbxSeal, R.devStatus] u)

/-- MBX_ACTION_MSG of an unknown device, or before the seal, only takes its message out of the receive queue; a SEND or
REPLY whose PUT is not complete is refused with ERR 1; otherwise the staged 4,096 bytes replace the message area in
turn and the action is the one of a local side. PEER_RESET_MSG of a known device resets its side of every channel
bound to it and notes its reset count; of an unknown device it only takes the message. -/
def Obligations.RemoteSides : Prop :=
  ∀ (s : State) (m : RxMsg) (z : State),
    (s.takeKind 1 = some (m, z) →
      let n := leAt m.body 1 1 % 64
      let bits := leAt m.body 2 1 % 16
      ((z.remoteOf m.src = none ∨ z.sealed = false) → Ends .mbxActionMsg s (· = z)) ∧
      (∀ i r, z.remoteOf m.src = some i → z.sideOf i n = some r → z.sealed = true →
        let full := ∃ x, (z.ctx m.stream).lastXfer = some x ∧ z.fget (R.svcCcntN x) F.svcCcntN_STATE = 2
        ((bits = 1 ∨ bits = 4) → ¬full → Ends .mbxActionMsg s fun u =>
          u.chan n = { z.chan n with err := 1 } ∧ (u.reg (R.dblStatusN n)).getLsbD (if r then 19 else 3) = true ∧ u.hbm = z.hbm) ∧
        (bits = 1 → full → r = false → (z.chan n).st = 0 →
          let base := z.fget (R.svcSctxNRxbuf m.stream) F.svcSctxNRxbuf_BASE
          Ends .mbxActionMsg s fun u => (u.chan n).st =
            (if (Mem.rd z.hbm base).toNat + 256 * (Mem.rd z.hbm (base + 1)).toNat ≤ 4032 then 1 else 0) ∧
            ∀ k, k < 4096 → Mem.rd (u.chan n).area k = Mem.rd z.hbm (base + k)) ∧
        (bits = 8 → r = true → (z.chan n).st = 1 → (z.chan n).broken = none → Ends .mbxActionMsg s fun u =>
          u.chan n = { z.chan n with st := 0, taken := false, consumes := (z.chan n).consumes + 1 } ∧ u.hbm = z.hbm))) ∧
    (s.takeKind 2 = some (m, z) →
      (z.remoteOf m.src = none → Ends .peerResetMsg s (· = z)) ∧
      (∀ i, z.remoteOf m.src = some i → Ends .peerResetMsg s fun u =>
        tget 0 u.stw.peers (deviceOf m.src) = leAt m.body 4 8 ∧
        (∀ n, n < 64 → z.sideOf i n = none → u.chan n = z.chan n) ∧
        (∀ n r, n < 64 → z.sideOf i n = some r → (z.chan n).st = 0 → u.chan n = z.chan n) ∧
        ((∀ n, n < 64 → (z.chan n).broken = none) → u.tiles = z.tiles ∧ u.hbm = z.hbm))) ∧
    (s.takeKind 1 = none → Ends .mbxActionMsg s (· = s)) ∧ (s.takeKind 2 = none → Ends .peerResetMsg s (· = s))

/-- PCIE_LINK_UP with a legal speed and width shows the link up; PCIE_CONFIG_WRITE sets the bits of Command, MSI-X and PTM, keeps what
is written to the base addresses and Interrupt Line, and resizes BAR2, once the link is up, and does nothing before (the places are
PRESUMED, log 66); unmasking a pending vector sends it once. BAR2_WRITE of an answerable
range writes exactly its bytes, another is dropped; BAR2_READ answers the bytes, poisoned data as poisoned, an
unanswerable range as unsupported, and changes no memory. The I2C reads answer the words they name; writes with a bad
PEC or an illegal value change nothing; MBX_SELECT, MBX_OFFSET, the channel action and the doorbell writes act as the
BMC side of the selected channel. -/
def Obligations.EndpointAndBmc : Prop :=
  ∀ s : State,
    (∀ (speed : BitVec 4) (width : BitVec 6), 1 ≤ speed.toNat → speed.toNat ≤ 5 → width.toNat ∈ [1, 2, 4, 8, 16] →
      Ends (.pcieLinkUp speed width) s fun u => u.fget R.pciLink F.pciLink_UP = 1 ∧
        u.fget R.pciLink F.pciLink_WIDTH = width.toNat ∧ u.fget R.pciLink F.pciLink_SPEED = speed.toNat ∧
        u.stw.pcie = { s.stw.pcie with ready := true } ∧ s.onlyRegs [R.pciLink] { u with stw := s.stw }) ∧
    (∀ (off : BitVec 12) (v : BitVec 32), s.stw.pcie.ready = false → Ends (.pcieConfigWrite off v) s (· = s)) ∧
    (∀ v : BitVec 32, s.stw.pcie.ready = true →
      (Ends (.pcieConfigWrite 0x04 v) s fun u => u.stw.pcie.mse = v.getLsbD 1 ∧
        u.fget R.pciLink F.pciLink_BME = b2n (v.getLsbD 2) ∧ u.fget R.pciLink F.pciLink_UP = s.fget R.pciLink F.pciLink_UP ∧
        s.onlyRegs [R.pciLink] { u with stw := s.stw }) ∧
      (Ends (.pcieConfigWrite 0xB0 v) s fun u => u.stw.pcie.msixOn = (v.getLsbD 31 && !v.getLsbD 30) ∧ u.regs = s.regs) ∧
      (Ends (.pcieConfigWrite 0x208 v) s fun u => u.stw.pcie.ptmOn = v.getLsbD 0 ∧
        u.fget R.ngtPtmCtl F.ngtPtmCtl_ACTIVE = (if v.getLsbD 0 then s.fget R.ngtPtmCtl F.ngtPtmCtl_ACTIVE else 0) ∧
        s.onlyRegs [R.ngtPtmCtl] { u with stw := s.stw, ngt := s.ngt }) ∧
      (Ends (.pcieConfigWrite 0x204 v) s (· = s)) ∧
      (∀ off : BitVec 12, (off.toNat = 0x3C ∨ (0x10 ≤ off.toNat ∧ off.toNat ≤ 0x24)) → Ends (.pcieConfigWrite off v) s fun u =>
        u = { s with stw := { s.stw with pcie := { s.stw.pcie with cfg := Mem.wrNat s.stw.pcie.cfg off.toNat 4 v.toNat } } }) ∧
      (let size := 20 + field v.toNat 8 6
       (30 ≤ size → size ≤ 40 → Ends (.pcieConfigWrite 0x248 v) s fun u => u.fget R.pciBar2 F.pciBar2_SIZE_LOG2 = size ∧
         u.bar2Base % 2 ^ size = 0 ∧ u.bar2Base ≤ s.bar2Base ∧ s.bar2Base < u.bar2Base + 2 ^ size ∧
         s.onlyRegs [R.pciBar2] { u with stw := s.stw }))) ∧
    (∀ k : BitVec 6,
      let x := tget {} s.stw.msix k.toNat
      Ends (.msixVectorUnmask k) s fun u => let y := tget {} u.stw.msix k.toNat
        y.masked = false ∧ (x.pending = true → s.stw.pcie.msixOn = true → y.sent = x.sent + 1 ∧ y.pending = false) ∧
        (x.pending = false ∨ s.stw.pcie.msixOn = false → y.sent = x.sent ∧ y.pending = x.pending) ∧ u.regs = s.regs) ∧
    (∀ mask : BitVec 4, Ends (.devEventMaskWrite mask) s fun u => u.fget R.devEvent F.devEvent_MASK = mask.toNat ∧
      (u.reg R.devEvent).toNat % 16 = (s.reg R.devEvent).toNat % 16 ∧ s.onlyRegs [R.devEvent] { u with stw := s.stw }) ∧
    (∀ (off : BitVec 40) (bs : List Byte),
      (s.bar2Ok off.toNat bs.length = false → ∀ ep, Ends (.bar2Write off bs ep) s (· = s)) ∧
      (s.bar2Ok off.toNat bs.length = true → s.hbmBad (s.bar2Base + off.toNat) bs.length = false →
        Ends (.bar2Write off bs false) s fun u => (∀ a, Mem.rd u.hbm a =
            if s.bar2Base + off.toNat ≤ a ∧ a < s.bar2Base + off.toNat + bs.length then bs.getD (a - (s.bar2Base + off.toNat)) 0
            else Mem.rd s.hbm a) ∧ u.hbmPoison = s.hbmPoison ∧ u = { s with hbm := u.hbm })) ∧
    (∀ (off : BitVec 40) (len : BitVec 13),
      (s.bar2Ok off.toNat len.toNat = false → Ends (.bar2Read off len []) s fun u => u = s.answered .unsupported []) ∧
      (s.bar2Ok off.toNat len.toNat = true → s.hbmBad (s.bar2Base + off.toNat) len.toNat = false →
        Ends (.bar2Read off len []) s fun u => u = s.answered .ok (Mem.rdBytes s.hbm (s.bar2Base + off.toNat) len.toNat)) ∧
      (s.bar2Ok off.toNat len.toNat = true → s.hbmBad (s.bar2Base + off.toNat) len.toNat = true → s.ras.queue.length < 224 →
        Ends (.bar2Read off len []) s fun u => u.stw.answer.kind = .poisoned ∧ u.hbm = s.hbm ∧
          ∃ r : FaultRec, u.ras.queue = s.ras.queue ++ [r] ∧ r.code = 0x0202)) ∧
    Ends .i2cDevId s (fun u => u = s.answered .ok (leBytes 8 s.devIdWord ++ ownIdentity.take 8)) ∧
    Ends .i2cStatus s (fun u => u = s.answered .ok (leBytes 8 (s.reg R.devStatus).toNat)) ∧
    Ends .i2cThermal s (fun u => ∃ bs, u = s.answered .ok bs ∧ bs.length = 4 ∧
      signedOf 16 (leAt bs 0 2) = signedOf 8 (s.fget R.pwrTherm F.pwrTherm_TJ_MAX_C) ∧
      signedOf 16 (leAt bs 2 2) = signedOf 8 (s.fget R.pwrTherm F.pwrTherm_HBM_MAX_C)) ∧
    Ends .i2cPower s (fun u => u = s.answered .ok (leBytes 8 s.enr.i2cPower)) ∧
    (∀ v : BitVec 8, (v.toNat < 64 → Ends (.i2cMbxSelect v true) s fun u => u.bmcChan = v.toNat ∧
        u = { s with stw := { s.stw with winSel := u.stw.winSel } }) ∧
      (64 ≤ v.toNat → Ends (.i2cMbxSelect v true) s (· = s)) ∧ Ends (.i2cMbxSelect v false) s (· = s) ∧
      Ends (.i2cMbxAction v false) s (· = s) ∧ Ends (.i2cSideReset v false) s (· = s) ∧
      (v.toNat ≠ 1 → Ends (.i2cSideReset v true) s (· = s)) ∧
      Ends (.i2cSideReset 1 true) s (fun u => u = s.sideReset .bmc) ∧
      (∀ ch : Fin 64, s.bmcChan = ch.val → v.toNat = 1 → exec (.i2cMbxAction v true) s = exec (.mbxSend .bmc ch) s)) ∧
    (∀ v : BitVec 16, (v.toNat < 4096 → Ends (.i2cMbxOffset v true) s fun u => u = { s with stw := { s.stw with i2cOff := v.toNat } }) ∧
      (4096 ≤ v.toNat → Ends (.i2cMbxOffset v true) s (· = s)) ∧ Ends (.i2cMbxOffset v false) s (· = s)) ∧
    (∀ k, 1 ≤ k → k ≤ 240 → Ends (.i2cMbxData (.rd k) true) s fun u => u.stw.i2cOff = (s.stw.i2cOff + k) % 4096 ∧
      u.stw.answer.kind = .ok ∧ u.stw.chans = s.stw.chans ∧ u.regs = s.regs) ∧
    (∀ k, (k = 0 ∨ 240 < k) → Ends (.i2cMbxData (.rd k) true) s fun u => u = s.answered .nack []) ∧
    (∀ acc : WinAcc, Ends (.i2cMbxData acc false) s (· = s)) ∧
    (∀ ch : Fin 64, s.bmcChan = ch.val → ∀ v : BitVec 32,
      (Ends .i2cDoorbellRead s fun u => u.stw.answer.kind = .ok ∧ u.regs = s.regs ∧
        (s.mayAct .bmc = true → (s.sideOf .bmc ch.val).isSome = true →
          u.stw.answer.data = leBytes 4 (s.reg (R.dblStatusN ch.val)).toNat) ∧
        (s.sideOf .bmc ch.val = none → u.stw.answer.data = leBytes 4 0)) ∧
      exec (.i2cDoorbellRing v true) s = exec (.dblRing .bmc ch v) s ∧
      exec (.i2cDoorbellClear v true) s = exec (.dblStatusClear .bmc ch v) s ∧
      (∀ r, s.sideOf .bmc ch.val = some r → s.mayAct .bmc = true →
        (Ends (.i2cDoorbellRing v true) s fun u => u.chan ch.val = s.chan ch.val) ∧
        (Ends (.i2cDoorbellClear v true) s fun u => u.chan ch.val = s.chan ch.val) ∧
        (∀ w : BitVec 8, w.toNat = 1 → r = false → (s.chan ch.val).st = 0 → (s.chan ch.val).length ≤ 4032 →
          Ends (.i2cMbxAction w true) s fun u => (u.chan ch.val).st = 1) ∧
        (∀ w : BitVec 8, 1 < (below 4 (bit w.toNat)).length → (s.chan ch.val).broken = none → Ends (.i2cMbxAction w true) s fun u =>
          u.chan ch.val = { s.chan ch.val with err := 3 }))) ∧
    (s.alert = true → Ends .smbusAlertResponse s fun u => u = s.answered .ok (leBytes 1 (2 * s.cfg.i2cAddr))) ∧
    (s.alert = false → Ends .smbusAlertResponse s fun u => u = s.answered .nack [])

/-- TILE_RESET of an IDLE, STOPPED or FAULTED tile cancels its queue operations, keeps its memories as these leave them
and its tables, drops the rest and leaves it STOPPED with STOP_AT_MERIDIAN set; TILE_POWER_GATE of one power-gates it;
of a tile in any other state both change nothing. A tile of the running program that no RESTART hole covers cannot rejoin: its reset
stops the program (log 100). TILE_POWER_UNGATE of a gated tile brings it back STOPPED. STOP_AT_MERIDIAN_WRITE sets its bit alone,
and does not clear it while the tile may not rejoin at the next meridian. DISTRICT_RESET of a powered district cancels its queue operations and
resets its tiles, keeping their memories as these leave them; DISTRICT_POWER_GATE gates it; of a gated district both
change nothing. A district that had FAILED runs in for a transit after its reset; one whose calibration fails is FAILED with 0x0404.
CLOCK_FAULT on a period outside the limits, or on loss of lock, of a district that is neither gated nor failed fails it and records
0x0403; within the limits it changes nothing. Other tiles
keep their state, and HBM changes in no unit that no cancelled store covers. -/
def Obligations.TileAndDistrictResets : Prop :=
  ∀ s : State,
    (∀ p : PTile,
      let t := s.tile p.val
      let still := t.issue.status = .idle ∨ t.issue.status = .stopped ∨ t.issue.status = .faulted
      let others := fun (u : State) => (∀ q, q ≠ p.val → u.tile q = s.tile q) ∧ u.links = s.links ∧
        ∀ a, (∀ o ∈ (s.mqe (districtOf p.val)).ops, o.tile = p.val → s.storesAt o a = false) → Mem.rd u.hbm a = Mem.rd s.hbm a
      let left := (s.cancelOps (districtOf p.val) (·.tile == p.val)).tile p.val
      (s.opsOf p.val = 0 → left = t) ∧
      (still → (s.valid = true ∨ s.running = false) → Ends (.tileReset p) s fun u => u.tile p.val = left.afterReset .stopped ∧
        u.fget (R.tilCtl p.val) F.tilCtl_STOP_AT_MERIDIAN = 1 ∧ (∀ o ∈ (u.mqe (districtOf p.val)).ops, o.tile ≠ p.val) ∧
        u.fget (R.ldgCheckN 4) F.ldgCheckN_RETURNED = min (s.opsOf p.val) 65535 ∧ others u) ∧
      (still → s.valid = true → s.running = true → (blockTiles s.prog.secs).contains (s.ltileOf p.val) = true →
        (∀ h ∈ s.holes, ¬(h.2.1 ≤ s.ltileOf p.val ∧ s.ltileOf p.val ≤ h.2.2)) →
        Ends (.tileReset p) s fun u => u.prog.st = .stopping ∧ ∃ k, u.prog.stopAt = some k ∧ k ≤ s.transit + 1) ∧
      (¬still → Ends (.tileReset p) s (· = s) ∧ Ends (.tilePowerGate p) s (· = s)) ∧
      (still → Ends (.tilePowerGate p) s fun u => u.tile p.val = left.afterReset .powerGated ∧
        u.fget (R.tilCtl p.val) F.tilCtl_POWER_GATE = 1 ∧ others u) ∧
      (s.fget (R.tilCtl p.val) F.tilCtl_POWER_GATE = 1 → s.clkState (districtOf p.val) ≠ clkGated →
        Ends (.tilePowerUngate p) s fun u => u.tile p.val = left.afterReset .stopped ∧
          u.fget (R.tilCtl p.val) F.tilCtl_POWER_GATE = 0 ∧ u.fget (R.tilCtl p.val) F.tilCtl_STOP_AT_MERIDIAN = 1 ∧ others u) ∧
      (s.mayRejoin p.val = false → Ends (.stopAtMeridianWrite p false) s (· = s)) ∧
      (∀ v : Bool, (v = true ∨ s.mayRejoin p.val = true) → Ends (.stopAtMeridianWrite p v) s fun u => s.onlyRegs [R.tilCtl p.val] u ∧
        u.fget (R.tilCtl p.val) F.tilCtl_STOP_AT_MERIDIAN = b2n v ∧
        u.fget (R.tilCtl p.val) F.tilCtl_POWER_GATE = s.fget (R.tilCtl p.val) F.tilCtl_POWER_GATE)) ∧
    (∀ (d : District) (xin xout : Nat),
      let away := fun (u : State) => ∀ q, districtOf q ≠ d.val → u.tile q = s.tile q
      let left := s.cancelOps d.val fun _ => true
      (s.clkState d.val = clkGated → Ends (.districtReset d xin xout) s (· = s) ∧
        Ends (.districtPowerGate d true xin xout) s (· = s)) ∧
      (s.clkState d.val ≠ clkGated → Ends (.districtPowerGate d false xin xout) s (· = s)) ∧
      (s.clkState d.val ≠ clkGated → cdiv xin 65536 ∈ [1, 2, 3, 4, 5, 6, 7, 8, 9, 10, 11] →
        cdiv xout 65536 ∈ [1, 2, 3, 4, 5, 6, 7, 8, 9, 10, 11] → (∀ o ∈ (s.mqe d.val).ops, districtOf o.tile = d.val) →
        ((s.clk d.val).failed = false ∨ (s.clk d.val).failedResets < 2) → Ends (.districtReset d xin xout) s fun u =>
          ((s.clk d.val).failed = false → u.clkState d.val = clkRunning) ∧
          ((s.clk d.val).failed = true → u.clkState d.val = clkCal ∧
            (u.clk d.val).trial = some s.transit ∧ (u.clk d.val).failed = false) ∧
          (u.mqe d.val).ops = [] ∧ (u.clk d.val).inFifo = [] ∧ (u.clk d.val).outFifo = [] ∧
          (∀ k, k < 17 → bit (s.capo d.val).retired k = false →
            u.tile (d.val * 17 + k) = (left.tile (d.val * 17 + k)).afterReset .idle) ∧ away u ∧
          ∀ a, (∀ o ∈ (s.mqe d.val).ops, s.storesAt o a = false) → Mem.rd u.hbm a = Mem.rd s.hbm a) ∧
      (s.clkState d.val ≠ clkGated → 12 ≤ cdiv xin 65536 ∨ 12 ≤ cdiv xout 65536 ∨ cdiv xin 65536 = 0 ∨ cdiv xout 65536 = 0 →
        (s.clk d.val).failedResets = 0 → (s.mqe d.val).ops = [] → s.stopsLater → s.ras.queue.length < 256 →
        Ends (.districtReset d xin xout) s fun u => u.clkState d.val = clkFailed ∧ (u.clk d.val).failedResets = 1 ∧
          ∃ r : FaultRec, u.ras.queue = s.ras.queue ++ [r] ∧ r.code = 0x0404 ∧ r.cls = 4) ∧
      (s.clkState d.val ≠ clkGated → (∀ o ∈ (s.mqe d.val).ops, districtOf o.tile = d.val) →
        Ends (.districtPowerGate d true xin xout) s fun u => u.clkState d.val = clkGated ∧ (u.mqe d.val).ops = [] ∧
          (∀ k, k < 17 → bit (s.capo d.val).retired k = false →
            u.tile (d.val * 17 + k) = (left.tile (d.val * 17 + k)).afterReset .powerGated) ∧ away u) ∧
      (s.clkState d.val = clkGated → (s.capo d.val).retired ≠ 2 ^ 17 - 1 →
        cdiv xin 65536 ∈ [1, 2, 3, 4, 5, 6, 7, 8, 9, 10, 11] → cdiv xout 65536 ∈ [1, 2, 3, 4, 5, 6, 7, 8, 9, 10, 11] →
        (s.mqe d.val).ops = [] →
        Ends (.districtPowerGate d false xin xout) s fun u =>
          u.clkState d.val = (if (s.clk d.val).failed then clkFailed else clkRunning) ∧ away u)) ∧
    (∀ (d : District) (e : ClockEvent),
      let c := s.clk d.val
      let bad := e.lockLost = true ∨ s.periodBad d.val e.ps.toNat = true
      ((s.clkState d.val = clkGated ∨ s.clkState d.val = clkFailed ∨ ¬bad) → c.failedResets < 2 → Ends (.clockFault d e) s (· = s)) ∧
      (s.clkState d.val ≠ clkGated → s.clkState d.val ≠ clkFailed → bad → c.failedResets + b2n c.trial.isSome < 2 → s.stopsLater →
        s.ras.queue.length < 256 → Ends (.clockFault d e) s fun u => u.clkState d.val = clkFailed ∧ (u.clk d.val).failed = true ∧
          (u.clk d.val).trial = none ∧ (u.clk d.val).failedResets = c.failedResets + b2n c.trial.isSome ∧ u.tiles = s.tiles ∧
          (∀ k, k ≠ d.val → u.clkState k = s.clkState k) ∧
          ∃ r : FaultRec, u.ras.queue = s.ras.queue ++ [r] ∧ r.code = 0x0403 ∧ r.cls = 4 ∧ r.district = d.val))

/-- PORT_RESET of a powered port that neither drains nor is forced down empties its link, queues and replay buffer, keeps
its retired lanes, closes its gate and starts training once firmware is verified (BOOT_STATE 1), else stays in RESET; PORT_POWER_GATE gates it, and
restores a gated one to the same; every other port keeps its link. FUNCTION_LEVEL_RESET and PCIE_CONVENTIONAL_RESET clear configuration space
and the MSI-X table, mask the events, clear BME and return BAR2 to 64 GiB (log 66); the clocking mode stays. The conventional one also takes the link down and samples straps 2
and 3. TRST_ASSERT resets the DBG side alone. -/
def Obligations.PortAndEndpointResets : Prop :=
  ∀ s : State,
    (∀ port : Port,
      let p := port.val
      let l := s.link p
      let bare := fun (u : State) (st : LinkState) => u.link p = { st := st, rxRetired := l.rxRetired, txRetired := l.txRetired } ∧
        u.outQ p = [] ∧ u.fget (R.lnkCtl p) F.lnkCtl_GATE = 0 ∧ u.fget (R.fabCtl p) F.fabCtl_ENABLE = 0 ∧
        ∀ q, q ≠ p → u.link q = s.link q
      let fresh : LinkState := if s.fget R.secStatus F.secStatus_BOOT_STATE = 1 then .training else .reset
      (l.st = .disabled → Ends (.portReset port) s (· = s) ∧ Ends (.portPowerGate port true) s (· = s)) ∧
      (l.st ≠ .disabled → Ends (.portPowerGate port false) s (· = s)) ∧
      (l.draining = none → s.fget (R.lnkCtl p) F.lnkCtl_FORCE_DOWN = 0 →
        (l.st ≠ .disabled → Ends (.portReset port) s fun u => bare u fresh) ∧
        (l.st ≠ .disabled → Ends (.portPowerGate port true) s fun u => bare u .disabled) ∧
        (l.st = .disabled → Ends (.portPowerGate port false) s fun u => bare u fresh))) ∧
    (Ends .functionLevelReset s fun u => u.stw.pcie = { ready := s.stw.pcie.ready, clocking := s.stw.pcie.clocking } ∧ u.stw.msix = [] ∧
      u.fget R.pciBar2 F.pciBar2_SIZE_LOG2 = 36 ∧
      u.fget R.devEvent F.devEvent_MASK = 15 ∧ u.fget R.pciLink F.pciLink_BME = 0 ∧ u.ngt.latchHost = 0 ∧
      u.stw.dma = [] ∧
      ((∀ d, (s.mqe d).ops = []) → s.sec.fetches = [] → s.stw.dma = [] → (∀ n, n < 64 → (s.chan n).broken = none) →
        u.hbm = s.hbm ∧ u.tiles = s.tiles)) ∧
    (∀ straps : BitVec 2, s.enr.failed = true → Ends (.pcieConventionalReset straps) s (· = s)) ∧
    (∀ straps : BitVec 2, s.enr.failed = false → Ends (.pcieConventionalReset straps) s fun u =>
      u.stw.pcie = { clocking := s.stw.pcie.clocking } ∧
      u.stw.msix = [] ∧ u.reg R.pciLink = regReset R.pciLink ∧ u.fget R.devEvent F.devEvent_MASK = 15 ∧
      u.pins.straps = straps ++ s.pins.straps.extractLsb' 0 2 ∧
      ((∀ d, (s.mqe d).ops = []) → s.sec.fetches = [] → s.stw.dma = [] → (∀ n, n < 64 → (s.chan n).broken = none) →
        u.hbm = s.hbm ∧ u.tiles = s.tiles)) ∧
    (Ends .trstAssert s fun u => (∀ n, n < 64 → s.sideOf .dbg n = none → u.chan n = s.chan n) ∧
      (∀ n r, n < 64 → s.sideOf .dbg n = some r → (s.chan n).st = 0 → u.chan n = s.chan n) ∧
      (∀ n, n < 64 → s.sideOf .dbg n = some true → (s.chan n).st = 1 → bit (Mem.rdNat (s.chan n).area 6 1) 1 = false →
        (u.chan n).st = 2 ∧ Mem.rdNat (u.chan n).area 4 2 = 0x0400) ∧
      ((∀ n, n < 64 → (s.chan n).broken = none) → u.tiles = s.tiles ∧ u.hbm = s.hbm ∧ u.prog = s.prog ∧ u.ras = s.ras))

/-- COLD_RESET empties every memory, tile, queue, link and channel, takes straps and rails from its operand, and keeps
capo maps, retired lanes, the trust record, boot slots, the fault log and the registers MRAM holds; every other
register outside the clocks is at its reset value. WARM_RESET is a cold reset in the saved state, does nothing while a
save is written, and otherwise keeps the log, and HBM but for units that cancelled stores cover, moves the fault queue
into it, and empties tiles, queues, links, the program and the service plane. DEV_RESET_WARM with the key from a side
that may write it is that warm reset, and nothing with another key or from BMC or REMOTE. -/
def Obligations.DeviceResets : Prop :=
  ∀ (s : State) (b : BootData),
    let kept := fun (u : State) => ∀ a, (∀ d, ∀ o ∈ (s.mqe d).ops, s.storesAt o a = false) → Mem.rd u.hbm a = Mem.rd s.hbm a
    (Ends (.coldReset b) s fun u => u.tiles = [] ∧ u.hbm = [] ∧ u.mqes = [] ∧ u.prog = {} ∧ u.reqs = [] ∧ u.stw.chans = [] ∧
      u.svc = {} ∧ u.pins = { straps := b.straps } ∧ u.fget R.pwrRailStatus F.pwrRailStatus_GOOD = b.railsGood.toNat ∧
      u.capos = s.capos ∧ u.sec.trust = s.sec.trust ∧ u.sec.slotA = s.sec.slotA ∧ u.sec.slotB = s.sec.slotB ∧
      u.ras.log = s.ras.log ∧ u.ras.nextIndex = s.ras.nextIndex ∧ u.cfg = s.cfg ∧
      (∀ o, (o < 0x1000000 ∨ 0x2000000 ≤ o) → o ≠ R.secBootCtl → o ≠ R.secTrustSeq → o ≠ R.pwrRailStatus → u.reg o = regReset o) ∧
      (∀ p, p < 8 → u.link p = { rxRetired := (s.link p).rxRetired, txRetired := (s.link p).txRetired })) ∧
    (s.enr.saved = true → exec (.warmReset b) s = exec (.coldReset b) s) ∧
    (s.enr.saved = false → s.enr.failed = true → Ends (.warmReset b) s (· = s)) ∧
    (s.enr.saved = false → s.enr.failed = false → Ends (.warmReset b) s fun u => u.tiles = [] ∧ kept u ∧ u.mqes = [] ∧
      u.prog = {} ∧ u.svc = {} ∧ u.stw.chans = [] ∧ u.capos = s.capos ∧ u.sec.trust = s.sec.trust ∧ u.ras.log = s.drainAll.ras.log ∧
      u.pins = { s.pins with straps := b.straps } ∧ u.reg R.ngtEpochId = s.reg R.ngtEpochId ∧
      (∀ p, p < 8 → u.link p = (s.link p).afterReset false) ∧ u.ngt.now = s.ngt.now) ∧
    (∀ who : Ident, (who = .host ∨ who = .stw0 ∨ who = .stw1 ∨ who = .dbg) → s.enr.failed = false → s.enr.saved = false →
      exec (.devResetWarm who 0x5752 b) s = exec (.warmReset b) s ∧
      (Ends (.devResetWarm who 0x5752 b) s fun u => u.tiles = [] ∧ kept u ∧ u.prog = {}) ∧
      ∀ key : BitVec 16, key ≠ 0x5752 → Ends (.devResetWarm who key b) s (· = s)) ∧
    (∀ (who : Ident) (key : BitVec 16), (who = .bmc ∨ ∃ f, who = .remote f) → Ends (.devResetWarm who key b) s (· = s))

/-- BOOT_ROM_RUN in ROM with every rail good and strap 0: with no core that passes the device is BOOT_FAILED; with a boot
core and no image on trial it starts an image exactly if one of its two slots is accepted, on that core, and is
otherwise BOOT_FAILED. FIRMWARE_START after a boot seals the table, opens a new ledger epoch and makes the device
READY; without one it changes nothing. WATCHDOG_EXPIRY and MACHINE_CHECK hand over to the standby with record 0x0A01,
without a standby record 0x0A02 of class 5, and before BOOTED nothing. STEWARD_SWITCHOVER without a standby is
NOT_PERMITTED, else the change is made and answered. -/
def Obligations.BootAndTakeover : Prop :=
  ∀ s : State,
    (∀ (p0 p1 : Bool) (img : List Byte),
      let due := s.fget R.devStatus F.devStatus_STATE = 0 ∧ s.fget R.secStatus F.secStatus_BOOT_STATE = 0
      (s.fget R.devStatus F.devStatus_STATE ≠ 0 → s.fget R.devStatus F.devStatus_STATE ≠ 1 →
        Ends (.bootRomRun p0 p1 img) s (· = s)) ∧
      (due → s.enr.failed = false → s.fget R.pwrRailStatus F.pwrRailStatus_GOOD = 2047 →
        (s.stw.coreRetired = [0, 1] → p0 = false → p1 = false → Ends (.bootRomRun p0 p1 img) s fun u =>
          u.fget R.secStatus F.secStatus_BOOT_STATE = 2 ∧ u.fget R.devStatus F.devStatus_STATE = 1 ∧ u.links = s.links) ∧
        (s.stw.coreRetired = [] → s.stw.coreFailed = [] → s.pins.straps.extractLsb' 0 2 = 0 → s.trial = false →
          s.pins.thermtrip = false →
          let ok := s.imgBar (s.slot false) = none ∨ s.imgBar (s.slot true) = none
          Ends (.bootRomRun p0 p1 img) s fun u =>
            (ok → u.fget R.secStatus F.secStatus_BOOT_STATE = 1 ∧ u.fget R.devStatus F.devStatus_STATE = 2 ∧
              u.fget R.devStatus F.devStatus_ACTIVE_STW = 0 ∧ u.fget R.devStatus F.devStatus_STANDBY_OK = 1 ∧
              (∀ p, p < 8 → (u.link p).st ≠ .reset) ∧ (s.imgBar (s.slot s.pref) = none → u.sec.running = s.slot s.pref)) ∧
            (¬ok → u.fget R.secStatus F.secStatus_BOOT_STATE = 2 ∧ u.fget R.devStatus F.devStatus_STATE = 1)))) ∧
    (∀ k : BitVec 8,
      ((s.fget R.secStatus F.secStatus_BOOT_STATE ≠ 1 ∨ s.sealed = true ∨ s.enr.failed = true) → Ends (.firmwareStart k) s (· = s)) ∧
      (s.fget R.secStatus F.secStatus_BOOT_STATE = 1 → s.sealed = false → s.enr.failed = false → s.pins.thermtrip = false →
        s.ras.contained = false → Ends (.firmwareStart k) s fun u => u.sealed = true ∧
          u.fget R.devStatus F.devStatus_STATE = 3 ∧ u.enr.readySeen = true ∧ u.ras.epoch = s.ras.epoch + 1 ∧
          u.reg R.ldgEpoch = BitVec.ofNat 64 (s.ras.epoch + 1) ∧ u.ras.epochOpen = true)) ∧
    (let a := s.fget R.devStatus F.devStatus_ACTIVE_STW
     ∀ c ∈ [Instr.watchdogExpiry, Instr.machineCheck],
      (s.fget R.devStatus F.devStatus_STATE < 2 → Ends c s (· = s)) ∧
      (2 ≤ s.fget R.devStatus F.devStatus_STATE → s.fget R.devStatus F.devStatus_STANDBY_OK = 0 → s.ras.queue.length < 256 →
        Ends c s fun u => u.ras.contained = true ∧ u.fget R.devStatus F.devStatus_STATE = 4 ∧
          ∃ r : FaultRec, u.ras.queue = s.ras.queue ++ [r] ∧ r.code = 0x0A02 ∧ r.cls = 5) ∧
      (2 ≤ s.fget R.devStatus F.devStatus_STATE → s.fget R.devStatus F.devStatus_STANDBY_OK = 1 → s.ras.queue.length < 224 →
        (∀ j ∈ s.stw.journal, (s.chan j.chan).broken = none) →
        Ends c s fun u => u.fget R.devStatus F.devStatus_ACTIVE_STW = 1 - a ∧ u.fget R.devStatus F.devStatus_STANDBY_OK = 0 ∧
          u.fget R.devEvent F.devEvent_SWITCHOVER = 1 ∧ u.tiles = s.tiles ∧ u.prog = s.prog ∧
          ∃ r : FaultRec, u.ras.queue = s.ras.queue ++ [r] ∧ r.code = 0x0A01 ∧ r.cls = 1)) ∧
    (∀ (ch : Fin 64) (c : Cmd) (z : State), s.asked ch laySwitchover c z →
      (z.fget R.devStatus F.devStatus_STANDBY_OK = 0 → Ends (.stewardSwitchover ch) s fun u => z.replied u c 0x0300 0 []) ∧
      (z.fget R.devStatus F.devStatus_STANDBY_OK = 1 → (∀ j ∈ z.stw.journal, j.chan = ch.val) → z.ras.queue.length < 224 →
        Ends (.stewardSwitchover ch) s fun u => ∃ y : State, y.replied u c 0 0 [] ∧
          y.fget R.devStatus F.devStatus_ACTIVE_STW = 1 - z.fget R.devStatus F.devStatus_ACTIVE_STW ∧
          y.fget R.devStatus F.devStatus_STANDBY_OK = 0 ∧ y.fget R.devEvent F.devEvent_SWITCHOVER = 1 ∧ y.tiles = z.tiles ∧
          ∃ r : FaultRec, y.ras.queue = z.ras.queue ++ [r] ∧ r.code = 0x0A01 ∧ r.cls = 1))

/-- For every row of the command tables (R467): the row changes nothing unless firmware serves and its channel is the next
in round robin after the last one served; a request with another listed opcode is left; an aborted notice that came
back is consumed; an opcode no table lists is answered BAD_ARG, the notice opcode 0x0610 NOT_PERMITTED; then, in this order, an identity not permitted
NOT_PERMITTED, a length or bulk form that does not fit BAD_LENGTH, reserved fields or values out of range BAD_ARG, and
in FAULTED every command but the nine of R467 DEVICE_FAULT, each answered with nothing else changed; a piece of inbound bulk
data that is not the last is held and answered with the offset of the next, one out of order BAD_ARG; a further piece of a result is
answered from the result held, of none BAD_ARG. TAKE notes the channel and clears its MSG bit. (The channel's ledger is right, R514.) -/
def Obligations.CommandChecks : Prop :=
  ∀ (s : State) (ch : Fin 64) (host : List Byte) (lv : List (List Byte)) (x : QExt) (r : Instr × Layout),
    r ∈ ([(.devInfo ch, layDevInfo), (.devStatus ch, layDevStatus), (.faultLogRead ch, layLogRead), (.faultAck ch, layLogAck),
       (.timeRoleSet ch, layTimeRole), (.timeStatus ch, layTimeStatus), (.trigSchedule ch, layTrig),
       (.captRead ch, layCapt), (.almanacLoad ch host, layAlmanac), (.almanacActivate ch, layActivate),
       (.discoverReport ch, layDiscover), (.portOpen ch, layPortOpen), (.portClose ch, layPortClose),
       (.portDrain ch, layPortDrain), (.progLoad ch host, layLoad), (.progArm ch, layArm), (.progStart ch, layStart),
       (.progStop ch, layStop), (.progStatus ch, layProgStatus), (.detourSelect ch, layDetour), (.epochFlip ch, layFlip),
       (.trustEnroll ch host, layTrustEnroll), (.weightManifestLoad ch host, layManifest), (.shardFetch ch lv, layFetch),
       (.shardServe ch, layServe), (.shardStatus ch, layShardStatus), (.reqSubmit ch, laySubmit),
       (.reqStatus ch, layReqStatus), (.reqCancel ch, layCancel), (.dmaCopy ch, layCopy), (.memScrub ch, layScrub),
       (.energyBudgetSet ch, layBudget), (.energyReport ch, layReport), (.retuneRequest ch, layRetune),
       (.repairStatus ch, layRepair), (.tileRetire ch, layTileRetire), (.laneRetire ch, layLaneRetire),
       (.hbmRowRepair ch, layRowRepair), (.stewardSwitchover ch, laySwitchover), (.ledgerAudit ch, layAudit),
       (.telemetryRead ch, layTelemetry), (.telemetryStream ch, layStream), (.attest ch, layAttest),
       (.fwUpdateStage ch host, layStage), (.fwUpdateCommit ch, layCommit), (.diagRead ch x, layDiagRead),
       (.diagWrite ch x, layDiagWrite)] : List (Instr × Layout)) →
    let n := ch.val
    let c := s.cmdAt n
    let z := s.takeRequest n
    let l := r.2
    let mayAsk := l.by_.contains c.who = true ∧ ¬(c.opcode = 0x0F01 ∧ c.who = 1 ∧ s.cfg.diagHost = false)
    ((s.serving = false ∨ s.nextWaiting ≠ some n) → Ends r.1 s (· = s)) ∧
    (s.serving = true → s.nextWaiting = some n → (s.chan n).broken = none →
      ((∃ j, j < 64 ∧ n = (s.stw.lastTaken + 1 + j) % 64 ∧ s.waits n = true ∧
        ∀ i, i < j → s.waits ((s.stw.lastTaken + 1 + i) % 64) = false) ∧
      z.chan n = { s.chan n with taken := true } ∧ (∀ m, m ≠ n → z.chan m = s.chan m) ∧ z.stw.lastTaken = n ∧
      (∀ b, b < 64 → (z.reg (R.dblStatusN n)).getLsbD b = (b != 16 && (s.reg (R.dblStatusN n)).getLsbD b))) ∧
      (c.aborted = true → Ends r.1 s fun u => (u.chan n).st = 0 ∧ (∀ m, m ≠ n → u.chan m = s.chan m) ∧
        u = { s with regs := u.regs, stw := { s.stw with chans := u.stw.chans, msix := u.stw.msix, lastTaken := n } }) ∧
      (c.aborted = false →
        (c.opcode ≠ l.opcode → opcodes.contains c.opcode = true → Ends r.1 s (· = s)) ∧
        (opcodes.contains c.opcode = false → c.opcode ≠ 0x0610 → Ends r.1 s fun u => z.replied u c 0x0100 0 []) ∧
        (c.opcode = 0x0610 → Ends r.1 s fun u => z.replied u c 0x0300 0 []) ∧
        (c.opcode = l.opcode →
          (¬mayAsk → Ends r.1 s fun u => z.replied u c 0x0300 0 []) ∧
          (mayAsk → l.lengthOk c = false → Ends r.1 s fun u => z.replied u c 0x0101 0 []) ∧
          (mayAsk → l.lengthOk c = true → l.argsOk c = false → Ends r.1 s fun u => z.replied u c 0x0100 0 []) ∧
          (mayAsk → l.lengthOk c = true → l.argsOk c = true → s.fget R.devStatus F.devStatus_STATE = 4 →
            l.opcode ∉ [0x0101, 0x0102, 0x0103, 0x0104, 0x0901, 0x0A02, 0x0802, 0x0B01, 0x0F01] →
            Ends r.1 s fun u => z.replied u c 0x0800 0 []) ∧
          (∀ m f, l.bulk = .into m f → z.firstFail l c = none →
            (∀ next e, z.inbound c host = .more next e → Ends r.1 s fun u => e.replied u c 0 (argAt 16 8 next) []) ∧
            (∀ e, z.inbound c host = .wrong e → Ends r.1 s fun u => e.replied u c 0x0100 0 [])) ∧
          (∀ m, l.bulk = .outof m → z.firstFail l c = none → c.mode = 2 → 0 < c.bulkAddr →
            let k := tget noBulk z.stw.bulkOut (n + 64 * l.opcode)
            let known := k.opcode = c.opcode ∧ k.tag = c.tag ∧ c.bulkAddr < k.total
            (known → Ends r.1 s fun u => z.replied u c 0 (argAt 24 8 k.total) ((k.bytes.drop c.bulkAddr).take 4032)) ∧
            (¬known → Ends r.1 s fun u => z.replied u c 0x0100 0 [])))))

/-- Once the checks of R467 pass: DEV_INFO answers the identity body, in mode 1 with the certificate in host memory, in mode 2 the
certificate piece by piece;
DEV_STATUS, TIME_STATUS the words they name; FAULT_LOG_READ the records from the first index still held; FAULT_ACK
moves the acknowledged index forward only, an index not yet given BAD_ARG; TIME_ROLE_SET with both master bits, a
parent out of range or a bad epoch BAD_ARG, with a program armed NOT_PERMITTED, else the role of NGT_ROLE, a new epoch
from 0 where asked; TRIG_SCHEDULE outside a pulse, for an instant to come, sets TIME and CTL together, an impossible
width BAD_ARG; CAPT_READ pops up to the entries asked and clears OVERFLOW. Nothing but what is named and the reply
changes. -/
def Obligations.DeviceCommands : Prop :=
  ∀ (s z : State) (ch : Fin 64) (c : Cmd),
    (s.asked ch layDevInfo c z →
      let cert := (List.range Config.certificateLen).map Config.certificate
      let fresh := z.dropResult (ch.val + 64 * 0x0101)
      (c.mode = 0 → Ends (.devInfo ch) s fun u => fresh.replied u c 0 0 z.infoBody) ∧
      (c.mode = 1 → c.bulkAddr ≠ 0 → z.bme = true → cert.length ≤ c.bulkLen → Ends (.devInfo ch) s fun u =>
        (z.toHostMem c.bulkAddr cert).replied u c 0 0 z.infoBody) ∧
      (c.mode = 1 → c.bulkAddr ≠ 0 → c.bulkLen < cert.length → Ends (.devInfo ch) s fun u => z.replied u c 0x0101 0 []) ∧
      (c.mode = 2 → c.bulkAddr = 0 → Ends (.devInfo ch) s fun u =>
        let e := fresh.keepResult (ch.val + 64 * 0x0101)
          { opcode := 0x0101, tag := c.tag, total := cert.length, bytes := cert, since := z.ns }
        e.replied u c 0 (argAt 24 8 cert.length) (cert.take 4032)) ∧
      (∀ k, c.mode = 2 → 0 < c.bulkAddr → k = tget noBulk z.stw.bulkOut (ch.val + 64 * 0x0101) → k.opcode = 0x0101 → k.tag = c.tag →
        c.bulkAddr < k.total → Ends (.devInfo ch) s fun u =>
          z.replied u c 0 (argAt 24 8 k.total) ((k.bytes.drop c.bulkAddr).take 4032))) ∧
    (s.asked ch layDevStatus c z → Ends (.devStatus ch) s fun u => z.replied u c 0 0
      (leBytes 8 (z.fw R.devStatus) ++ leBytes 8 (z.fw R.ngtStatus) ++ leBytes 8 (z.fw R.topStatus) ++ leBytes 1 z.progCode ++
        leBytes 1 0 ++ leBytes 2 z.busyReqs ++ leBytes 8 z.ras.nextIndex ++ leBytes 8 (z.ras.nextIndex - z.ackOf c.who))) ∧
    (s.asked ch layLogRead c z → Ends (.faultLogRead ch) s fun u =>
      let first := max (c.a 0 8) z.oldestIndex
      let rs := (z.ras.log.drop (first - z.oldestIndex)).take (c.a 8 1)
      z.replied u c 0 (argAt 0 8 (first + rs.length) + argAt 8 8 z.oldestIndex) (rs.flatMap FaultRec.bytes)) ∧
    (s.asked ch layLogAck c z →
      (z.ras.nextIndex < c.a 0 8 → Ends (.faultAck ch) s fun u => z.replied u c 0x0100 0 []) ∧
      (c.a 0 8 ≤ z.ras.nextIndex → Ends (.faultAck ch) s fun u => ∃ e : State,
        e.replied u c 0 (argAt 0 8 (max (c.a 0 8) (z.ackOf c.who))) [] ∧ e.ackOf c.who = max (c.a 0 8) (z.ackOf c.who) ∧
        (∀ w, w ≠ c.who → e.ackOf w = z.ackOf w) ∧ e = { z with ras := { z.ras with acks := e.ras.acks } })) ∧
    (s.asked ch layTimeRole c z →
      let r := c.a 0 1
      let bad := (bit r 0 = true ∧ bit r 1 = true) ∨ parentOk (c.a 1 1 % 16) = false ∨ parentOk (c.a 1 1 / 16) = false ∨
        (c.a 2 1 = 1 ∧ (bit r 0 = false ∨ c.a 8 8 = 0))
      (bad → Ends (.timeRoleSet ch) s fun u => z.replied u c 0x0100 0 []) ∧
      (¬bad → z.armed = true → Ends (.timeRoleSet ch) s fun u => z.replied u c 0x0300 0 []) ∧
      (¬bad → z.armed = false → Ends (.timeRoleSet ch) s fun u => ∃ e : State, e.replied u c 0 (argAt 0 8 (e.fw R.ngtRole)) [] ∧
        e.fget R.ngtRole F.ngtRole_MASTER_A = b2n (bit r 0) ∧ e.fget R.ngtRole F.ngtRole_MASTER_B = b2n (bit r 1) ∧
        e.fget R.ngtRole F.ngtRole_PPS_A_USE = b2n (bit r 2) ∧ e.fget R.ngtRole F.ngtRole_PPS_B_USE = b2n (bit r 3) ∧
        e.fget R.ngtRole F.ngtRole_PARENT_A = c.a 1 1 % 16 ∧ e.fget R.ngtRole F.ngtRole_PARENT_B = c.a 1 1 / 16 ∧
        (c.a 2 1 = 1 → e.ngt.now = 0 ∧ e.reg R.ngtEpochId = BitVec.ofNat 64 (c.a 8 8)) ∧
        (c.a 2 1 = 0 → e.ngt.now = z.ngt.now ∧ e.reg R.ngtEpochId = z.reg R.ngtEpochId))) ∧
    (s.asked ch layTimeStatus c z → Ends (.timeStatus ch) s fun u => z.replied u c 0 0
      (([R.ngtStatus, R.ngtNow, R.ngtEpochId, R.ngtRate, R.ngtOffsetD 0, R.ngtOffsetD 1, R.ngtHoldover].flatMap fun o =>
          leBytes 8 (z.fw o)) ++
        (List.range 8).flatMap fun p => leBytes 8 (z.fw (R.ngtPortNDelay p)) ++ leBytes 8 (z.fw (R.ngtPortNAsym p)))) ∧
    (s.asked ch layTrig c z →
      let n := c.a 0 1
      let bad := (c.a 1 1 = 2 ∧ c.a 16 8 ≤ c.a 4 2) ∨ (c.a 1 1 ≠ 0 ∧ c.a 4 2 = 0)
      (bad → Ends (.trigSchedule ch) s fun u => z.replied u c 0x0100 0 []) ∧
      (¬bad → (z.trig n).pulseEnd = none → z.ngt.now ≤ (c.a 8 8) <<< 48 → Ends (.trigSchedule ch) s fun u => ∃ e : State,
        e.replied u c 0 (argAt 0 8 (e.fw (R.ngtTrigNCtl n))) [] ∧ (e.reg (R.ngtTrigNTime n)).toNat = c.a 8 8 ∧
        e.trigMode n = c.a 1 1 ∧ e.fget (R.ngtTrigNCtl n) F.ngtTrigNCtl_POLARITY = c.a 2 1 ∧
        e.fget (R.ngtTrigNCtl n) F.ngtTrigNCtl_WIDTH_NS =
          (if c.a 4 2 = 0 then z.fget (R.ngtTrigNCtl n) F.ngtTrigNCtl_WIDTH_NS else c.a 4 2) ∧ e.fget (R.ngtTrigNCtl n) F.ngtTrigNCtl_PERIOD_NS = c.a 16 8 ∧
        (∀ m, m ≠ n → e.trig m = z.trig m) ∧ e.ngt.now = z.ngt.now)) ∧
    (s.asked ch layCapt c z → Ends (.captRead ch) s fun u =>
      let n := c.a 0 1
      let es := (z.capt n).fifo.take (c.a 1 1)
      ∃ e : State, e.replied u c 0 (argAt 0 4 (z.fget (R.ngtCaptNCtl n) F.ngtCaptNCtl_OVERFLOW)) (es.flatMap CaptEntry.bytes) ∧
        (e.capt n).fifo = (z.capt n).fifo.drop (c.a 1 1) ∧ (e.capt n).seq = (z.capt n).seq ∧
        (∀ m, m ≠ n → e.capt m = z.capt m) ∧ e.fget (R.ngtCaptNCtl n) F.ngtCaptNCtl_OVERFLOW = 0 ∧
        z.onlyRegs [R.ngtCaptNCtl n] { e with ngt := z.ngt })

/-- Once the checks of R467 pass: ALMANAC_LOAD takes its bytes from host memory or piece by piece (R472), a wrong piece
discards the assembly with BAD_ARG, a failed transfer ends it ABORTED, a second load is BUSY_DEFERRED;
ALMANAC_ACTIVATE of the staged almanac puts it in force with coordinate and time roles, without an own record it
quarantines every port, and is refused where R401 says; DISCOVER_REPORT answers eight port entries; PORT_OPEN,
PORT_CLOSE and PORT_DRAIN obey R406 and R408 port by port, with the status of the first port that fails;
PORT_DRAIN_TIMEOUT closes and quarantines a port that drains, OK if it is empty, ABORTED if not. -/
def Obligations.TopologyCommands : Prop :=
  ∀ (s z e : State) (ch : Fin 64) (c : Cmd) (host bs : List Byte),
    (s.asked ch layAlmanac c z →
      (c.mode = 1 → z.bme = true → host.length = c.bulkLen → z.inbound c host = .whole host) ∧
      (c.mode = 1 → (z.bme = false ∨ host.length ≠ c.bulkLen) → z.roomFor c → z.busyOp 0x0301 (fun _ => true) = false →
        Ends (.almanacLoad ch host) s fun u => z.held u c c.body (some 0x0400) 0) ∧
      (c.mode = 2 → tget noBulk z.stw.bulkIn ch.val = noBulk → c.bulkAddr = 0 → c.len = c.bulkLen →
        z.inbound c host = .whole c.body) ∧
      (c.mode = 2 → tget noBulk z.stw.bulkIn ch.val = noBulk → c.bulkAddr = 0 → c.len < c.bulkLen →
        Ends (.almanacLoad ch host) s fun u => ∃ y : State, y.replied u c 0 (argAt 16 8 c.len) [] ∧
          tget noBulk y.stw.bulkIn ch.val = { opcode := 0x0301, tag := c.tag, total := c.bulkLen, bytes := c.body, since := z.ns } ∧
          y = { z with stw := { z.stw with bulkIn := y.stw.bulkIn } }) ∧
      (c.mode = 2 → c.bulkAddr ≠ (tget noBulk z.stw.bulkIn ch.val).bytes.length → Ends (.almanacLoad ch host) s fun u =>
        ∃ y : State, y.replied u c 0x0100 0 [] ∧ tget noBulk y.stw.bulkIn ch.val = noBulk) ∧
      (z.gotBulk c host bs e → z.roomFor c →
        (z.busyOp 0x0301 (fun _ => true) = true → Ends (.almanacLoad ch host) s fun u => e.replied u c 0x0200 0 []) ∧
        (z.busyOp 0x0301 (fun _ => true) = false → bs ≠ [] → Ends (.almanacLoad ch host) s fun u => e.held u c bs none 0))) ∧
    (s.asked ch layActivate c z →
      (z.top.staged = none → Ends (.almanacActivate ch) s fun u => z.replied u c 0x0300 0 []) ∧
      (∀ a, z.top.staged = some a →
        (z.busyOp 0x0301 (fun _ => true) = true → Ends (.almanacActivate ch) s fun u => z.replied u c 0x0200 0 []) ∧
        (z.busyOp 0x0301 (fun _ => true) = false →
          ((a.seq ≠ c.a 0 4 ∨ (z.prog.st ≠ .none ∧ z.keepsFootprint a = false)) →
            Ends (.almanacActivate ch) s fun u => z.replied u c 0x0300 0 []) ∧
          (a.seq = c.a 0 4 → (z.prog.st = .none ∨ z.keepsFootprint a = true) → Ends (.almanacActivate ch) s fun u =>
            ∃ y : State, y.replied u c 0 (argAt 0 4 a.seq + argAt 4 1 (y.fget R.topStatus F.topStatus_ADMIT)) [] ∧
              y.top.active = some a ∧ y.top.staged = none ∧ y.fget R.topAlmanacSeq F.topAlmanacSeq_ACTIVE = a.seq % 2 ^ 32 ∧
              y.fget R.topAlmanacSeq F.topAlmanacSeq_STAGED = 0 ∧ y.reg R.topAlmanacId = BitVec.ofNat 64 a.id ∧
              (a.own = none → y.fget R.topStatus F.topStatus_COORD_VALID = 0 ∧ y.fget R.topStatus F.topStatus_ADMIT = 0 ∧
                ∀ p, p < 8 → y.fget (R.lnkCtl p) F.lnkCtl_QUARANTINE = 1) ∧
              (∀ d, a.own = some d → (bit d.time 0 = false ∨ bit d.time 1 = false) → y.fget R.topStatus F.topStatus_COORD_VALID = 1 ∧
                y.fget R.ngtRole F.ngtRole_MASTER_A = b2n (bit d.time 0) ∧
                y.fget R.ngtRole F.ngtRole_MASTER_B = b2n (bit d.time 1)))))) ∧
    (s.asked ch layDiscover c z → Ends (.discoverReport ch) s fun u => z.replied u c 0 0 ((List.range 8).flatMap z.portEntry)) ∧
    (s.asked ch layPortOpen c z →
      let m := c.a 0 1
      let codes := portCodes z.openBar m
      (z.portsHeld m = true → Ends (.portOpen ch) s fun u => z.replied u c 0x0200 0 []) ∧
      (z.portsHeld m = false → z.prog.variant = 0 → Ends (.portOpen ch) s fun u => ∃ y : State,
        y.replied u c (firstStatus codes m) (argAt 0 2 codes) [] ∧
        (∀ p, p < 8 → bit m p = true → z.outcome p = 1 → z.portUp p = true → z.placed = true →
          (z.ngtState = ngtLocked ∨ z.ngtState = ngtMaster) → (z.link p).gate ≠ .leaving →
          (y.link p).gate = .opened ∧ y.fget (R.lnkCtl p) F.lnkCtl_QUARANTINE = 0 ∧ y.fget (R.lnkCtl p) F.lnkCtl_GATE = 1 ∧
            y.fget R.topStatus F.topStatus_ADMIT = 2) ∧
        (∀ p, p < 8 → (bit m p = false ∨ z.openBar p ≠ 0) → y.link p = z.link p ∧ y.reg (R.lnkCtl p) = z.reg (R.lnkCtl p))) ∧
      (∀ p, p < 8 → z.outcome p ≠ 1 → z.openBar p = 2) ∧
      (∀ p, p < 8 → z.outcome p = 1 → (z.portUp p = false ∨ z.placed = false ∨ (z.ngtState ≠ ngtLocked ∧ z.ngtState ≠ ngtMaster)) →
        z.openBar p = 1)) ∧
    (s.asked ch layPortClose c z →
      let m := c.a 0 1
      (z.portsHeld m = true → Ends (.portClose ch) s fun u => z.replied u c 0x0200 0 []) ∧
      (z.portsHeld m = false → c.a 1 1 = 0 → (∃ p, p < 8 ∧ bit m p = true ∧ z.mapOn p = true) →
        Ends (.portClose ch) s fun u => z.replied u c 0x0300 0 []) ∧
      (z.portsHeld m = false → (c.a 1 1 = 1 ∨ ∀ p, p < 8 → bit m p = true → z.mapOn p = false) →
        Ends (.portClose ch) s fun u => ∃ y : State, y.replied u c 0 (argAt 0 1 m) [] ∧
          (∀ p, p < 8 → bit m p = true → (y.link p).gate ≠ .opened ∧ y.fget (R.lnkCtl p) F.lnkCtl_GATE = 0) ∧
          (∀ p, p < 8 → bit m p = false → y.link p = z.link p ∧ y.reg (R.lnkCtl p) = z.reg (R.lnkCtl p)))) ∧
    (s.asked ch layPortDrain c z → z.roomFor c →
      let m := c.a 0 1
      (z.portsHeld m = true → Ends (.portDrain ch) s fun u => z.replied u c 0x0200 0 []) ∧
      (z.portsHeld m = false → Ends (.portDrain ch) s fun u => ∃ y : State, y.held u c c.body none 0 ∧
        (∀ p, p < 8 → (y.link p).draining =
          if bit m p && !z.mapOn p then some z.ngt.now else (z.link p).draining))) ∧
    (∀ p : Port,
      ((s.link p.val).draining = none → Ends (.portDrainTimeout p) s (· = s)) ∧
      (∀ t, (s.link p.val).draining = some t →
        let w := s.reach (t + s.streamTimeout)
        ((w.portEmpty p.val = true ∨ t + s.streamTimeout ≤ w.ngt.now) → Ends (.portDrainTimeout p) s fun u =>
          (u.link p.val).draining = none ∧ (u.link p.val).gate ≠ .opened ∧ u.fget (R.lnkCtl p.val) F.lnkCtl_GATE = 0 ∧
          u.fget (R.lnkCtl p.val) F.lnkCtl_QUARANTINE = 1 ∧ (∀ q, q ≠ p.val → u.link q = s.link q) ∧
          u.stw.cmds = s.stw.cmds.map fun x => if x.opcode = 0x0306 ∧ bit (leAt x.args 0 1) p.val = true ∧
            field x.progress (2 * p.val) 2 = 2
            then { x with progress := putField x.progress (2 * p.val) 2 (if w.portEmpty p.val then 0 else 3) } else x) ∧
        (w.portEmpty p.val = false → w.ngt.now < t + s.streamTimeout → Ends (.portDrainTimeout p) s (· = w))))

/-- Once the checks of R467 pass: PROG_LOAD, PROG_ARM, PROG_START and PROG_STOP are refused while the program is held, in
a state that does not allow them, or on a device that lost a unit; accepted, they take the program to LOADING, ARMING,
STARTING (the meridians begin) and STOPPING at the next meridian, or stop at once a program that does not run.
PROG_STATUS answers the program. DETOUR_SELECT writes a variant into the version not in force. EPOCH_FLIP requests or
cancels the flip of R326. -/
def Obligations.ProgramCommands : Prop :=
  ∀ (s z e : State) (ch : Fin 64) (c : Cmd) (host bs : List Byte),
    (s.asked ch layLoad c z → z.roomFor c →
      (z.gotBulk c host bs e → z.progHeld = true → Ends (.progLoad ch host) s fun u => e.replied u c 0x0200 0 []) ∧
      (z.gotBulk c host bs e → z.progHeld = false → (z.anyFailed = true ∨ z.anyPcLost = true) →
        Ends (.progLoad ch host) s fun u => e.replied u c 0x0800 0 []) ∧
      (z.gotBulk c host bs e → z.progHeld = false → z.anyFailed = false → z.anyPcLost = false → z.prog.st ≠ .none →
        Ends (.progLoad ch host) s fun u => e.replied u c 0x0300 1 []) ∧
      (z.gotBulk c host bs e → z.progHeld = false → z.anyFailed = false → z.anyPcLost = false → z.prog.st = .none → bs ≠ [] →
        Ends (.progLoad ch host) s fun u => State.held { e with prog := { e.prog with st := .loading } } u c bs none 0)) ∧
    (s.asked ch layArm c z → z.roomFor c →
      (z.progHeld = true → Ends (.progArm ch) s fun u => z.replied u c 0x0200 0 []) ∧
      (z.progHeld = false → z.anyFailed = true → Ends (.progArm ch) s fun u => z.replied u c 0x0800 0 []) ∧
      (z.progHeld = false → z.anyFailed = false → z.prog.st ≠ .loaded → Ends (.progArm ch) s fun u => z.replied u c 0x0300 0 []) ∧
      (z.progHeld = false → z.anyFailed = false → z.prog.st = .loaded → Ends (.progArm ch) s fun u =>
        State.held { z with prog := { z.prog with st := .arming } } u c c.body none 0)) ∧
    (s.asked ch layStart c z → z.roomFor c →
      let t := c.a 0 6
      let per := z.progPeriod
      let heldNow := z.prog.startPend = true ∨ z.busyOp 0x0401 (fun _ => true) = true ∨ z.busyOp 0x0404 (fun _ => true) = true ∨
        z.prog.detour ≠ none
      let ready := z.prog.st = .loaded ∨ z.prog.st = .arming ∨ z.prog.st = .armed
      let bound := (z.top.active.map (·.controlBoundNs)).getD 0
      let late := t < (if per = 0 then 0 else z.ns / per) + 4
      (heldNow → Ends (.progStart ch) s fun u => z.replied u c 0x0200 0 []) ∧
      (¬heldNow → ¬ready → Ends (.progStart ch) s fun u => z.replied u c 0x0300 0 []) ∧
      (¬heldNow → ready → late → Ends (.progStart ch) s fun u => z.replied u c 0x0100 0 []) ∧
      (¬heldNow → ready → ¬late → 2 * per < bound →
        Ends (.progStart ch) s fun u => z.replied u c 0x0300 0 []) ∧
      (¬heldNow → ready → ¬late → bound ≤ 2 * per →
        Ends (.progStart ch) s fun u => ∃ y : State, y.held u c c.body none 0 ∧ y.prog.startPend = true ∧ y.prog.startAt = t ∧
          y.prog.failed = [] ∧ y.prog.failedCount = 0 ∧ y.prog.st = (if z.prog.st = .armed then .starting else z.prog.st) ∧
          y.valid = true ∧ y.fget R.ngtPeriod F.ngtPeriod_N = z.prog.hdr.periodN % 2 ^ 15 ∧
          z.onlyRegs [R.ngtPeriod] { y with prog := z.prog })) ∧
    (s.asked ch layStop c z → z.roomFor c →
      let unload := bit (c.a 0 1) 0
      (z.prog.st = .none → Ends (.progStop ch) s fun u => z.replied u c 0x0300 0 []) ∧
      (z.prog.st ≠ .none → (z.busyOp 0x0404 (fun _ => true) = true ∨ z.prog.detour ≠ none) →
        Ends (.progStop ch) s fun u => z.replied u c 0x0200 0 []) ∧
      (z.busyOp 0x0404 (fun _ => true) = false → z.prog.detour = none →
        (z.prog.st = .running → z.valid = true → Ends (.progStop ch) s fun u => ∃ y : State, y.held u c c.body none 0 ∧
          y.prog.st = .stopping ∧ y.prog.stopAt = some (match z.prog.stopAt with | some k => min k (z.transit + 1) | none => z.transit + 1) ∧
          y.prog.unload = unload ∧ y = { z with prog := y.prog }) ∧
        (z.prog.st = .stopping → Ends (.progStop ch) s fun u =>
          State.held { z with prog := { z.prog with unload := z.prog.unload || unload } } u c c.body none 0) ∧
        (z.prog.st = .armed ∨ z.prog.st = .starting ∨ z.prog.st = .loaded ∨ z.prog.st = .arming → Ends (.progStop ch) s fun u =>
          ∃ y : State, y.held u c c.body (some 0) 0 ∧ y.prog.st = (if unload then .none else .loaded) ∧ y.prog.startPend = false) ∧
        (z.prog.st = .loading → Ends (.progStop ch) s fun u => ∃ y : State, y.held u c c.body (some 0) 0 ∧ y.prog.st = .none))) ∧
    (s.asked ch layProgStatus c z → Ends (.progStatus ch) s fun u => z.replied u c 0 0
      (leBytes 1 z.progCode ++ leBytes 8 z.prog.hdr.programId ++ leBytes 6 z.prog.startAt ++ leBytes 2 z.prog.variant ++
        leBytes 8 z.prog.failedCount ++ leBytes 2 z.prog.lastStatus ++ leBytes 2 z.prog.lastCode)) ∧
    (s.asked ch layDetour c z →
      let out := z.prog.st ≠ .none ∧ z.prog.hdr.variants < c.a 0 2
      (out → Ends (.detourSelect ch) s fun u => z.replied u c 0x0100 0 []) ∧
      (¬out → z.progHeld = true → Ends (.detourSelect ch) s fun u => z.replied u c 0x0200 0 []) ∧
      (¬out → z.progHeld = false → z.armed = false → Ends (.detourSelect ch) s fun u => z.replied u c 0x0300 0 []) ∧
      (z.progHeld = false → z.armed = true → c.a 0 2 ≤ z.prog.hdr.variants → z.drainedNow = false →
        Ends (.detourSelect ch) s fun u => z.replied u c 0x0200 0 []) ∧
      (z.progHeld = false → z.armed = true → c.a 0 2 ≤ z.prog.hdr.variants → z.drainedNow = true →
        (∀ x ∈ z.prog.secs, x.count ≤ 2048) → Ends (.detourSelect ch) s fun u => ∃ y : State, y.replied u c 0 (argAt 0 1 (b2n !z.version)) [] ∧
          y.prog = { z.prog with inactive := c.a 0 2 } ∧ y.version = z.version ∧ y.hbm = z.hbm ∧
          (∀ p k, p < 8 → k < 2048 → y.reg (R.fabMapV p (2048 * b2n z.version + k)) = z.reg (R.fabMapV p (2048 * b2n z.version + k))) ∧
          ∀ p, if z.version then (y.tile p).tables.out1 = (z.tile p).tables.out1 else (y.tile p).tables.out0 = (z.tile p).tables.out0)) ∧
    (s.asked ch layFlip c z →
      let t := c.a 0 6
      let flip := bit (c.a 6 1) 0 = false
      (z.progHeld = true → Ends (.epochFlip ch) s fun u => z.replied u c 0x0200 0 []) ∧
      (z.progHeld = false → (∃ p, p < 8 ∧ z.fabOn p = true) →
        (flip → z.valid = true → z.transit + 4 ≤ t → z.drainCheck.fget R.fabEpoch F.fabEpoch_DRAINED = 1 →
          z.fget R.fabEpoch F.fabEpoch_PENDING = 0 → Ends (.epochFlip ch) s fun u => ∃ y : State,
            y.replied u c 0 (argAt 0 8 (y.fw R.fabEpoch)) [] ∧ y.fget R.fabEpoch F.fabEpoch_PENDING = 1 ∧
            y.fget R.fabEpoch F.fabEpoch_AT_TRANSIT = t ∧ z.onlyRegs [R.fabEpoch] y) ∧
        (flip → (z.valid = false ∨ t < z.transit + 4 ∨ z.fget R.fabEpoch F.fabEpoch_PENDING = 1 ∨
            z.drainCheck.fget R.fabEpoch F.fabEpoch_DRAINED = 0) → Ends (.epochFlip ch) s fun u => ∃ y : State, y.replied u c 0x0300 0 [] ∧ y.fget R.fabEpoch F.fabEpoch_REFUSED = 1 ∧
            y.fget R.fabEpoch F.fabEpoch_PENDING = z.fget R.fabEpoch F.fabEpoch_PENDING ∧ z.onlyRegs [R.fabEpoch] y) ∧
        (¬flip → Ends (.epochFlip ch) s fun u => ∃ y : State, y.replied u c 0 (argAt 0 8 (y.fw R.fabEpoch)) [] ∧
          y.fget R.fabEpoch F.fabEpoch_PENDING = 0 ∧ z.onlyRegs [R.fabEpoch] y)))

/-- Once the checks of R467 pass: REQ_SUBMIT without a live program, an input or a request queue is NOT_PERMITTED, with
every context in use QUEUE_FULL, else it allocates the lowest free context with a new generation and writes its ring
entry and the count posted; REQ_STATUS and REQ_CANCEL of an ID that names none BAD_ARG; a queued request is freed
ABORTED with its entry cleared, one in flight goes on as CANCELLING. COMPLETION_RING_READ does nothing unless a
program with a request queue runs, takes the records written, and faults on an overrun or poison. REQ_COMPLETE_POST
ends the runs that are over once FAIL_HOLD has passed and posts their notice. -/
def Obligations.RequestCommands : Prop :=
  ∀ (s z : State) (ch : Fin 64) (c : Cmd),
    (s.asked ch laySubmit c z →
      let live := (z.prog.st = .armed ∨ z.prog.st = .starting ∨ z.prog.st = .running) ∧ hasInput z.prog.secs = true
      ((¬live ∨ z.reqBase = none) → Ends (.reqSubmit ch) s fun u => z.replied u c 0x0300 0 []) ∧
      (live → z.reqBase ≠ none → (∀ i, i < 16384 → (z.req i).st ≠ .free) → Ends (.reqSubmit ch) s fun u => z.replied u c 0x0201 0 []) ∧
      (∀ b i, live → z.reqBase = some b → i < 16384 → (z.req i).st = .free → (∀ j, j < i → (z.req j).st ≠ .free) →
        z.ringRight → z.hbmBad b 8 = false → z.hbmBad (b + 0x40 + z.prog.posted % 16384 * 256) 256 = false →
        Ends (.reqSubmit ch) s fun u => ∃ y : State,
          let r := y.req i
          let k := z.prog.posted
          y.replied u c 1 (argAt 0 4 (r.id i)) [] ∧ r.st = .queued ∧ r.gen = (z.req i).gen + 1 ∧ r.chan = ch.val ∧
            r.desc = c.body ∧ r.stamp = z.ns ∧ r.ring = k ∧ r.reruns = 0 ∧ (∀ j, j ≠ i → y.req j = z.req j) ∧
            y = { z with reqs := y.reqs, prog := { z.prog with posted := k + 1 }, hbm := y.hbm } ∧
            Mem.rdNat y.hbm b 8 = (k + 1) % 2 ^ 64 ∧
            Mem.rdBytes y.hbm (b + 0x40 + k % 16384 * 256) 16 = leBytes 4 (r.id i) ++ leBytes 2 c.body.length ++ leBytes 2 0 ++
              leBytes 8 z.ns ∧
            Mem.rdBytes y.hbm (b + 0x50 + k % 16384 * 256) c.body.length = c.body ∧
            (∀ a, ¬(b ≤ a ∧ a < b + 8) → ¬(b + 0x40 + k % 16384 * 256 ≤ a ∧ a < b + 0x140 + k % 16384 * 256) →
              Mem.rd y.hbm a = Mem.rd z.hbm a))) ∧
    (s.asked ch layReqStatus c z →
      (z.named (c.a 0 4) = none → Ends (.reqStatus ch) s fun u => z.replied u c 0x0100 0 []) ∧
      (∀ i r, z.named (c.a 0 4) = some (i, r) → Ends (.reqStatus ch) s fun u => z.replied u c 0 (argAt 0 1 r.st.code +
        argAt 1 1 r.reruns + argAt 2 6 (if r.st = .inFlight ∨ r.st = .cancelling then r.inputT else 0)) [])) ∧
    (s.asked ch layCancel c z →
      (z.named (c.a 0 4) = none → Ends (.reqCancel ch) s fun u => z.replied u c 0x0100 0 []) ∧
      (∀ i r, z.named (c.a 0 4) = some (i, r) →
        (r.st = .free → Ends (.reqCancel ch) s fun u => z.replied u c 0x0100 0 []) ∧
        (∀ b, r.st = .queued → z.valid = true → z.reqBase = some b → (z.ledgersOn = false ∨ z.reqBroken = []) →
            z.hbmBad (b + 0x40 + r.ring % 16384 * 256) 4 = false → Ends (.reqCancel ch) s fun u => ∃ y : State,
          y.replied u c 0 1 [] ∧ (y.req i).st = .free ∧ (y.req i).gen = r.gen ∧ (∀ j, j ≠ i → y.req j = z.req j) ∧
            y = { z with reqs := y.reqs, reqDone := y.reqDone, hbm := y.hbm } ∧
            (∀ a, Mem.rd y.hbm a = if b + 0x40 + r.ring % 16384 * 256 ≤ a ∧ a < b + 0x44 + r.ring % 16384 * 256 then 0
              else Mem.rd z.hbm a) ∧
            y.reqDone = z.reqDone ++ [{ chan := r.chan, reqId := r.id i, status := 0x0400, reruns := r.reruns, lastT := 0,
                                        progStatus := 0 }]) ∧
        (r.st = .inFlight → Ends (.reqCancel ch) s fun u => ∃ y : State, y.replied u c 0 2 [] ∧
          y.req i = { r with st := .cancelling } ∧ (∀ j, j ≠ i → y.req j = z.req j) ∧ y = { z with reqs := y.reqs }) ∧
        (r.st = .cancelling → Ends (.reqCancel ch) s fun u => z.replied u c 0 3 []))) ∧
    ((s.running = false ∨ s.reqBase = none) → Ends .completionRingRead s (· = s)) ∧
    (∀ b, s.running = true → s.reqBase = some b →
      let w := leNat (s.hbmBytes (ringHead b) 8)
      let r := s.prog.read
      ((s.hbmBad (ringHead b) 8 = true ∨ r + 16384 < w) → s.ras.queue.length < 256 → Ends .completionRingRead s fun u =>
        ∃ f : FaultRec, f ∈ u.ras.queue ∧ f.code = 0x0C0C ∧ f.cls = 4) ∧
      (s.hbmBad (ringHead b) 16 = false → w = r → Ends .completionRingRead s fun u =>
        Mem.rdNat u.hbm (ringHead b + 8) 8 = w ∧ u = { s with hbm := u.hbm } ∧
        ∀ a, ¬(ringHead b + 8 ≤ a ∧ a < ringHead b + 16) → Mem.rd u.hbm a = Mem.rd s.hbm a) ∧
      (∀ i q, s.hbmBad (ringHead b) 16 = false → w = r + 1 → s.hbmBad (ringRec b r) 16 = false →
        s.named (leAt (s.hbmBytes (ringRec b r) 16) 0 4) = some (i, q) → (q.st = .inFlight ∨ q.st = .cancelling) →
        q.record = none → q.inputT ≤ leAt (s.hbmBytes (ringRec b r) 16) 8 8 → Ends .completionRingRead s fun u =>
          u = { s with reqs := u.reqs, hbm := u.hbm, prog := { s.prog with read := r + 1 } } ∧
          Mem.rdNat u.hbm (ringHead b + 8) 8 = w ∧
          u.req i = { q with record := some (leAt (s.hbmBytes (ringRec b r) 16) 4 2),
                             lastT := leAt (s.hbmBytes (ringRec b r) 16) 8 8, ring := r } ∧
          (∀ j, j ≠ i → u.req j = s.req j))) ∧
    ((∀ x ∈ s.reqs, x.2.chan = ch.val → s.runOver x.2 = false) → (∀ d ∈ s.reqDone, d.chan ≠ ch.val) →
      Ends (.reqCompletePost ch) s (· = s)) ∧
    (∀ i r q, s.reqs.filter (fun x => x.2.chan == ch.val && s.runOver x.2) = [(i, r)] → (∀ d ∈ s.reqDone, d.chan ≠ ch.val) →
      s.req i = r → s.holdEnd r ≤ s.ns → s.noticeChan ch.val = some q → Ends (.reqCompletePost ch) s fun u =>
        (u.req i).st = .free ∧ (u.req i).gen = r.gen ∧ (∀ j, j ≠ i → u.req j = s.req j) ∧
        (∀ m, m ≠ q → tget [] u.stw.notices m = tget [] s.stw.notices m) ∧
        u = { s with reqs := u.reqs, prog := { s.prog with done := u.prog.done }, stw := { s.stw with notices := u.stw.notices } } ∧
        ∃ n : Notice, tget [] u.stw.notices q = tget [] s.stw.notices q ++ [n] ∧ n.opcode = 0x0610 ∧ n.tag = 0 ∧ n.status = 0 ∧
          n.body = leBytes 4 1 ++ leBytes 12 0 ++ (leBytes 4 (r.id i) ++
            leBytes 2 (if r.st = .cancelling then 0x0400 else 0) ++ leBytes 1 r.reruns ++ leBytes 1 0 ++
            leBytes 6 (s.lastOf r) ++ leBytes 2 (r.record.getD 0)))

/-- TRUST_ENROLL, WEIGHT_MANIFEST_LOAD and FW_UPDATE_STAGE with their bytes complete, and ATTEST, are held in progress, a
second one of its kind but ATTEST BUSY_DEFERRED, one whose transfer failed ends ABORTED; FW_UPDATE_STAGE writes the idle slot; the first
ATTEST begins to be signed. FW_UPDATE_COMMIT commits the staged slot, confirms the trial or advances the
fuse, and is refused where R426 and R427 say; SEC_ADVANCE_WRITE raises SVN_FUSE to RUN_SVN outside a trial only.
SHARD_FETCH, SHARD_SERVE and SHARD_STATUS of an unheld manifest are BAD_ARG; an accepted fetch is added with its
sources, one whose leaf list no source gave ends ABORTED. A hashed chunk that matches its leaf is
verified, a chunk of a HOST source is written before, one that does not match records 0x0903; a chunk request not servable is declined, a
servable one goes out in 261 PUT packets, one found poisoned is no longer verified; a decline excludes the source for that chunk. -/
def Obligations.TrustAndWeightCommands : Prop :=
  ∀ (s z e : State) (ch : Fin 64) (c : Cmd) (host bs : List Byte),
    (s.asked ch layTrustEnroll c z → z.roomFor c →
      (z.gotBulk c host bs e → bs ≠ [] →
        (z.busyOp 0x0501 (fun _ => true) = true → Ends (.trustEnroll ch host) s fun u => e.replied u c 0x0200 0 []) ∧
        (z.busyOp 0x0501 (fun _ => true) = false → Ends (.trustEnroll ch host) s fun u => e.held u c bs none 0)) ∧
      (z.inbound c host = .failed → z.busyOp 0x0501 (fun _ => true) = false → Ends (.trustEnroll ch host) s fun u =>
        z.held u c c.body (some 0x0400) 0)) ∧
    (s.asked ch layManifest c z → z.roomFor c →
      (z.gotBulk c host bs e → bs ≠ [] →
        (z.busyOp 0x0502 (fun _ => true) = true → Ends (.weightManifestLoad ch host) s fun u => e.replied u c 0x0200 0 []) ∧
        (z.busyOp 0x0502 (fun _ => true) = false → Ends (.weightManifestLoad ch host) s fun u => e.held u c bs none 0)) ∧
      (z.inbound c host = .failed → z.busyOp 0x0502 (fun _ => true) = false → Ends (.weightManifestLoad ch host) s fun u =>
        z.held u c c.body (some 0x0400) 0)) ∧
    (s.asked ch layStage c z → z.roomFor c →
      (z.gotBulk c host bs e → bs ≠ [] →
        (z.busyOp 0x0B02 (fun _ => true) = true → Ends (.fwUpdateStage ch host) s fun u => e.replied u c 0x0200 0 []) ∧
        (z.busyOp 0x0B02 (fun _ => true) = false → Ends (.fwUpdateStage ch host) s fun u => ∃ y : State, y.held u c bs none 0 ∧
          y.sec.stage = none ∧ y.slot (!y.idleSlot) = z.slot (!y.idleSlot) ∧ y.slot y.idleSlot = bs ∧ y.sec.committed = false ∧
          (z.sec.committed = false → y.regs = z.regs) ∧
          (z.sec.committed = true → y.pref = !z.pref ∧ y.trial = false ∧ y.fget R.secBootCtl F.secBootCtl_TRIES = 0) ∧
          z.onlyRegs [R.secBootCtl] { y with sec := z.sec, stw := z.stw })) ∧
      (z.inbound c host = .failed → z.busyOp 0x0B02 (fun _ => true) = false → Ends (.fwUpdateStage ch host) s fun u =>
        z.held u c c.body (some 0x0400) 0)) ∧
    (s.asked ch layAttest c z → z.roomFor c → (c.mode = 1 ∨ c.bulkAddr = 0) →
      let y := if c.bulkAddr = 0 then z.dropResult (ch.val + 64 * 0x0B01) else z
      Ends (.attest ch) s fun u =>
        y.held u c (if z.busyOp 0x0B01 (fun _ => true) then c.body else y.reportBody c.body) none 0) ∧
    (s.asked ch layCommit c z →
      let confirm := bit (c.a 0 1) 0
      let adv := bit (c.a 0 1) 1
      let busy := z.busyOp 0x0B02 (fun _ => true)
      let fuseOk := z.sec.svnFuse < z.fget R.secStatus F.secStatus_RUN_SVN
      (confirm = false → adv = false → busy = true → Ends (.fwUpdateCommit ch) s fun u => z.replied u c 0x0200 0 []) ∧
      (confirm = false → adv = false → busy = false → z.sec.stage = none → Ends (.fwUpdateCommit ch) s fun u =>
        z.replied u c 0x0300 0 []) ∧
      (∀ k, confirm = false → adv = false → busy = false → z.sec.stage = some k → Ends (.fwUpdateCommit ch) s fun u =>
        ∃ y : State, y.replied u c 0 (argAt 0 8 (y.reg R.secBootCtl).toNat) [] ∧ y.pref = k ∧ y.trial = true ∧
          y.fget R.secBootCtl F.secBootCtl_TRIES = 0 ∧ y.sec = { z.sec with committed := true } ∧
          z.onlyRegs [R.secBootCtl] { y with sec := z.sec }) ∧
      (confirm = true → adv = false → busy = true → Ends (.fwUpdateCommit ch) s fun u => z.replied u c 0x0300 0 []) ∧
      (confirm = true → adv = false → busy = false → Ends (.fwUpdateCommit ch) s fun u => ∃ y : State,
        y.replied u c 0 (argAt 0 8 (y.reg R.secBootCtl).toNat) [] ∧ y.pref = z.pref ∧ y.trial = false ∧
          y.fget R.secBootCtl F.secBootCtl_TRIES = 0 ∧ z.onlyRegs [R.secBootCtl] y) ∧
      (confirm = false → adv = true → (z.trial = true ∨ ¬fuseOk) → Ends (.fwUpdateCommit ch) s fun u => z.replied u c 0x0300 0 []) ∧
      (confirm = false → adv = true → z.trial = false → fuseOk → Ends (.fwUpdateCommit ch) s fun u => ∃ y : State,
        y.replied u c 0 (argAt 0 8 (y.reg R.secBootCtl).toNat) [] ∧
          y = { z with sec := { z.sec with svnFuse := z.fget R.secStatus F.secStatus_RUN_SVN } })) ∧
    (s.asked ch layCommit c z → bit (c.a 0 1) 0 = true → bit (c.a 0 1) 1 = true →
      let busy := z.busyOp 0x0B02 (fun _ => true)
      let fuseOk := z.sec.svnFuse < z.fget R.secStatus F.secStatus_RUN_SVN
      ((busy = true ∨ ¬fuseOk) → Ends (.fwUpdateCommit ch) s fun u => z.replied u c 0x0300 0 []) ∧
      (busy = false → fuseOk → Ends (.fwUpdateCommit ch) s fun u => ∃ y : State,
        y.replied u c 0 (argAt 0 8 (y.reg R.secBootCtl).toNat) [] ∧ y.trial = false ∧
          y.fget R.secBootCtl F.secBootCtl_TRIES = 0 ∧ y.sec = { z.sec with svnFuse := z.fget R.secStatus F.secStatus_RUN_SVN } ∧
          z.onlyRegs [R.secBootCtl] { y with sec := z.sec })) ∧
    (s.trial = false → s.sec.svnFuse < s.fget R.secStatus F.secStatus_RUN_SVN → Ends .secAdvanceWrite s fun u =>
      u = { s with sec := { s.sec with svnFuse := s.fget R.secStatus F.secStatus_RUN_SVN } }) ∧
    ((s.trial = true ∨ s.fget R.secStatus F.secStatus_RUN_SVN ≤ s.sec.svnFuse) → Ends .secAdvanceWrite s (· = s)) ∧
    (s.asked ch layServe c z →
      (z.manifestOf (rootOf c) = none → Ends (.shardServe ch) s fun u => z.replied u c 0x0100 0 []) ∧
      (∀ i m, z.manifestOf (rootOf c) = some (i, m) → Ends (.shardServe ch) s fun u => ∃ y : State,
        y.replied u c 0 (c.a 0 1) [] ∧ y.sec = { z.sec with manifests := z.sec.manifests.map fun x =>
          if x.1 = i then (x.1, { x.2 with serving := c.a 0 1 == 1 }) else x } ∧ y = { z with sec := y.sec })) ∧
    (s.asked ch layShardStatus c z → (c.mode = 2 → c.bulkAddr = 0) →
      let y := if c.bulkAddr = 0 then z.dropResult (ch.val + 64 * 0x0505) else z
      (z.manifestOf (rootOf c) = none → Ends (.shardStatus ch) s fun u => y.replied u c 0x0100 0 []) ∧
      (∀ i m, z.manifestOf (rootOf c) = some (i, m) →
        (m.shards[c.a 0 4]? = none → Ends (.shardStatus ch) s fun u => y.replied u c 0x0100 0 []) ∧
        (∀ x, m.shards[c.a 0 4]? = some x →
          let live := z.sec.fetches.find? fun f => f.slot == i && f.shard == c.a 0 4 && f.ended == none
          let body := leBytes 1 (if live ≠ none then 1 else if x.verified.length = x.chunks then 2 else if x.verified = [] then 0 else 3) ++
            leBytes 8 x.verified.length ++ leBytes 8 x.chunks ++
            leBytes 1 ((live.map fun f => (f.sources.filter (!·.excluded)).length).getD 0) ++ leBytes 4 x.presBits
          let bits := (m.presence.drop x.presOff).take (cdiv x.presBits 8)
          (c.mode = 0 → Ends (.shardStatus ch) s fun u => y.replied u c 0 0 body) ∧
          (c.mode = 1 → c.bulkLen < bits.length → Ends (.shardStatus ch) s fun u => y.replied u c 0x0101 0 []) ∧
          (c.mode = 1 → bits.length ≤ c.bulkLen → z.bme = false → Ends (.shardStatus ch) s fun u => y.replied u c 0x0400 0 []) ∧
          (c.mode = 1 → bits.length ≤ c.bulkLen → z.bme = true → Ends (.shardStatus ch) s fun u =>
            (y.toHostMem c.bulkAddr bits).replied u c 0 0 body) ∧
          (c.mode = 2 → Ends (.shardStatus ch) s fun u =>
            (y.keepResult (ch.val + 64 * 0x0505)
              { opcode := 0x0505, tag := c.tag, total := bits.length, bytes := bits, since := z.ns }).replied u c 0
              (argAt 24 8 bits.length) (bits.take 4032))))) ∧
    (∀ leaves : List (List Byte), s.asked ch layFetch c z → z.roomFor c →
      let k := leAt c.body 32 4
      (z.manifestOf (c.body.take 32) = none → Ends (.shardFetch ch leaves) s fun u => z.replied u c 0x0100 0 []) ∧
      (∀ i m, z.manifestOf (c.body.take 32) = some (i, m) → m.shards[k]? = none →
        Ends (.shardFetch ch leaves) s fun u => z.replied u c 0x0100 0 []) ∧
      (∀ i m x, z.manifestOf (c.body.take 32) = some (i, m) → m.shards[k]? = some x →
        let legal := z.shardApplies m.rackAny x = true ∧ sourcesOk x.tier c.body = true
        let free := z.busyOp 0x0502 (fun _ => true) = false
        let ready := z.prog.st = .loaded ∧ (∃ d, (segDecls z.prog.secs)[x.segment]? = some d ∧ bit d.flags 1 = true ∧
            (if x.tier = 2 then d.kind = 3 else d.kind ≤ 1) ∧ x.chunks * 2 ^ 20 ≤ d.size) ∧
          ∀ f ∈ z.sec.fetches, ¬(f.slot = i ∧ f.shard = k ∧ f.ended = none)
        let listed := x.leaves ≠ [] ∨ leaves.any (fun l => l.length == 32 * x.chunks &&
          merkle 21 ((List.range x.chunks).map (recAt l 0 32)) == x.subroot) = true
        (¬legal → Ends (.shardFetch ch leaves) s fun u => z.replied u c 0x0100 0 []) ∧
        (legal → ¬free → Ends (.shardFetch ch leaves) s fun u => z.replied u c 0x0200 0 []) ∧
        (legal → free → ¬ready → Ends (.shardFetch ch leaves) s fun u => z.replied u c 0x0300 0 []) ∧
        (legal → free → ready →
          Ends (.shardFetch ch leaves) s fun u => ∃ y : State,
            (listed → y.held u c c.body (if x.verified.length = x.chunks then some 0 else none) 0) ∧
            (¬listed → y.held u c c.body (some 0x0400) 0 ∧
              (z.shard i k = some (m, x) → z.ras.queue.length < 224 → ∃ r : FaultRec, y.ras.queue = z.ras.queue ++ [r] ∧ r.code = 0x0905)) ∧
            (listed → (∀ src ∈ sourcesOf c.body, src.kind ≠ 1) →
              y = { z with sec := y.sec, stw := { z.stw with cmds := y.stw.cmds } }) ∧
            ∃ f : Fetch, y.sec.fetches[z.sec.fetches.length]? = some f ∧ f.slot = i ∧ f.shard = k ∧ f.chan = ch.val ∧
              f.tag = c.tag ∧ f.sources = sourcesOf c.body))) ∧
    (∀ i chunk : Nat, (s.sec.fetches[i]? = none ∨ ∃ f, s.sec.fetches[i]? = some f ∧ ∀ o ∈ f.out, o.chunk ≠ chunk) →
      Ends (.chunkHashComplete i chunk host) s (· = s)) ∧
    (∀ (i chunk : Nat) (f : Fetch) (o : ChunkOut) (m : Manifest) (x : Shard) (src : Source) (g : Segment),
      s.sec.fetches[i]? = some f → f.out.find? (·.chunk == chunk) = some o → s.shard f.slot f.shard = some (m, x) →
      f.sources[o.src]? = some src → s.prog.segs[x.segment]? = some g →
      let off := g.base % 2 ^ 40 + chunk * 2 ^ 20
      let w := if src.kind ≠ 2 then s else match tierOf g.base with
        | .host win at' => (match s.hostAddr win (at' + chunk * 2 ^ 20) host.length with | some a => s.toHostMem a host | none => s)
        | _ => s.hbmWrite off host fun _ => false
      let bytes := if g.kind = 3 then host else Mem.rdBytes w.hbm off (2 ^ 20)
      let stands := s.fget (R.svcCcntN (Config.fetchCounter.val + o.counter)) F.svcCcntN_STATE = 2
      (src.kind = 1 → ¬stands → Ends (.chunkHashComplete i chunk host) s (· = s)) ∧
      (src.kind ≠ 1 → host.length ≠ 2 ^ 20 → Ends (.chunkHashComplete i chunk host) s fun u =>
        u.hbm = s.hbm ∧ (u.shard f.slot f.shard).map (·.2) = some x) ∧
      ((src.kind = 1 → stands) → (src.kind ≠ 1 → host.length = 2 ^ 20) →
        (g.kind ≠ 3 → w.hbmBad off (2 ^ 20) = true → Ends (.chunkHashComplete i chunk host) s fun u => u.hbm = w.hbm ∧
          (u.shard f.slot f.shard).map (·.2) = some x) ∧
        ((g.kind = 3 ∨ w.hbmBad off (2 ^ 20) = false) → x.leaves[chunk]? = some (leafOf bytes) →
          Ends (.chunkHashComplete i chunk host) s fun u => u.hbm = w.hbm ∧ u.stw.toHost = w.stw.toHost ∧
            ∃ y : Shard, (u.shard f.slot f.shard).map (·.2) = some y ∧ chunk ∈ y.verified ∧ ∀ k ∈ x.verified, k ∈ y.verified) ∧
        ((g.kind = 3 ∨ w.hbmBad off (2 ^ 20) = false) → x.leaves[chunk]? ≠ some (leafOf bytes) → s.ras.queue.length < 224 →
          Ends (.chunkHashComplete i chunk host) s fun u => u.hbm = w.hbm ∧ u.stw.toHost = w.stw.toHost ∧
            (u.shard f.slot f.shard).map (·.2) = some x ∧ ∃ r : FaultRec, r ∈ u.ras.queue ∧ r.code = 0x0903 ∧ r.cls = 1))) ∧
    (s.takeKind 0x0A = none → Ends .chunkDecline s (· = s)) ∧
    (∀ m f o src k, s.takeKind 0x0A = some (m, z) → z.sec.fetches = [f] → f.out = [o] → o.chunk = leAt m.body 21 4 →
      f.shard = leAt m.body 17 4 → f.sources[o.src]? = some src → src.kind = 1 → src.addr = deviceOf m.src * 2 ^ 15 + 0x7FFF →
      (z.shard f.slot f.shard).map (fun x => x.1.root.take 16) = some k → k = (m.body.drop 1).take 16 →
      Ends .chunkDecline s fun u => ∃ y, u.sec.fetches = [y] ∧
        y.sources[o.src]? = some { src with declined := src.declined ++ [o.chunk] }) ∧
    (∀ errs, s.takeKind 9 = none → Ends (.chunkRequest errs) s (· = s)) ∧
    (∀ m errs, s.takeKind 9 = some (m, z) →
      let held := z.sec.manifests.filter fun x => x.2.root.take 16 == (m.body.drop 1).take 16
      let k := leAt m.body 17 4
      let chunk := leAt m.body 21 4
      let declined := fun (u : State) => u = z.tell (deviceOf m.src * 2 ^ 15 + 0x7FFF) (0x0A#8 :: m.body.drop 1)
      (held.length ≠ 1 → Ends (.chunkRequest errs) s declined) ∧
      (∀ i man, held = [(i, man)] → man.shards[k]? = none → Ends (.chunkRequest errs) s declined) ∧
      (∀ i man x, held = [(i, man)] → man.shards[k]? = some x →
        (z.prog.segs[x.segment]? = none ∨ z.contextTo (deviceOf m.src) (leAt m.body 25 2) = none) →
        Ends (.chunkRequest errs) s declined) ∧
      (∀ i man x g n, held = [(i, man)] → man.shards[k]? = some x → z.prog.segs[x.segment]? = some g →
        z.contextTo (deviceOf m.src) (leAt m.body 25 2) = some n →
        ((man.serving = false ∨ z.shardApplies man.rackAny x = false ∨ chunk ∉ x.verified ∨ 1 < g.kind) →
          Ends (.chunkRequest errs) s declined) ∧
        (man.serving = true → z.shardApplies man.rackAny x = true → chunk ∈ x.verified → g.kind ≤ 1 →
          let off := g.base % 2 ^ 40 + chunk * 2 ^ 20
          (z.hbmBad off (2 ^ 20) = false → Ends (.chunkRequest []) s fun u => u = chunkPieces.foldl (fun y pc =>
            let last := pc.1 == 4032 * 260
            let body := Mem.rdBytes z.hbm (off + pc.1) pc.2
            (y.offer n (y.reqPkt n { op := 4, addr := pc.1, xfer := leAt m.body 27 2, last := last, total := if last then 261 else 0,
                                     body := body }) .steward).2) z) ∧
          (z.hbmBad off (2 ^ 20) = true → Ends (.chunkRequest []) s fun u => u.hbm = z.hbm ∧
            u.sec = (z.modShard i k fun y => { y with verified := sdel y.verified chunk }).sec))))

/-- Once the checks of R467 pass: DMA_COPY outside the own slot is BAD_ARG, on a channel with a copy in progress
BUSY_DEFERRED, of no bytes done at once, else queued on its channel; MEM_SCRUB and LEDGER_AUDIT are held;
ENERGY_BUDGET_SET out of range BAD_ARG, with nothing armed in force at once, out of reach ENERGY_DENIED;
ENERGY_REPORT, REPAIR_STATUS and TELEMETRY_READ answer what they name; RETUNE_REQUEST obeys R254; TILE_RETIRE writes
the pending change its rule allows; LANE_RETIRE and HBM_ROW_REPAIR act or are refused, a row whose bank has no spare row keeping its
remap entry; TELEMETRY_STREAM opens or ends
the stream of its channel. -/
def Obligations.ServiceCommands : Prop :=
  ∀ (s z : State) (ch : Fin 64) (c : Cmd),
    (s.asked ch layCopy c z → z.roomFor c →
      let out := bit (c.a 31 1) 0
      let dev := if out then c.a 0 8 else c.a 8 7
      let host := if out then c.a 8 7 else c.a 0 8
      let len := c.a 24 7
      let k := field (c.a 31 1) 1 3
      let inside := dev < 2 ^ 48 ∧ dev / 2 ^ 40 = z.ownSlot ∧ dev % 2 ^ 40 + len ≤ 0xFF00000000
      let busy := ∃ x ∈ z.stw.cmds, x.opcode = 0x0701 ∧ x.result = none ∧ field (leAt x.args 31 1) 1 3 = k
      (¬inside → Ends (.dmaCopy ch) s fun u => z.replied u c 0x0100 0 []) ∧
      (inside → busy → Ends (.dmaCopy ch) s fun u => z.replied u c 0x0200 0 []) ∧
      (inside → ¬busy → len = 0 → Ends (.dmaCopy ch) s fun u => z.held u c c.body (some 0) 0) ∧
      (inside → ¬busy → len ≠ 0 → Ends (.dmaCopy ch) s fun u => ∃ y : State, y.held u c c.body none 0 ∧
        tget [] y.stw.dma k = tget [] z.stw.dma k ++
          [{ toDevice := !out, host := host, dev := dev % 2 ^ 40, len := len, copy := some (ch.val, c.tag) }] ∧
        (∀ j, j ≠ k → tget [] y.stw.dma j = tget [] z.stw.dma j) ∧ y = { z with stw := { z.stw with dma := y.stw.dma } })) ∧
    (s.asked ch layScrub c z → z.roomFor c → Ends (.memScrub ch) s fun u => z.held u c c.body none 0) ∧
    (s.asked ch layAudit c z → z.roomFor c → Ends (.ledgerAudit ch) s fun u => z.held u c c.body none 0) ∧
    (s.asked ch layBudget c z →
      let mw := c.a 0 4
      let t := if c.a 8 8 = 0 then z.transit + 4 else c.a 8 8
      let legal := 300000 ≤ mw ∧ mw ≤ 2200000 ∧ (c.a 8 8 = 0 ∨ z.transit + 4 ≤ c.a 8 8)
      (¬legal → Ends (.energyBudgetSet ch) s fun u => z.replied u c 0x0100 0 []) ∧
      (legal → z.armed = false → Ends (.energyBudgetSet ch) s fun u => ∃ y : State, y.replied u c 0 0 [] ∧
        y.fget R.enrBudget F.enrBudget_IN_FORCE_MW = mw ∧ y.fget R.enrBudget F.enrBudget_PENDING = 0) ∧
      (legal → z.armed = true → z.target mw = none → Ends (.energyBudgetSet ch) s fun u => z.replied u c 0x0600 0 []) ∧
      (∀ v, legal → z.armed = true → z.target mw = some v → z.running = false → (z.valid = false ∨ v = z.settingNext) →
        Ends (.energyBudgetSet ch) s fun u => ∃ y : State, y.replied u c 0 0 [] ∧
          y.fget R.enrBudget F.enrBudget_IN_FORCE_MW = mw ∧ y.fget R.enrBudget F.enrBudget_PENDING = 0) ∧
      (∀ v, legal → z.armed = true → z.target mw = some v → (z.running = true ∨ (z.valid = true ∧ v ≠ z.settingNext)) →
        (v ≠ z.settingNext → z.retuneOk v t = false → Ends (.energyBudgetSet ch) s fun u => z.replied u c 0x0300 0 []) ∧
        ((v = z.settingNext ∨ z.retuneOk v t = true) → Ends (.energyBudgetSet ch) s fun u => ∃ y : State,
          y.replied u c 0 (argAt 0 8 t) [] ∧ y.fget R.enrBudget F.enrBudget_PENDING = 1 ∧
          y.fget R.enrBudget F.enrBudget_PENDING_MW = mw ∧ y.fget R.enrBudgetAt F.enrBudgetAt_AT_TRANSIT = t % 2 ^ 48 ∧
          y.fget R.enrBudget F.enrBudget_IN_FORCE_MW = z.fget R.enrBudget F.enrBudget_IN_FORCE_MW ∧
          (v ≠ z.settingNext → y.fget R.clkRetune F.clkRetune_PENDING = 1 ∧ y.fget R.clkRetune F.clkRetune_SETTING = v ∧
            y.fget R.clkRetune F.clkRetune_AT_TRANSIT = t % 2 ^ 48) ∧
          z.onlyRegs [R.enrBudget, R.enrBudgetAt, R.clkRetune] y))) ∧
    (s.asked ch layReport c z → Ends (.energyReport ch) s fun u => z.replied u c 0
      (argAt 0 8 ((z.enr.history.head?.map (·.transit)).getD 0))
      (((z.enr.history.filter fun i => c.a 0 8 ≤ i.transit).take (c.a 8 1)).flatMap Interval.bytes)) ∧
    (s.asked ch layRetune c z →
      let v := c.a 0 1
      let t := c.a 8 8
      let inRange := 20 ≤ v ∧ v ≤ 42
      let barred := v < z.minSetting ∨ z.haltBars t = true
      let denied := z.armed = true ∧ ∃ b ∈ z.budgets, perTransit b z.progPeriod < z.worstAt v
      (¬inRange → Ends (.retuneRequest ch) s fun u => z.replied u c 0x0100 0 []) ∧
      (inRange → barred → Ends (.retuneRequest ch) s fun u => z.replied u c 0x0300 0 []) ∧
      (inRange → ¬barred → denied → Ends (.retuneRequest ch) s fun u => z.replied u c 0x0600 0 []) ∧
      (inRange → ¬barred → ¬denied → z.retuneOk v t = false → Ends (.retuneRequest ch) s fun u => ∃ y : State,
        y.replied u c 0x0300 0 [] ∧ y.fget R.clkRetune F.clkRetune_REFUSED = 1 ∧
        y.fget R.clkRetune F.clkRetune_PENDING = z.fget R.clkRetune F.clkRetune_PENDING) ∧
      (inRange → ¬barred → ¬denied → z.retuneOk v t = true → Ends (.retuneRequest ch) s fun u => ∃ y : State,
        y.replied u c 0 (argAt 0 8 (y.fw R.clkRetune)) [] ∧ y.fget R.clkRetune F.clkRetune_PENDING = 1 ∧
        y.fget R.clkRetune F.clkRetune_SETTING = v ∧ y.fget R.clkRetune F.clkRetune_AT_TRANSIT = t % 2 ^ 48 ∧
        z.onlyRegs [R.clkRetune] y)) ∧
    (s.asked ch layRepair c z → Ends (.repairStatus ch) s fun u => z.replied u c 0 0 z.repairBody) ∧
    (s.asked ch layTileRetire c z → z.roomFor c →
      let p := c.a 0 2
      let o := R.rasCapoDPend (districtOf p)
      let w := z.retireWhen (districtOf p) (p % 17) (c.a 8 8)
      (z.fget o F.rasCapoDPend_VALID = 1 → Ends (.tileRetire ch) s fun u => z.replied u c 0x0200 0 []) ∧
      (z.fget o F.rasCapoDPend_VALID = 0 →
        (∀ st, w = .error st → Ends (.tileRetire ch) s fun u => z.replied u c st 0 []) ∧
        (∀ t, w = .ok t → Ends (.tileRetire ch) s fun u => ∃ y : State, y.held u c c.body none 0 ∧
          y.fget o F.rasCapoDPend_VALID = 1 ∧ y.fget o F.rasCapoDPend_SLOT = p % 17 ∧
          y.fget o F.rasCapoDPend_AT_TRANSIT = t.getD 0 % 2 ^ 48 ∧ z.onlyRegs [o] y))) ∧
    (s.asked ch layLaneRetire c z → z.roomFor c →
      let p := c.a 0 1
      let l := z.link p
      let x := l.lane true (c.a 1 1)
      let barred := l.withRole true .parity = [] ∨ l.st ≠ .up ∨ x.role = .retired ∨ (x.logical < 28 ∧ l.cover true x.logical = none)
      (z.portHeld p = true → Ends (.laneRetire ch) s fun u => z.replied u c 0x0200 0 []) ∧
      (z.portHeld p = false → barred → Ends (.laneRetire ch) s fun u => z.replied u c 0x0300 0 []) ∧
      (z.portHeld p = false → ¬barred → Ends (.laneRetire ch) s fun u =>
        (z.setLink p (l.askSub (c.a 1 1))).held u c c.body none 0)) ∧
    (s.asked ch layRowRepair c z → z.roomFor c →
      let h := c.a 0 1
      let mine := fun (r : HbmRow) => r.stack = h ∧ r.pc = c.a 1 1 ∧ r.row = c.a 4 4
      let full := ∀ n, n < 32 → z.fget (R.hbmRemapN h n) F.hbmRemapN_VALID = 1
      let figure := fun (u : State) (n : Nat) => (u.stw.cmds.getLast?).map (·.progress) = some n
      (full → (∀ r ∈ z.ras.hbmRows, mine r → r.entry = none) → Ends (.hbmRowRepair ch) s fun u => z.replied u c 0x0300 0 []) ∧
      ((∃ r ∈ z.ras.hbmRows, mine r) → (∀ r ∈ z.ras.hbmRows, mine r → r.entry ≠ none) → z.running = true →
        Ends (.hbmRowRepair ch) s fun u => z.held u c c.body (some 0) 0 ∧ figure u 1) ∧
      (¬full → (∀ r ∈ z.ras.hbmRows, ¬mine r) → z.running = true → Ends (.hbmRowRepair ch) s fun u => ∃ y : State,
        y.held u c c.body (some 0) 0 ∧ figure u 1 ∧ ∃ n, n < 32 ∧ z.fget (R.hbmRemapN h n) F.hbmRemapN_VALID = 0 ∧
          y.fget (R.hbmRemapN h n) F.hbmRemapN_VALID = 1 ∧ y.fget (R.hbmRemapN h n) F.hbmRemapN_PC = c.a 1 1 ∧
          y.fget (R.hbmRemapN h n) F.hbmRemapN_ROW = c.a 4 4 ∧ (∃ r ∈ y.ras.hbmRows, mine r ∧ r.entry = some n) ∧
          y.hbm = z.hbm ∧ z.onlyRegs [R.hbmRemapN h n] { y with ras := z.ras }) ∧
      (¬full → (∀ r ∈ z.ras.hbmRows, ¬mine r ∧ r.entry = none) → z.running = false →
        let spare := z.hbmSpare { stack := h, pc := c.a 1 1, row := c.a 4 4, entry := none, repaired := 0 }
        (spare = true → Ends (.hbmRowRepair ch) s fun u => ∃ y : State, y.held u c c.body (some 0) 0 ∧ figure u 2 ∧
          (∃ r ∈ y.ras.hbmRows, mine r ∧ r.entry = none ∧ r.repaired = 2 ∧ r.used = 1) ∧ y.hbm = z.hbm ∧
          ∀ n, n < 32 → z.fget (R.hbmRemapN h n) F.hbmRemapN_VALID = 0 → y.fget (R.hbmRemapN h n) F.hbmRemapN_VALID = 0) ∧
        (spare = false → Ends (.hbmRowRepair ch) s fun u => ∃ y : State, y.held u c c.body (some 0) 0 ∧ figure u 1 ∧
          ∃ r ∈ y.ras.hbmRows, mine r ∧ ∃ n, r.entry = some n ∧ n < 32 ∧ y.fget (R.hbmRemapN h n) F.hbmRemapN_VALID = 1))) ∧
    (s.asked ch layTelemetry c z → Ends (.telemetryRead ch) s fun u =>
      let b := z.groupBody (c.a 0 1)
      z.replied u c 0 0 ((leBytes 2 (c.a 0 1) ++ leBytes 2 (16 + b.length) ++ leBytes 4 0 ++ leBytes 8 z.transit ++ b).take 4032)) ∧
    (s.asked ch layStream c z →
      let m := c.a 0 1
      let per := c.a 2 2
      let rest := z.stw.streams.filter fun x => x.chan ≠ ch.val
      ((m = 0 ∨ per = 0) → Ends (.telemetryStream ch) s fun u => ∃ y : State, y.replied u c 0 0 [] ∧ y.stw.streams = rest ∧
        y = { z with stw := { z.stw with streams := rest } }) ∧
      (m ≠ 0 → per ≠ 0 → Ends (.telemetryStream ch) s fun u => ∃ y : State, y.replied u c 0 m [] ∧
        y.stw.streams = rest ++ [{ chan := ch.val, groups := m, period := per, ring := c.a 8 8, size := c.a 16 4, flat := c.a 20 4,
                                   nextT := z.transit + per }] ∧
        y = { z with stw := { z.stw with streams := y.stw.streams } }))

/-- ASYNC_COMMAND_COMPLETE of a command whose status is settled removes it and posts its notice to HOST or BMC, or the one
reply of another initiator, and the next report waiting for the SEC block begins to be signed; a command not due stays; one that was
ended ABORTED reports that; a pending start stays, a
stop ends with the transit; an enrolment, an image staged, a report signed, a scrub and an audit end as their rules say.
DMA_TRANSFER_COMPLETE takes the oldest transfer of its channel and settles its command:
all bytes move, or the transfer ends ABORTED with a first part of them moved and counted; of a queue operation it is that operation's
completion. NOTICE_SEND consumes an answered notice and posts the oldest
notice on an EMPTY channel. BULK_RESULT_EXPIRY drops a result after 10 s. TELEMETRY_RECORD appends a due record or
counts it dropped when the ring is full. -/
def Obligations.CompletionsAndNotices : Prop :=
  ∀ s : State,
    (∀ (ch : Fin 64) (tag : BitVec 64) (x : QExt),
      ((s.serving = false ∨ s.findCmd ch.val tag.toNat = none) → Ends (.asyncCommandComplete ch tag x) s (· = s)) ∧
      (∀ c, s.serving = true → s.findCmd ch.val tag.toNat = some c →
        let ended := fun (w u : State) (st args : Nat) (body : List Byte) => ∃ v : State, u = v.signNext ∧
          (∀ q, w.noticeChan ch.val = some q → ∃ n : Notice, tget [] v.stw.notices q = tget [] w.stw.notices q ++ [n] ∧
            n.opcode = c.opcode ∧ n.tag = tag.toNat ∧ n.status = st ∧ n.args = leBytes 32 args ∧ n.body = body ∧
            (∀ r, r ≠ q → tget [] v.stw.notices r = tget [] w.stw.notices r) ∧
            v = { w with stw := { w.stw with cmds := w.stw.cmds.erase c, notices := v.stw.notices } }) ∧
          (w.noticeChan ch.val = none → (w.chan ch.val).st = 1 → (w.chan ch.val).taken = true → (w.chan ch.val).broken = none →
            body.length ≤ 4032 → (v.chan ch.val).st = 2 ∧ Mem.rdNat (v.chan ch.val).area 2 2 = c.opcode % 2 ^ 16 ∧
            Mem.rdNat (v.chan ch.val).area 4 2 = st % 2 ^ 16 ∧ Mem.rdNat (v.chan ch.val).area 8 8 = tag.toNat ∧
            Mem.rdNat (v.chan ch.val).area 32 32 = args % 2 ^ 256 ∧ Mem.rdBytes (v.chan ch.val).area 64 body.length = body ∧
            v.stw.cmds = w.stw.cmds.erase c ∧ (∀ m, m ≠ ch.val → v.chan m = w.chan m)) ∧
          (w.noticeChan ch.val = none → ((w.chan ch.val).st ≠ 1 ∨ (w.chan ch.val).taken = false) →
            v = { w with stw := { w.stw with cmds := w.stw.cmds.erase c } })
        let live := c.result = none
        (c.result = some 0x0400 → c.opcode ≠ 0x0701 → c.opcode ≠ 0x0503 → Ends (.asyncCommandComplete ch tag x) s fun u =>
          ended s u 0x0400 0 []) ∧
        (∀ r, (c.opcode = 0x0701 ∨ c.opcode = 0x0904 ∧ r ≠ 0x0400) → c.result = some r → Ends (.asyncCommandComplete ch tag x) s fun u =>
          ended s u r (if r = 0 then argAt 0 8 c.progress else 0) []) ∧
        (live → c.opcode ∈ [0x0503, 0x0701, 0x0904] → Ends (.asyncCommandComplete ch tag x) s (· = s)) ∧
        (c.opcode = 0x0403 → live → s.prog.startPend = true → Ends (.asyncCommandComplete ch tag x) s (· = s)) ∧
        (c.opcode = 0x0403 → live → s.prog.startPend = false → Ends (.asyncCommandComplete ch tag x) s fun u =>
          ended s u 0x0400 0 []) ∧
        (∀ r, c.opcode = 0x0403 → c.result = some r → r ≠ 0x0400 → Ends (.asyncCommandComplete ch tag x) s fun u =>
          ended s u r 0 []) ∧
        (c.opcode = 0x0404 → live → s.armed = true → Ends (.asyncCommandComplete ch tag x) s (· = s)) ∧
        (c.opcode = 0x0404 → live → s.armed = false → Ends (.asyncCommandComplete ch tag x) s fun u =>
          ended s u 0 (argAt 0 6 s.transit) []) ∧
        (c.opcode = 0x0404 → c.result = some 0 → Ends (.asyncCommandComplete ch tag x) s fun u =>
          ended s u 0 (argAt 0 6 c.progress) []) ∧
        (c.opcode = 0x0301 → live → parseAlmanac c.data = none → Ends (.asyncCommandComplete ch tag x) s fun u =>
          ended s u 0x0100 1 []) ∧
        (c.opcode = 0x0502 → live → parseManifest c.data = none → Ends (.asyncCommandComplete ch tag x) s fun u =>
          ended s u 0x0100 1 []) ∧
        (let z := s.foldStretch
         c.opcode = 0x0402 → live → c.progress = 0 → z.guardFails z.prog.hdr z.prog.secs = [] →
          z.ngtState ≠ ngtLocked → z.ngtState ≠ ngtMaster → Ends (.asyncCommandComplete ch tag x) s fun u =>
            ended { z with prog := { z.prog with st := .loaded } } u 0x0300 2 []) ∧
        (∀ f m y, c.opcode = 0x0503 → c.result = some 0 → s.sec.fetches.find? (fun f => f.chan == c.chan && f.tag == c.tag) = some f →
          s.shard f.slot f.shard = some (m, y) → Ends (.asyncCommandComplete ch tag x) s fun u =>
            ended { s with sec := { s.sec with fetches := s.sec.fetches.filter fun g => !(g.chan == c.chan && g.tag == c.tag) } } u 0
              (argAt 0 8 y.verified.length + argAt 8 8 y.chunks + argAt 16 1 (f.sources.filter (·.excluded)).length) []) ∧
        (let b := c.data.take 128
         let sig := (c.data.drop 128).take 7856
         c.opcode = 0x0501 → live →
          (bodyFormed b = false → Ends (.asyncCommandComplete ch tag x) s fun u => ended s u 0x0100 0 []) ∧
          (bodyFormed b = true → (keySeq b ≤ (s.reg R.secTrustSeq).toNat ∨ keyId b = rootId) →
            Ends (.asyncCommandComplete ch tag x) s fun u => ended s u 0x0300 0 []) ∧
          (∀ i, bodyFormed b = true → (s.reg R.secTrustSeq).toNat < keySeq b → keyId b ≠ rootId → keyState b = 1 →
            (∀ r ∈ s.sec.trust, keyId r.2.body ≠ keyId b ∧ r.1 ≠ i) → 0 < i → i < 64 →
            (∀ j, 0 < j → j < i → ∃ r ∈ s.sec.trust, r.1 = j) → keySigner b = rootId →
            (Config.slhVerify false rootPublic b sig = true → Ends (.asyncCommandComplete ch tag x) s fun u => ∃ w : State,
              ended w u 0 (argAt 0 8 (keySeq b) + argAt 8 1 i) [] ∧
              w.sec = { s.sec with trust := s.sec.trust ++ [(i, { body := b, sig := sig })] } ∧
              w.reg R.secTrustSeq = BitVec.ofNat 64 (keySeq b) ∧ s.onlyRegs [R.secTrustSeq, R.secStatus] { w with sec := s.sec }) ∧
            (Config.slhVerify false rootPublic b sig = false → Ends (.asyncCommandComplete ch tag x) s fun u =>
              ended s u Status.signatureInvalid 0 []))) ∧
        (let k := s.idleSlot
         c.opcode = 0x0B02 → live →
          (imgFormed c.data = true → imgSize c.data ≠ c.data.length → Ends (.asyncCommandComplete ch tag x) s fun u =>
            ended s u 0x0100 1 []) ∧
          (∀ r, imgSize c.data = c.data.length → s.imgBar (s.slot k) = some r → Ends (.asyncCommandComplete ch tag x) s fun u =>
            ended s u (if r ≤ 2 then 0x0100 else Status.signatureInvalid) r []) ∧
          (imgSize c.data = c.data.length → s.imgBar (s.slot k) = none → Ends (.asyncCommandComplete ch tag x) s fun u => ∃ w : State,
            ended w u 0 (b2n k) [] ∧ w.sec = { s.sec with stage := some k } ∧ w.pref = s.pref ∧ w.trial = s.trial ∧
            w.fget R.secBootCtl (if k then F.secBootCtl_REJECT_B else F.secBootCtl_REJECT_A) = 0 ∧
            s.onlyRegs [R.secBootCtl] { w with sec := s.sec })) ∧
        (c.opcode = 0x0B01 → live → s.attest ≠ some c → Ends (.asyncCommandComplete ch tag x) s (· = s)) ∧
        (c.opcode = 0x0B01 → live → s.attest = some c →
          let report := c.data ++ (List.range 17088).map (Config.slhSign c.data)
          let mode := leAt c.args 15 1
          (mode = 1 → 17344 ≤ leAt c.args 24 8 → report.length = 17344 → s.bme = true → s.sideCode ch.val false = 1 →
            Ends (.asyncCommandComplete ch tag x) s fun u =>
              ended (s.toHostMem (leAt c.args 16 8) report) u 0 (argAt 24 8 17344) []) ∧
          (mode = 2 → report.length = 17344 → Ends (.asyncCommandComplete ch tag x) s fun u =>
            ended (s.keepResult (ch.val + 64 * 0x0B01)
              { opcode := 0x0B01, tag := c.tag, total := 17344, bytes := report, since := s.ns }) u 0 (argAt 24 8 17344)
              (report.take 4032))) ∧
        (c.opcode = 0x0702 → live → x.errs = [] → Ends (.asyncCommandComplete ch tag x) s fun u =>
          ended s u 0 (argAt 8 8 (granulesOn (leAt c.args 0 1) (leAt c.args 8 8 / 1024) (leAt c.args 16 8 / 1024))) []) ∧
        (c.opcode = 0x0A01 → live → (∀ n, n < 8 → s.ledgerBroken n = []) → Ends (.asyncCommandComplete ch tag x) s fun u =>
          ended s u 0 0 ((below 8 (bit (leAt c.args 0 4))).flatMap fun n =>
            leBytes 2 n ++ leBytes 1 0 ++ leBytes 5 0 ++ leBytes 8 (s.ledgerOut n) ++ leBytes 8 (s.ledgerOut n))) ∧
        (∀ r, c.opcode = 0x0902 → c.result = some r → r ≠ 0x0400 → Ends (.asyncCommandComplete ch tag x) s fun u =>
          ended s u r (if r = 0 then argAt 0 2 c.progress else 0) []) ∧
        (c.opcode = 0x0902 → live → s.valid = true → Ends (.asyncCommandComplete ch tag x) s (· = s)) ∧
        (c.opcode = 0x0903 → live → (s.link (leAt c.args 0 1)).rxRetired.contains (leAt c.args 1 1) = true →
          Ends (.asyncCommandComplete ch tag x) s fun u =>
            ended s u 0 (argAt 0 1 ((s.link (leAt c.args 0 1)).withRole true .parity).length) []) ∧
        (c.opcode = 0x0903 → live → (s.link (leAt c.args 0 1)).rxRetired.contains (leAt c.args 1 1) = false →
          ((s.link (leAt c.args 0 1)).st ≠ .up → Ends (.asyncCommandComplete ch tag x) s fun u => ended s u 0x0400 0 []) ∧
          ((s.link (leAt c.args 0 1)).st = .up → Ends (.asyncCommandComplete ch tag x) s (· = s))))) ∧
    (∀ (k : Fin 8) (x : QExt),
      (tget [] s.stw.dma k.val = [] → Ends (.dmaTransferComplete k x) s (· = s)) ∧
      (∀ t rest p tag, tget [] s.stw.dma k.val = t :: rest → t.op = some (p, tag) →
        let at' := (s.mqe (districtOf p)).ops.findIdx? fun o => o.tile == p && o.tag == tag
        (∀ (d : District) i u, d.val = districtOf p → at' = some i → exec (.queueOpComplete d i x) s = .next u →
          Ends (.dmaTransferComplete k x) s (· = u)) ∧
        (at' = none → Ends (.dmaTransferComplete k x) s fun u => tget [] u.stw.dma k.val = rest ∧
          (∀ j, j ≠ k.val → tget [] u.stw.dma j = tget [] s.stw.dma j) ∧ u = { s with stw := { s.stw with dma := u.stw.dma } })) ∧
      (∀ t rest, tget [] s.stw.dma k.val = t :: rest → t.op = none →
        let cmds := fun (st n : Nat) => s.stw.cmds.map fun (c : AsyncCmd) =>
          if t.copy = some (c.chan, c.tag) then { c with result := some st, progress := n } else c
        let after := fun (u : State) => tget [] u.stw.dma k.val = rest ∧ ∀ j, j ≠ k.val → tget [] u.stw.dma j = tget [] s.stw.dma j
        let dead := (unitsOf t.dev t.len).any fun i => s.hbmDead (64 * i)
        let failed := s.dmaOn = false ∨ x.failed = true
        ((failed ∨ (t.toDevice = true ∧ (x.data.length ≠ t.len ∨ dead = true))) →
          Ends (.dmaTransferComplete k x) s fun u => after u ∧ u.stw.pcie.aer = s.stw.pcie.aer +
              (if s.dmaOn = true ∧ x.failed = true ∧ t.toDevice = true then 1 else 0) ∧ ∃ n ≤ t.len, u.stw.cmds = cmds 0x0400 n ∧
            (t.toDevice = true → n ≤ x.data.length ∧ u.stw.toHost = s.stw.toHost ∧ (s.hbmBad t.dev t.len = false →
              ∀ a, Mem.rd u.hbm a = if t.dev ≤ a ∧ a < t.dev + n then x.data.getD (a - t.dev) 0 else Mem.rd s.hbm a)) ∧
            (t.toDevice = false → u.hbm = s.hbm ∧ ∀ a, Mem.rd u.stw.toHost a =
              if t.host ≤ a ∧ a < t.host + n then Mem.rd s.hbm (t.dev + (a - t.host)) else Mem.rd s.stw.toHost a)) ∧
        (¬failed → t.toDevice = true → x.data.length = t.len → dead = false →
          s.hbmBad t.dev t.len = false → Ends (.dmaTransferComplete k x) s fun u => after u ∧ u.stw.cmds = cmds 0 t.len ∧
            (∀ a, Mem.rd u.hbm a = if t.dev ≤ a ∧ a < t.dev + t.len then x.data.getD (a - t.dev) 0 else Mem.rd s.hbm a) ∧
            u.stw.toHost = s.stw.toHost ∧ u.regs = s.regs) ∧
        (¬failed → t.toDevice = false → x.errs = [] →
          let n := s.goodPrefix t.dev t.len
          Ends (.dmaTransferComplete k x) s fun u => after u ∧ u.stw.cmds = cmds (if n = t.len then 0 else 0x0400) n ∧
            (dead = false → s.hbmBad t.dev t.len = false → n = t.len) ∧ u.hbm = s.hbm ∧ u.regs = s.regs ∧
            (∀ a, Mem.rd u.stw.toHost a = if t.host ≤ a ∧ a < t.host + n then Mem.rd s.hbm (t.dev + (a - t.host))
              else Mem.rd s.stw.toHost a)))) ∧
    (∀ q : Fin 64,
      ((s.sideCode q.val false ≠ s.activeCode ∨ s.serving = false ∨ (s.chan q.val).st = 1 ∨
        ((s.chan q.val).st = 0 ∧ tget [] s.stw.notices q.val = [])) → Ends (.noticeSend q) s (· = s)) ∧
      (s.sideCode q.val false = s.activeCode → s.serving = true → (s.chan q.val).st = 2 → (s.chan q.val).broken = none →
        tget [] s.stw.notices q.val = [] → Ends (.noticeSend q) s fun u => (u.chan q.val).st = 0 ∧
          (u.reg (R.dblStatusN q.val)).getLsbD 0 = false ∧ (u.reg (R.dblStatusN q.val)).getLsbD 17 = true ∧
          ∀ m, m ≠ q.val → u.chan m = s.chan m) ∧
      (∀ n rest, s.sideCode q.val false = s.activeCode → s.serving = true → ((s.chan q.val).st = 0 ∨ (s.chan q.val).st = 2) →
        (s.chan q.val).broken = none → tget [] s.stw.notices q.val = n :: rest → n.body.length ≤ 4032 → Ends (.noticeSend q) s fun u =>
          (u.chan q.val).st = 1 ∧ Mem.rdNat (u.chan q.val).area 0 2 = n.body.length ∧
          Mem.rdNat (u.chan q.val).area 2 2 = n.opcode % 2 ^ 16 ∧ Mem.rdNat (u.chan q.val).area 4 2 = n.status % 2 ^ 16 ∧
          Mem.rdNat (u.chan q.val).area 8 8 = n.tag % 2 ^ 64 ∧
          Mem.rdBytes (u.chan q.val).area 64 n.body.length = n.body ∧ tget [] u.stw.notices q.val = rest ∧
          (u.reg (R.dblStatusN q.val)).getLsbD 16 = true ∧ (∀ m, m ≠ q.val → u.chan m = s.chan m))) ∧
    (∀ ch : Fin 64,
      ((∀ e ∈ s.stw.bulkOut, e.1 % 64 ≠ ch.val) → Ends (.bulkResultExpiry ch) s (· = s)) ∧
      (∀ e, e ∈ s.stw.bulkOut → e.1 % 64 = ch.val → (∀ f ∈ s.stw.bulkOut, f.1 % 64 = ch.val → e.2.since ≤ f.2.since) →
        let w := s.reach ((e.2.since + 10 ^ 10) <<< 48)
        Ends (.bulkResultExpiry ch) s fun u => u = { w with stw := { w.stw with bulkOut := u.stw.bulkOut } } ∧
          (∀ f, f ∈ u.stw.bulkOut ↔ f ∈ s.stw.bulkOut ∧ ¬(f.1 % 64 = ch.val ∧ f.2.since + 10 ^ 10 ≤ w.ns)) ∧
          (w.ns < e.2.since + 10 ^ 10 → u = w))) ∧
    (∀ i g : Nat,
      (s.stw.streams[i]? = none → Ends (.telemetryRecord i g) s (· = s)) ∧
      (∀ x, s.stw.streams[i]? = some x →
        let r := leBytes 2 g ++ leBytes 2 (16 + (s.groupBody g).length) ++ leBytes 4 0 ++ leBytes 8 x.nextT ++ s.groupBody g
        let next := if ∀ k, k < 6 → g < k → bit x.groups k = false then x.nextT + x.period else x.nextT
        ((s.transit < x.nextT ∨ bit x.groups g = false ∨ 5 < g) → Ends (.telemetryRecord i g) s (· = s)) ∧
        (x.nextT ≤ s.transit → bit x.groups g = true → g ≤ 5 → x.size < x.written + r.length →
          Ends (.telemetryRecord i g) s fun u => u.stw.telemetryDropped = s.stw.telemetryDropped + 1 ∧
            u.stw.toHost = s.stw.toHost ∧ (u.stw.streams[i]?).map (·.written) = some x.written ∧ u.hbm = s.hbm ∧
            (u.stw.streams[i]?).map (·.nextT) = some next) ∧
        (x.nextT ≤ s.transit → bit x.groups g = true → g ≤ 5 → x.written + r.length ≤ x.size → s.sideCode x.chan false ≠ 6 →
          s.bme = true → Ends (.telemetryRecord i g) s fun u => u.stw.telemetryDropped = s.stw.telemetryDropped ∧
            (u.stw.streams[i]?).map (·.written) = some (x.written + r.length) ∧ (u.stw.streams[i]?).map (·.nextT) = some next ∧
            (∀ a, Mem.rd u.stw.toHost a = if x.ring + x.written ≤ a ∧ a < x.ring + x.written + r.length
              then r.getD (a - (x.ring + x.written)) 0 else Mem.rd s.stw.toHost a) ∧ u.hbm = s.hbm ∧ u.regs = s.regs)))

/-- An identity without a register path changes nothing. A host read of no register answers 0, a core access where no
register answers is a bus error. A register read answers the bytes its access shows, and clears what the register
clears on read (of a measurement a new free value is drawn, NGT_NOW latches, WAIT_FRETS is counted up to the instant); a write of a
register of the HBM, TOP and LDG blocks, and by a core of the ENR block, leaves the register as its access codes say (R6) and
no other; a DEV register but DEV_EVENT and DEV_RESET, a map entry with a reserved value, and PWR_VF_S while a program is armed do not
change; RAS_LOG_STATUS.POP drops the head record; a byte of SVC_VC_WEIGHT written 0 stays. DIAG_READ of a tile, of the own HBM or of a
register answers its bytes (finding an error that has struck them), DIAG_WRITE writes exactly them; an address nobody
answers is NOT_PERMITTED; another device or the host answers through the operand. -/
def Obligations.RegisterAndDiagAccess : Prop :=
  ∀ s : State,
    (∀ (i : Ident) (off : BitVec 28) (h : Half) (v : Word),
      (s.regPath i off.toNat = .absent → Ends (.rcRegisterRead i off h) s (· = s) ∧ Ends (.registerWrite i off h v) s (· = s)) ∧
      ((i = .bmc ∨ ∃ n, i = .remote n) → s.regPath i off.toNat = .absent) ∧
      (s.regPath i off.toNat = .nothing → (Ends (.rcRegisterRead i off h) s fun u =>
          u = s.answered .ok (List.replicate (halfLen h) 0#8)) ∧
        Ends (.registerWrite i off h v) s fun u => u = s.answered .ok []) ∧
      (∀ k, s.regPath i off.toNat = .error k → (Ends (.rcRegisterRead i off h) s fun u => u.stw.answer.kind = k ∧
          u = { s with stw := { s.stw with answer := u.stw.answer } }) ∧
        Ends (.registerWrite i off h v) s fun u => u = s.answered k []) ∧
      (∀ d, s.regPath i off.toNat = .reg d →
        let o := canon off.toNat
        let w := (s.reg o).toNat
        let s0 := s.countedFor o
        let w0 := (s0.reg o).toNat
        let a := d.asked w (spread h v.toNat) (spanOf h)
        let n := d.next w a
        let same := Ends (.registerWrite i off h v) s fun u => u = s.answered .ok []
        (Ends (.rcRegisterRead i off h) s fun u => u.stw.answer = { kind := .ok, data := readBytes h (d.shown (s0.word i o)) } ∧
          u.reg o = BitVec.ofNat 64 (d.afterRead w0 (spanOf h)) ∧ (∀ r, r ≠ o → u.reg r = s.reg r) ∧
          (u.draws = s.draws ∨ u.draws = s.draws + 1) ∧ (o ≠ R.ngtNow → u.ngt = s.ngt) ∧
          u = { s with regs := u.regs, svc := s0.svc, draws := u.draws, ngt := u.ngt, stw := { s.stw with answer := u.stw.answer } }) ∧
        (0x9000000 ≤ off.toNat ∧ off.toNat < 0xB000000 ∨ 0x5000000 ≤ off.toNat ∧ off.toNat < 0x6000000 ∨
            i ≠ .host ∧ 0x40000 ≤ off.toNat ∧ off.toNat < 0x50000 →
          Ends (.registerWrite i off h v) s fun u => u.reg off.toNat = BitVec.ofNat 64 n ∧
            s.onlyRegs [off.toNat] { u with stw := s.stw } ∧ u.stw = { s.stw with answer := {} }) ∧
        (off.toNat < 0x10000 → off.toNat ≠ R.devEvent → off.toNat ≠ R.devReset → same) ∧
        (0x6000000 ≤ off.toNat → off.toNat < 0x7000000 → 0x4000 ≤ off.toNat % 0x10000 → entryLegal n = false → same) ∧
        (R.pwrVfS 0 ≤ off.toNat → off.toNat < 0xE000000 → s.armed = true → same) ∧
        (off.toNat = R.rasLogStatus → F.rasLogStatus_POP.of a = 1 → Ends (.registerWrite i off h v) s fun u =>
          u = State.answered { s with ras := { s.ras with queue := s.ras.queue.tail } } .ok []) ∧
        (off.toNat = R.svcVcWeight → Ends (.registerWrite i off h v) s fun u =>
          s.onlyRegs [R.svcVcWeight] { u with stw := s.stw } ∧
          ∀ k, k < 8 → field (u.reg R.svcVcWeight).toNat (8 * k) 8 =
            if field n (8 * k) 8 = 0 then field w (8 * k) 8 else field n (8 * k) 8))) ∧
    (∀ (z : State) (ch : Fin 64) (c : Cmd) (x : QExt),
      (s.asked ch layDiagRead c z →
        let len := c.a 6 2
        (z.diagAt z.activeCore (c.a 0 6) len = .nowhere → Ends (.diagRead ch x) s fun u => z.replied u c 0x0300 0 []) ∧
        (∀ off, z.diagAt z.activeCore (c.a 0 6) len = .hbm off → x.errs = [] → z.hbmBad off len = false →
          Ends (.diagRead ch x) s fun u => z.replied u c 0 0 (Mem.rdBytes z.hbm off len)) ∧
        (∀ p o, z.diagAt z.activeCore (c.a 0 6) len = .tile p o → (∀ k, k < len → storePois (z.tile p) (o + k) = false) →
          (z.ras.latent.filter (sramWithin · 0 p o len) = [] → Ends (.diagRead ch x) s fun u =>
            z.replied u c 0 0 (Mem.rdBytes (z.tile p).store o len)) ∧
          (∀ e, z.ras.latent.filter (sramWithin · 0 p o len) = [e] → e.bad = false → z.ras.queue.length < 224 →
            Ends (.diagRead ch x) s fun u => ∃ y : State, y.replied u c 0 0 (Mem.rdBytes (z.tile p).store o len) ∧ e ∉ y.ras.latent ∧
              ∃ r : FaultRec, y.ras.queue = z.ras.queue ++ [r] ∧ r.code = 0x0C05 ∧ r.cls = 1)) ∧
        (∀ (r : BitVec 28) y, z.diagAt z.activeCore (c.a 0 6) len = .regs [(r.toNat, .full)] →
          exec (.rcRegisterRead z.activeCore r .full) z = .next y → Ends (.diagRead ch x) s fun u =>
            y.replied u c 0 0 y.stw.answer.data) ∧
        (∀ f, z.diagAt z.activeCore (c.a 0 6) len = .far f →
          (x.failed = false → x.data.length = len → Ends (.diagRead ch x) s fun u => z.replied u c 0 0 x.data) ∧
          ((x.failed = true ∨ x.data.length ≠ len) → Ends (.diagRead ch x) s fun u => z.replied u c 0x0400 0 []))) ∧
      (s.asked ch layDiagWrite c z → c.asksReset = false →
        (z.diagAt z.activeCore (c.a 0 6) c.len = .nowhere → Ends (.diagWrite ch x) s fun u => z.replied u c 0x0300 0 []) ∧
        (∀ off, z.diagAt z.activeCore (c.a 0 6) c.len = .hbm off → z.hbmBad off c.len = false → Ends (.diagWrite ch x) s fun u =>
          ∃ y : State, y.replied u c 0 0 [] ∧ y = { z with hbm := y.hbm } ∧
            ∀ a, Mem.rd y.hbm a = if off ≤ a ∧ a < off + c.len then c.body.getD (a - off) 0 else Mem.rd z.hbm a) ∧
        (∀ p o, z.diagAt z.activeCore (c.a 0 6) c.len = .tile p o → (∀ k, k < c.len → storePois (z.tile p) (o + k) = false) →
          Ends (.diagWrite ch x) s fun u => ∃ y : State, y.replied u c 0 0 [] ∧ (∀ q, q ≠ p → y.tile q = z.tile q) ∧
            y = { z with tiles := y.tiles, ras := { z.ras with latent := y.ras.latent } } ∧
            (y.tile p).store = Mem.wrBytes (z.tile p).store o c.body ∧
            ∀ e, e ∈ y.ras.latent ↔ e ∈ z.ras.latent ∧
              ¬(e.array = 0 ∧ e.unit = p ∧ o ≤ sramByte e ∧ sramByte e + 8 ≤ o + c.len)) ∧
        (∀ (r : BitVec 28) y, z.diagAt z.activeCore (c.a 0 6) c.len = .regs [(r.toNat, .full)] →
          exec (.registerWrite z.activeCore r .full (BitVec.ofNat 64 (leNat (c.body.take 8)))) z = .next y →
          Ends (.diagWrite ch x) s fun u => y.replied u c 0 0 []) ∧
        (∀ f, z.diagAt z.activeCore (c.a 0 6) c.len = .far f →
          (x.failed = true → Ends (.diagWrite ch x) s fun u => z.replied u c 0x0400 0 []) ∧
          (x.failed = false → f = none → Ends (.diagWrite ch x) s fun u => z.replied u c 0 0 []) ∧
          (∀ b, x.failed = false → f = some b → Ends (.diagWrite ch x) s fun u => (z.toHostMem b c.body).replied u c 0 0 []))))
end

