-- ==== Sys2Proof/Laws/Tab.lean ====
section
/-!
SUPPORT. Laws of the sparse tables and byte memories: a read after a write, and the canonical form every operation keeps.
-/
namespace Sys2Proof.Machine

variable {α : Type}

@[simp] theorem tget_tins_same (d : α) (t : List (Nat × α)) (k : Nat) (v : α) : tget d (tins t k v) k = v := by
  induction t with
  | nil => simp [tins, tget]
  | cons e t ih =>
    obtain ⟨j, w⟩ := e
    unfold tins
    split
    · simp [tget]
    · split
      · simp [tget]
      · rename_i h1 h2
        simp [tget, Ne.symm h2, ih]

theorem tget_tins_ne (d : α) (t : List (Nat × α)) {k l : Nat} (v : α) (h : l ≠ k) : tget d (tins t k v) l = tget d t l := by
  induction t with
  | nil => simp [tins, tget, Ne.symm h]
  | cons e t ih =>
    obtain ⟨j, w⟩ := e
    unfold tins
    split
    · simp [tget, Ne.symm h]
    · split
      · rename_i h1 h2
        subst h2
        simp [tget, Ne.symm h]
      · simp only [tget, ih]

@[simp] theorem tget_tdel_same (d : α) (t : List (Nat × α)) (k : Nat) : tget d (tdel t k) k = d := by
  induction t with
  | nil => rfl
  | cons e t ih =>
    obtain ⟨j, w⟩ := e
    unfold tdel
    split
    · exact ih
    · rename_i h
      simp [tget, h, ih]

theorem tget_tdel_ne (d : α) (t : List (Nat × α)) {k l : Nat} (h : l ≠ k) : tget d (tdel t k) l = tget d t l := by
  induction t with
  | nil => rfl
  | cons e t ih =>
    obtain ⟨j, w⟩ := e
    unfold tdel
    split
    · rename_i hj
      subst hj
      simp [tget, Ne.symm h, ih]
    · simp only [tget, ih]

/-- A read after a write to the same key gives the value written. -/
@[simp] theorem tget_tset_same [DecidableEq α] (d : α) (t : List (Nat × α)) (k : Nat) (v : α) : tget d (tset d t k v) k = v := by
  unfold tset
  split
  · rename_i h
    simp [h]
  · simp

/-- A write of one key leaves the others, whatever an unlisted key reads as where it is read. -/
theorem tget_tset_apart [DecidableEq α] (d e : α) (t : List (Nat × α)) {k l : Nat} (v : α) (h : l ≠ k) :
    tget e (tset d t k v) l = tget e t l := by
  unfold tset
  split
  · exact tget_tdel_ne e t h
  · exact tget_tins_ne e t v h

/-- A write leaves every other key alone. -/
theorem tget_tset_ne [DecidableEq α] (d : α) (t : List (Nat × α)) {k l : Nat} (v : α) (h : l ≠ k) :
    tget d (tset d t k v) l = tget d t l := by
  unfold tset
  split
  · exact tget_tdel_ne d t h
  · exact tget_tins_ne d t v h

/-- A read after a write, whichever the keys. -/
theorem tget_tset [DecidableEq α] (d : α) (t : List (Nat × α)) (k l : Nat) (v : α) :
    tget d (tset d t k v) l = if l = k then v else tget d t l := by
  split
  · rename_i h
    subst h
    simp
  · rename_i h
    exact tget_tset_ne d t v h

/-! ## The canonical form -/

theorem twfFrom_mono [DecidableEq α] (d : α) {lo hi : Nat} {t : List (Nat × α)} (h : lo ≤ hi) (w : twfFrom d hi t = true) :
    twfFrom d lo t = true := by
  cases t with
  | nil => rfl
  | cons e t =>
    obtain ⟨j, v⟩ := e
    simp only [twfFrom, Bool.and_eq_true, decide_eq_true_eq] at w ⊢
    exact ⟨⟨by omega, w.1.2⟩, w.2⟩

theorem twfFrom_tins [DecidableEq α] (d : α) {lo k : Nat} {v : α} {t : List (Nat × α)} (hk : lo ≤ k) (hv : v ≠ d)
    (w : twfFrom d lo t = true) : twfFrom d lo (tins t k v) = true := by
  induction t generalizing lo with
  | nil => simp [tins, twfFrom, hk, hv]
  | cons e t ih =>
    obtain ⟨j, u⟩ := e
    simp only [twfFrom, Bool.and_eq_true, decide_eq_true_eq] at w
    unfold tins
    split
    · rename_i h
      simp only [twfFrom, Bool.and_eq_true, decide_eq_true_eq]
      exact ⟨⟨hk, hv⟩, ⟨by omega, w.1.2⟩, w.2⟩
    · split
      · rename_i _ h
        subst h
        simp only [twfFrom, Bool.and_eq_true, decide_eq_true_eq]
        exact ⟨⟨hk, hv⟩, w.2⟩
      · rename_i h1 h2
        simp only [twfFrom, Bool.and_eq_true, decide_eq_true_eq]
        exact ⟨w.1, ih (by omega) w.2⟩

theorem twfFrom_tdel [DecidableEq α] (d : α) {lo : Nat} (k : Nat) {t : List (Nat × α)} (w : twfFrom d lo t = true) :
    twfFrom d lo (tdel t k) = true := by
  induction t generalizing lo with
  | nil => rfl
  | cons e t ih =>
    obtain ⟨j, u⟩ := e
    simp only [twfFrom, Bool.and_eq_true, decide_eq_true_eq] at w
    unfold tdel
    split
    · exact twfFrom_mono d (by omega) (ih w.2)
    · simp only [twfFrom, Bool.and_eq_true, decide_eq_true_eq]
      exact ⟨w.1, ih w.2⟩

/-- A write keeps the canonical form. -/
theorem twf_tset [DecidableEq α] (d : α) {t : List (Nat × α)} (k : Nat) (v : α) (w : twf d t = true) : twf d (tset d t k v) = true := by
  unfold tset
  split
  · exact twfFrom_tdel d k w
  · rename_i h
    exact twfFrom_tins d (Nat.zero_le k) h w

theorem twfFrom_filter [DecidableEq α] (d : α) (p : Nat × α → Bool) {lo : Nat} {t : List (Nat × α)} (w : twfFrom d lo t = true) :
    twfFrom d lo (t.filter p) = true := by
  induction t generalizing lo with
  | nil => rfl
  | cons e t ih =>
    obtain ⟨j, u⟩ := e
    simp only [twfFrom, Bool.and_eq_true, decide_eq_true_eq] at w
    simp only [List.filter]
    split
    · simp only [twfFrom, Bool.and_eq_true, decide_eq_true_eq]
      exact ⟨w.1, ih w.2⟩
    · exact twfFrom_mono d (by omega) (ih w.2)

/-! ## Byte memories -/

namespace Mem

theorem wf_nil : wf [] = true := rfl

theorem wf_wr {m : List Host.Cell} (a : Nat) (b : Byte) (w : wf m = true) : wf (wr m a b) = true := twf_tset _ a b w

theorem wf_wrBytes {m : List Host.Cell} (a : Nat) (bs : List Byte) (w : wf m = true) : wf (wrBytes m a bs) = true := by
  induction bs generalizing m a with
  | nil => exact w
  | cons b bs ih => exact ih (a + 1) (wf_wr a b w)

theorem wf_wrNat {m : List Host.Cell} (a n v : Nat) (w : wf m = true) : wf (wrNat m a n v) = true := wf_wrBytes a _ w

theorem wf_zero {m : List Host.Cell} (a n : Nat) (w : wf m = true) : wf (zero m a n) = true := twfFrom_filter _ _ w

@[simp] theorem rd_wr_same (m : List Host.Cell) (a : Nat) (b : Byte) : rd (wr m a b) a = b := tget_tset_same _ m a b

theorem rd_wr_ne (m : List Host.Cell) {a c : Nat} (b : Byte) (h : c ≠ a) : rd (wr m a b) c = rd m c := tget_tset_ne _ m b h

/-- Bytes outside those written are unchanged. -/
theorem rd_wrBytes_out (m : List Host.Cell) (a : Nat) (bs : List Byte) {c : Nat} (h : c < a ∨ a + bs.length ≤ c) :
    rd (wrBytes m a bs) c = rd m c := by
  induction bs generalizing m a with
  | nil => rfl
  | cons b bs ih =>
    simp only [List.length_cons] at h
    simp only [wrBytes]
    rw [ih _ (a + 1) (by omega), rd_wr_ne m b (by omega)]

/-- A byte written reads back. -/
theorem rd_wrBytes_in (m : List Host.Cell) (a : Nat) (bs : List Byte) {i : Nat} (h : i < bs.length) :
    rd (wrBytes m a bs) (a + i) = bs[i] := by
  induction bs generalizing m a i with
  | nil => simp at h
  | cons b bs ih =>
    simp only [wrBytes]
    cases i with
    | zero =>
      rw [rd_wrBytes_out _ _ _ (by omega)]
      simp
    | succ i =>
      have h' : i < bs.length := by simpa using h
      have := ih (wr m a b) (a + 1) h'
      simpa [Nat.add_comm, Nat.add_left_comm] using this

theorem rdBytes_length (m : List Host.Cell) (a n : Nat) : (rdBytes m a n).length = n := by
  induction n generalizing a with
  | zero => rfl
  | succ n ih => simp [rdBytes, ih]

/-- The bytes written read back as a whole. -/
theorem rdBytes_wrBytes (m : List Host.Cell) (a : Nat) (bs : List Byte) : rdBytes (wrBytes m a bs) a bs.length = bs := by
  induction bs generalizing m a with
  | nil => rfl
  | cons b bs ih =>
    simp only [wrBytes, List.length_cons, rdBytes]
    rw [ih, rd_wrBytes_out _ _ _ (by omega)]
    simp

end Mem

end Sys2Proof.Machine
end

