-- ==== Sys2Proof/Laws/State.lean ====
section
/-!
SUPPORT. What each update of State leaves: one lemma for every field, and the reads after the updates.
-/
namespace Sys2Proof.Machine

/-! ## setReg -/

@[simp] theorem State.setReg_tiles (s : State) (off : Nat) (v : BitVec 64) : (s.setReg off v).tiles = s.tiles := rfl
@[simp] theorem State.setReg_mqes (s : State) (off : Nat) (v : BitVec 64) : (s.setReg off v).mqes = s.mqes := rfl
@[simp] theorem State.setReg_hbm (s : State) (off : Nat) (v : BitVec 64) : (s.setReg off v).hbm = s.hbm := rfl
@[simp] theorem State.setReg_hbmPoison (s : State) (off : Nat) (v : BitVec 64) : (s.setReg off v).hbmPoison = s.hbmPoison := rfl
@[simp] theorem State.setReg_wins (s : State) (off : Nat) (v : BitVec 64) : (s.setReg off v).wins = s.wins := rfl
@[simp] theorem State.setReg_ngt (s : State) (off : Nat) (v : BitVec 64) : (s.setReg off v).ngt = s.ngt := rfl
@[simp] theorem State.setReg_clkSetting (s : State) (off : Nat) (v : BitVec 64) : (s.setReg off v).clkSetting = s.clkSetting := rfl
@[simp] theorem State.setReg_clks (s : State) (off : Nat) (v : BitVec 64) : (s.setReg off v).clks = s.clks := rfl
@[simp] theorem State.setReg_mesh (s : State) (off : Nat) (v : BitVec 64) : (s.setReg off v).mesh = s.mesh := rfl
@[simp] theorem State.setReg_meshClaims (s : State) (off : Nat) (v : BitVec 64) : (s.setReg off v).meshClaims = s.meshClaims := rfl
@[simp] theorem State.setReg_fabs (s : State) (off : Nat) (v : BitVec 64) : (s.setReg off v).fabs = s.fabs := rfl
@[simp] theorem State.setReg_links (s : State) (off : Nat) (v : BitVec 64) : (s.setReg off v).links = s.links := rfl
@[simp] theorem State.setReg_svc (s : State) (off : Nat) (v : BitVec 64) : (s.setReg off v).svc = s.svc := rfl
@[simp] theorem State.setReg_top (s : State) (off : Nat) (v : BitVec 64) : (s.setReg off v).top = s.top := rfl
@[simp] theorem State.setReg_sec (s : State) (off : Nat) (v : BitVec 64) : (s.setReg off v).sec = s.sec := rfl
@[simp] theorem State.setReg_stw (s : State) (off : Nat) (v : BitVec 64) : (s.setReg off v).stw = s.stw := rfl
@[simp] theorem State.setReg_capos (s : State) (off : Nat) (v : BitVec 64) : (s.setReg off v).capos = s.capos := rfl
@[simp] theorem State.setReg_prog (s : State) (off : Nat) (v : BitVec 64) : (s.setReg off v).prog = s.prog := rfl
@[simp] theorem State.setReg_reqs (s : State) (off : Nat) (v : BitVec 64) : (s.setReg off v).reqs = s.reqs := rfl
@[simp] theorem State.setReg_reqDone (s : State) (off : Nat) (v : BitVec 64) : (s.setReg off v).reqDone = s.reqDone := rfl
@[simp] theorem State.setReg_enr (s : State) (off : Nat) (v : BitVec 64) : (s.setReg off v).enr = s.enr := rfl
@[simp] theorem State.setReg_ras (s : State) (off : Nat) (v : BitVec 64) : (s.setReg off v).ras = s.ras := rfl
@[simp] theorem State.setReg_pins (s : State) (off : Nat) (v : BitVec 64) : (s.setReg off v).pins = s.pins := rfl
@[simp] theorem State.setReg_cfg (s : State) (off : Nat) (v : BitVec 64) : (s.setReg off v).cfg = s.cfg := rfl
@[simp] theorem State.setReg_draws (s : State) (off : Nat) (v : BitVec 64) : (s.setReg off v).draws = s.draws := rfl
@[simp] theorem State.setReg_pending (s : State) (off : Nat) (v : BitVec 64) : (s.setReg off v).pending = s.pending := rfl

/-! ## fset -/

@[simp] theorem State.fset_tiles (s : State) (off : Nat) (f : RField) (v : Nat) : (s.fset off f v).tiles = s.tiles := rfl
@[simp] theorem State.fset_mqes (s : State) (off : Nat) (f : RField) (v : Nat) : (s.fset off f v).mqes = s.mqes := rfl
@[simp] theorem State.fset_hbm (s : State) (off : Nat) (f : RField) (v : Nat) : (s.fset off f v).hbm = s.hbm := rfl
@[simp] theorem State.fset_hbmPoison (s : State) (off : Nat) (f : RField) (v : Nat) : (s.fset off f v).hbmPoison = s.hbmPoison := rfl
@[simp] theorem State.fset_wins (s : State) (off : Nat) (f : RField) (v : Nat) : (s.fset off f v).wins = s.wins := rfl
@[simp] theorem State.fset_ngt (s : State) (off : Nat) (f : RField) (v : Nat) : (s.fset off f v).ngt = s.ngt := rfl
@[simp] theorem State.fset_clkSetting (s : State) (off : Nat) (f : RField) (v : Nat) : (s.fset off f v).clkSetting = s.clkSetting := rfl
@[simp] theorem State.fset_clks (s : State) (off : Nat) (f : RField) (v : Nat) : (s.fset off f v).clks = s.clks := rfl
@[simp] theorem State.fset_mesh (s : State) (off : Nat) (f : RField) (v : Nat) : (s.fset off f v).mesh = s.mesh := rfl
@[simp] theorem State.fset_meshClaims (s : State) (off : Nat) (f : RField) (v : Nat) : (s.fset off f v).meshClaims = s.meshClaims := rfl
@[simp] theorem State.fset_fabs (s : State) (off : Nat) (f : RField) (v : Nat) : (s.fset off f v).fabs = s.fabs := rfl
@[simp] theorem State.fset_links (s : State) (off : Nat) (f : RField) (v : Nat) : (s.fset off f v).links = s.links := rfl
@[simp] theorem State.fset_svc (s : State) (off : Nat) (f : RField) (v : Nat) : (s.fset off f v).svc = s.svc := rfl
@[simp] theorem State.fset_top (s : State) (off : Nat) (f : RField) (v : Nat) : (s.fset off f v).top = s.top := rfl
@[simp] theorem State.fset_sec (s : State) (off : Nat) (f : RField) (v : Nat) : (s.fset off f v).sec = s.sec := rfl
@[simp] theorem State.fset_stw (s : State) (off : Nat) (f : RField) (v : Nat) : (s.fset off f v).stw = s.stw := rfl
@[simp] theorem State.fset_capos (s : State) (off : Nat) (f : RField) (v : Nat) : (s.fset off f v).capos = s.capos := rfl
@[simp] theorem State.fset_prog (s : State) (off : Nat) (f : RField) (v : Nat) : (s.fset off f v).prog = s.prog := rfl
@[simp] theorem State.fset_reqs (s : State) (off : Nat) (f : RField) (v : Nat) : (s.fset off f v).reqs = s.reqs := rfl
@[simp] theorem State.fset_reqDone (s : State) (off : Nat) (f : RField) (v : Nat) : (s.fset off f v).reqDone = s.reqDone := rfl
@[simp] theorem State.fset_enr (s : State) (off : Nat) (f : RField) (v : Nat) : (s.fset off f v).enr = s.enr := rfl
@[simp] theorem State.fset_ras (s : State) (off : Nat) (f : RField) (v : Nat) : (s.fset off f v).ras = s.ras := rfl
@[simp] theorem State.fset_pins (s : State) (off : Nat) (f : RField) (v : Nat) : (s.fset off f v).pins = s.pins := rfl
@[simp] theorem State.fset_cfg (s : State) (off : Nat) (f : RField) (v : Nat) : (s.fset off f v).cfg = s.cfg := rfl
@[simp] theorem State.fset_draws (s : State) (off : Nat) (f : RField) (v : Nat) : (s.fset off f v).draws = s.draws := rfl
@[simp] theorem State.fset_pending (s : State) (off : Nat) (f : RField) (v : Nat) : (s.fset off f v).pending = s.pending := rfl

/-! ## fbump -/

@[simp] theorem State.fbump_tiles (s : State) (off : Nat) (f : RField) (n : Nat) : (s.fbump off f n).tiles = s.tiles := rfl
@[simp] theorem State.fbump_mqes (s : State) (off : Nat) (f : RField) (n : Nat) : (s.fbump off f n).mqes = s.mqes := rfl
@[simp] theorem State.fbump_hbm (s : State) (off : Nat) (f : RField) (n : Nat) : (s.fbump off f n).hbm = s.hbm := rfl
@[simp] theorem State.fbump_hbmPoison (s : State) (off : Nat) (f : RField) (n : Nat) : (s.fbump off f n).hbmPoison = s.hbmPoison := rfl
@[simp] theorem State.fbump_wins (s : State) (off : Nat) (f : RField) (n : Nat) : (s.fbump off f n).wins = s.wins := rfl
@[simp] theorem State.fbump_ngt (s : State) (off : Nat) (f : RField) (n : Nat) : (s.fbump off f n).ngt = s.ngt := rfl
@[simp] theorem State.fbump_clkSetting (s : State) (off : Nat) (f : RField) (n : Nat) : (s.fbump off f n).clkSetting = s.clkSetting := rfl
@[simp] theorem State.fbump_clks (s : State) (off : Nat) (f : RField) (n : Nat) : (s.fbump off f n).clks = s.clks := rfl
@[simp] theorem State.fbump_mesh (s : State) (off : Nat) (f : RField) (n : Nat) : (s.fbump off f n).mesh = s.mesh := rfl
@[simp] theorem State.fbump_meshClaims (s : State) (off : Nat) (f : RField) (n : Nat) : (s.fbump off f n).meshClaims = s.meshClaims := rfl
@[simp] theorem State.fbump_fabs (s : State) (off : Nat) (f : RField) (n : Nat) : (s.fbump off f n).fabs = s.fabs := rfl
@[simp] theorem State.fbump_links (s : State) (off : Nat) (f : RField) (n : Nat) : (s.fbump off f n).links = s.links := rfl
@[simp] theorem State.fbump_svc (s : State) (off : Nat) (f : RField) (n : Nat) : (s.fbump off f n).svc = s.svc := rfl
@[simp] theorem State.fbump_top (s : State) (off : Nat) (f : RField) (n : Nat) : (s.fbump off f n).top = s.top := rfl
@[simp] theorem State.fbump_sec (s : State) (off : Nat) (f : RField) (n : Nat) : (s.fbump off f n).sec = s.sec := rfl
@[simp] theorem State.fbump_stw (s : State) (off : Nat) (f : RField) (n : Nat) : (s.fbump off f n).stw = s.stw := rfl
@[simp] theorem State.fbump_capos (s : State) (off : Nat) (f : RField) (n : Nat) : (s.fbump off f n).capos = s.capos := rfl
@[simp] theorem State.fbump_prog (s : State) (off : Nat) (f : RField) (n : Nat) : (s.fbump off f n).prog = s.prog := rfl
@[simp] theorem State.fbump_reqs (s : State) (off : Nat) (f : RField) (n : Nat) : (s.fbump off f n).reqs = s.reqs := rfl
@[simp] theorem State.fbump_reqDone (s : State) (off : Nat) (f : RField) (n : Nat) : (s.fbump off f n).reqDone = s.reqDone := rfl
@[simp] theorem State.fbump_enr (s : State) (off : Nat) (f : RField) (n : Nat) : (s.fbump off f n).enr = s.enr := rfl
@[simp] theorem State.fbump_ras (s : State) (off : Nat) (f : RField) (n : Nat) : (s.fbump off f n).ras = s.ras := rfl
@[simp] theorem State.fbump_pins (s : State) (off : Nat) (f : RField) (n : Nat) : (s.fbump off f n).pins = s.pins := rfl
@[simp] theorem State.fbump_cfg (s : State) (off : Nat) (f : RField) (n : Nat) : (s.fbump off f n).cfg = s.cfg := rfl
@[simp] theorem State.fbump_draws (s : State) (off : Nat) (f : RField) (n : Nat) : (s.fbump off f n).draws = s.draws := rfl
@[simp] theorem State.fbump_pending (s : State) (off : Nat) (f : RField) (n : Nat) : (s.fbump off f n).pending = s.pending := rfl

/-! ## resetReg -/

@[simp] theorem State.resetReg_tiles (s : State) (off : Nat) : (s.resetReg off).tiles = s.tiles := rfl
@[simp] theorem State.resetReg_mqes (s : State) (off : Nat) : (s.resetReg off).mqes = s.mqes := rfl
@[simp] theorem State.resetReg_hbm (s : State) (off : Nat) : (s.resetReg off).hbm = s.hbm := rfl
@[simp] theorem State.resetReg_hbmPoison (s : State) (off : Nat) : (s.resetReg off).hbmPoison = s.hbmPoison := rfl
@[simp] theorem State.resetReg_wins (s : State) (off : Nat) : (s.resetReg off).wins = s.wins := rfl
@[simp] theorem State.resetReg_ngt (s : State) (off : Nat) : (s.resetReg off).ngt = s.ngt := rfl
@[simp] theorem State.resetReg_clkSetting (s : State) (off : Nat) : (s.resetReg off).clkSetting = s.clkSetting := rfl
@[simp] theorem State.resetReg_clks (s : State) (off : Nat) : (s.resetReg off).clks = s.clks := rfl
@[simp] theorem State.resetReg_mesh (s : State) (off : Nat) : (s.resetReg off).mesh = s.mesh := rfl
@[simp] theorem State.resetReg_meshClaims (s : State) (off : Nat) : (s.resetReg off).meshClaims = s.meshClaims := rfl
@[simp] theorem State.resetReg_fabs (s : State) (off : Nat) : (s.resetReg off).fabs = s.fabs := rfl
@[simp] theorem State.resetReg_links (s : State) (off : Nat) : (s.resetReg off).links = s.links := rfl
@[simp] theorem State.resetReg_svc (s : State) (off : Nat) : (s.resetReg off).svc = s.svc := rfl
@[simp] theorem State.resetReg_top (s : State) (off : Nat) : (s.resetReg off).top = s.top := rfl
@[simp] theorem State.resetReg_sec (s : State) (off : Nat) : (s.resetReg off).sec = s.sec := rfl
@[simp] theorem State.resetReg_stw (s : State) (off : Nat) : (s.resetReg off).stw = s.stw := rfl
@[simp] theorem State.resetReg_capos (s : State) (off : Nat) : (s.resetReg off).capos = s.capos := rfl
@[simp] theorem State.resetReg_prog (s : State) (off : Nat) : (s.resetReg off).prog = s.prog := rfl
@[simp] theorem State.resetReg_reqs (s : State) (off : Nat) : (s.resetReg off).reqs = s.reqs := rfl
@[simp] theorem State.resetReg_reqDone (s : State) (off : Nat) : (s.resetReg off).reqDone = s.reqDone := rfl
@[simp] theorem State.resetReg_enr (s : State) (off : Nat) : (s.resetReg off).enr = s.enr := rfl
@[simp] theorem State.resetReg_ras (s : State) (off : Nat) : (s.resetReg off).ras = s.ras := rfl
@[simp] theorem State.resetReg_pins (s : State) (off : Nat) : (s.resetReg off).pins = s.pins := rfl
@[simp] theorem State.resetReg_cfg (s : State) (off : Nat) : (s.resetReg off).cfg = s.cfg := rfl
@[simp] theorem State.resetReg_draws (s : State) (off : Nat) : (s.resetReg off).draws = s.draws := rfl
@[simp] theorem State.resetReg_pending (s : State) (off : Nat) : (s.resetReg off).pending = s.pending := rfl

/-! ## putReg -/

@[simp] theorem State.putReg_tiles (s : State) (off v : Nat) : (s.putReg off v).tiles = s.tiles := rfl
@[simp] theorem State.putReg_mqes (s : State) (off v : Nat) : (s.putReg off v).mqes = s.mqes := rfl
@[simp] theorem State.putReg_hbm (s : State) (off v : Nat) : (s.putReg off v).hbm = s.hbm := rfl
@[simp] theorem State.putReg_hbmPoison (s : State) (off v : Nat) : (s.putReg off v).hbmPoison = s.hbmPoison := rfl
@[simp] theorem State.putReg_wins (s : State) (off v : Nat) : (s.putReg off v).wins = s.wins := rfl
@[simp] theorem State.putReg_ngt (s : State) (off v : Nat) : (s.putReg off v).ngt = s.ngt := rfl
@[simp] theorem State.putReg_clkSetting (s : State) (off v : Nat) : (s.putReg off v).clkSetting = s.clkSetting := rfl
@[simp] theorem State.putReg_clks (s : State) (off v : Nat) : (s.putReg off v).clks = s.clks := rfl
@[simp] theorem State.putReg_mesh (s : State) (off v : Nat) : (s.putReg off v).mesh = s.mesh := rfl
@[simp] theorem State.putReg_meshClaims (s : State) (off v : Nat) : (s.putReg off v).meshClaims = s.meshClaims := rfl
@[simp] theorem State.putReg_fabs (s : State) (off v : Nat) : (s.putReg off v).fabs = s.fabs := rfl
@[simp] theorem State.putReg_links (s : State) (off v : Nat) : (s.putReg off v).links = s.links := rfl
@[simp] theorem State.putReg_svc (s : State) (off v : Nat) : (s.putReg off v).svc = s.svc := rfl
@[simp] theorem State.putReg_top (s : State) (off v : Nat) : (s.putReg off v).top = s.top := rfl
@[simp] theorem State.putReg_sec (s : State) (off v : Nat) : (s.putReg off v).sec = s.sec := rfl
@[simp] theorem State.putReg_stw (s : State) (off v : Nat) : (s.putReg off v).stw = s.stw := rfl
@[simp] theorem State.putReg_capos (s : State) (off v : Nat) : (s.putReg off v).capos = s.capos := rfl
@[simp] theorem State.putReg_prog (s : State) (off v : Nat) : (s.putReg off v).prog = s.prog := rfl
@[simp] theorem State.putReg_reqs (s : State) (off v : Nat) : (s.putReg off v).reqs = s.reqs := rfl
@[simp] theorem State.putReg_reqDone (s : State) (off v : Nat) : (s.putReg off v).reqDone = s.reqDone := rfl
@[simp] theorem State.putReg_enr (s : State) (off v : Nat) : (s.putReg off v).enr = s.enr := rfl
@[simp] theorem State.putReg_ras (s : State) (off v : Nat) : (s.putReg off v).ras = s.ras := rfl
@[simp] theorem State.putReg_pins (s : State) (off v : Nat) : (s.putReg off v).pins = s.pins := rfl
@[simp] theorem State.putReg_cfg (s : State) (off v : Nat) : (s.putReg off v).cfg = s.cfg := rfl
@[simp] theorem State.putReg_draws (s : State) (off v : Nat) : (s.putReg off v).draws = s.draws := rfl
@[simp] theorem State.putReg_pending (s : State) (off v : Nat) : (s.putReg off v).pending = s.pending := rfl

/-! ## setTile -/

@[simp] theorem State.setTile_regs (s : State) (p : Nat) (x : Tile) : (s.setTile p x).regs = s.regs := rfl
@[simp] theorem State.setTile_mqes (s : State) (p : Nat) (x : Tile) : (s.setTile p x).mqes = s.mqes := rfl
@[simp] theorem State.setTile_hbm (s : State) (p : Nat) (x : Tile) : (s.setTile p x).hbm = s.hbm := rfl
@[simp] theorem State.setTile_hbmPoison (s : State) (p : Nat) (x : Tile) : (s.setTile p x).hbmPoison = s.hbmPoison := rfl
@[simp] theorem State.setTile_wins (s : State) (p : Nat) (x : Tile) : (s.setTile p x).wins = s.wins := rfl
@[simp] theorem State.setTile_ngt (s : State) (p : Nat) (x : Tile) : (s.setTile p x).ngt = s.ngt := rfl
@[simp] theorem State.setTile_clkSetting (s : State) (p : Nat) (x : Tile) : (s.setTile p x).clkSetting = s.clkSetting := rfl
@[simp] theorem State.setTile_clks (s : State) (p : Nat) (x : Tile) : (s.setTile p x).clks = s.clks := rfl
@[simp] theorem State.setTile_mesh (s : State) (p : Nat) (x : Tile) : (s.setTile p x).mesh = s.mesh := rfl
@[simp] theorem State.setTile_meshClaims (s : State) (p : Nat) (x : Tile) : (s.setTile p x).meshClaims = s.meshClaims := rfl
@[simp] theorem State.setTile_fabs (s : State) (p : Nat) (x : Tile) : (s.setTile p x).fabs = s.fabs := rfl
@[simp] theorem State.setTile_links (s : State) (p : Nat) (x : Tile) : (s.setTile p x).links = s.links := rfl
@[simp] theorem State.setTile_svc (s : State) (p : Nat) (x : Tile) : (s.setTile p x).svc = s.svc := rfl
@[simp] theorem State.setTile_top (s : State) (p : Nat) (x : Tile) : (s.setTile p x).top = s.top := rfl
@[simp] theorem State.setTile_sec (s : State) (p : Nat) (x : Tile) : (s.setTile p x).sec = s.sec := rfl
@[simp] theorem State.setTile_stw (s : State) (p : Nat) (x : Tile) : (s.setTile p x).stw = s.stw := rfl
@[simp] theorem State.setTile_capos (s : State) (p : Nat) (x : Tile) : (s.setTile p x).capos = s.capos := rfl
@[simp] theorem State.setTile_prog (s : State) (p : Nat) (x : Tile) : (s.setTile p x).prog = s.prog := rfl
@[simp] theorem State.setTile_reqs (s : State) (p : Nat) (x : Tile) : (s.setTile p x).reqs = s.reqs := rfl
@[simp] theorem State.setTile_reqDone (s : State) (p : Nat) (x : Tile) : (s.setTile p x).reqDone = s.reqDone := rfl
@[simp] theorem State.setTile_enr (s : State) (p : Nat) (x : Tile) : (s.setTile p x).enr = s.enr := rfl
@[simp] theorem State.setTile_ras (s : State) (p : Nat) (x : Tile) : (s.setTile p x).ras = s.ras := rfl
@[simp] theorem State.setTile_pins (s : State) (p : Nat) (x : Tile) : (s.setTile p x).pins = s.pins := rfl
@[simp] theorem State.setTile_cfg (s : State) (p : Nat) (x : Tile) : (s.setTile p x).cfg = s.cfg := rfl
@[simp] theorem State.setTile_draws (s : State) (p : Nat) (x : Tile) : (s.setTile p x).draws = s.draws := rfl
@[simp] theorem State.setTile_pending (s : State) (p : Nat) (x : Tile) : (s.setTile p x).pending = s.pending := rfl

/-! ## setMqe -/

@[simp] theorem State.setMqe_regs (s : State) (d : Nat) (x : Mqe) : (s.setMqe d x).regs = s.regs := rfl
@[simp] theorem State.setMqe_tiles (s : State) (d : Nat) (x : Mqe) : (s.setMqe d x).tiles = s.tiles := rfl
@[simp] theorem State.setMqe_hbm (s : State) (d : Nat) (x : Mqe) : (s.setMqe d x).hbm = s.hbm := rfl
@[simp] theorem State.setMqe_hbmPoison (s : State) (d : Nat) (x : Mqe) : (s.setMqe d x).hbmPoison = s.hbmPoison := rfl
@[simp] theorem State.setMqe_wins (s : State) (d : Nat) (x : Mqe) : (s.setMqe d x).wins = s.wins := rfl
@[simp] theorem State.setMqe_ngt (s : State) (d : Nat) (x : Mqe) : (s.setMqe d x).ngt = s.ngt := rfl
@[simp] theorem State.setMqe_clkSetting (s : State) (d : Nat) (x : Mqe) : (s.setMqe d x).clkSetting = s.clkSetting := rfl
@[simp] theorem State.setMqe_clks (s : State) (d : Nat) (x : Mqe) : (s.setMqe d x).clks = s.clks := rfl
@[simp] theorem State.setMqe_mesh (s : State) (d : Nat) (x : Mqe) : (s.setMqe d x).mesh = s.mesh := rfl
@[simp] theorem State.setMqe_meshClaims (s : State) (d : Nat) (x : Mqe) : (s.setMqe d x).meshClaims = s.meshClaims := rfl
@[simp] theorem State.setMqe_fabs (s : State) (d : Nat) (x : Mqe) : (s.setMqe d x).fabs = s.fabs := rfl
@[simp] theorem State.setMqe_links (s : State) (d : Nat) (x : Mqe) : (s.setMqe d x).links = s.links := rfl
@[simp] theorem State.setMqe_svc (s : State) (d : Nat) (x : Mqe) : (s.setMqe d x).svc = s.svc := rfl
@[simp] theorem State.setMqe_top (s : State) (d : Nat) (x : Mqe) : (s.setMqe d x).top = s.top := rfl
@[simp] theorem State.setMqe_sec (s : State) (d : Nat) (x : Mqe) : (s.setMqe d x).sec = s.sec := rfl
@[simp] theorem State.setMqe_stw (s : State) (d : Nat) (x : Mqe) : (s.setMqe d x).stw = s.stw := rfl
@[simp] theorem State.setMqe_capos (s : State) (d : Nat) (x : Mqe) : (s.setMqe d x).capos = s.capos := rfl
@[simp] theorem State.setMqe_prog (s : State) (d : Nat) (x : Mqe) : (s.setMqe d x).prog = s.prog := rfl
@[simp] theorem State.setMqe_reqs (s : State) (d : Nat) (x : Mqe) : (s.setMqe d x).reqs = s.reqs := rfl
@[simp] theorem State.setMqe_reqDone (s : State) (d : Nat) (x : Mqe) : (s.setMqe d x).reqDone = s.reqDone := rfl
@[simp] theorem State.setMqe_enr (s : State) (d : Nat) (x : Mqe) : (s.setMqe d x).enr = s.enr := rfl
@[simp] theorem State.setMqe_ras (s : State) (d : Nat) (x : Mqe) : (s.setMqe d x).ras = s.ras := rfl
@[simp] theorem State.setMqe_pins (s : State) (d : Nat) (x : Mqe) : (s.setMqe d x).pins = s.pins := rfl
@[simp] theorem State.setMqe_cfg (s : State) (d : Nat) (x : Mqe) : (s.setMqe d x).cfg = s.cfg := rfl
@[simp] theorem State.setMqe_draws (s : State) (d : Nat) (x : Mqe) : (s.setMqe d x).draws = s.draws := rfl
@[simp] theorem State.setMqe_pending (s : State) (d : Nat) (x : Mqe) : (s.setMqe d x).pending = s.pending := rfl

/-! ## setClk -/

@[simp] theorem State.setClk_regs (s : State) (d : Nat) (x : Clk) : (s.setClk d x).regs = s.regs := rfl
@[simp] theorem State.setClk_tiles (s : State) (d : Nat) (x : Clk) : (s.setClk d x).tiles = s.tiles := rfl
@[simp] theorem State.setClk_mqes (s : State) (d : Nat) (x : Clk) : (s.setClk d x).mqes = s.mqes := rfl
@[simp] theorem State.setClk_hbm (s : State) (d : Nat) (x : Clk) : (s.setClk d x).hbm = s.hbm := rfl
@[simp] theorem State.setClk_hbmPoison (s : State) (d : Nat) (x : Clk) : (s.setClk d x).hbmPoison = s.hbmPoison := rfl
@[simp] theorem State.setClk_wins (s : State) (d : Nat) (x : Clk) : (s.setClk d x).wins = s.wins := rfl
@[simp] theorem State.setClk_ngt (s : State) (d : Nat) (x : Clk) : (s.setClk d x).ngt = s.ngt := rfl
@[simp] theorem State.setClk_clkSetting (s : State) (d : Nat) (x : Clk) : (s.setClk d x).clkSetting = s.clkSetting := rfl
@[simp] theorem State.setClk_mesh (s : State) (d : Nat) (x : Clk) : (s.setClk d x).mesh = s.mesh := rfl
@[simp] theorem State.setClk_meshClaims (s : State) (d : Nat) (x : Clk) : (s.setClk d x).meshClaims = s.meshClaims := rfl
@[simp] theorem State.setClk_fabs (s : State) (d : Nat) (x : Clk) : (s.setClk d x).fabs = s.fabs := rfl
@[simp] theorem State.setClk_links (s : State) (d : Nat) (x : Clk) : (s.setClk d x).links = s.links := rfl
@[simp] theorem State.setClk_svc (s : State) (d : Nat) (x : Clk) : (s.setClk d x).svc = s.svc := rfl
@[simp] theorem State.setClk_top (s : State) (d : Nat) (x : Clk) : (s.setClk d x).top = s.top := rfl
@[simp] theorem State.setClk_sec (s : State) (d : Nat) (x : Clk) : (s.setClk d x).sec = s.sec := rfl
@[simp] theorem State.setClk_stw (s : State) (d : Nat) (x : Clk) : (s.setClk d x).stw = s.stw := rfl
@[simp] theorem State.setClk_capos (s : State) (d : Nat) (x : Clk) : (s.setClk d x).capos = s.capos := rfl
@[simp] theorem State.setClk_prog (s : State) (d : Nat) (x : Clk) : (s.setClk d x).prog = s.prog := rfl
@[simp] theorem State.setClk_reqs (s : State) (d : Nat) (x : Clk) : (s.setClk d x).reqs = s.reqs := rfl
@[simp] theorem State.setClk_reqDone (s : State) (d : Nat) (x : Clk) : (s.setClk d x).reqDone = s.reqDone := rfl
@[simp] theorem State.setClk_enr (s : State) (d : Nat) (x : Clk) : (s.setClk d x).enr = s.enr := rfl
@[simp] theorem State.setClk_ras (s : State) (d : Nat) (x : Clk) : (s.setClk d x).ras = s.ras := rfl
@[simp] theorem State.setClk_pins (s : State) (d : Nat) (x : Clk) : (s.setClk d x).pins = s.pins := rfl
@[simp] theorem State.setClk_cfg (s : State) (d : Nat) (x : Clk) : (s.setClk d x).cfg = s.cfg := rfl
@[simp] theorem State.setClk_draws (s : State) (d : Nat) (x : Clk) : (s.setClk d x).draws = s.draws := rfl
@[simp] theorem State.setClk_pending (s : State) (d : Nat) (x : Clk) : (s.setClk d x).pending = s.pending := rfl

/-! ## setFab -/

@[simp] theorem State.setFab_regs (s : State) (p : Nat) (x : Fab) : (s.setFab p x).regs = s.regs := rfl
@[simp] theorem State.setFab_tiles (s : State) (p : Nat) (x : Fab) : (s.setFab p x).tiles = s.tiles := rfl
@[simp] theorem State.setFab_mqes (s : State) (p : Nat) (x : Fab) : (s.setFab p x).mqes = s.mqes := rfl
@[simp] theorem State.setFab_hbm (s : State) (p : Nat) (x : Fab) : (s.setFab p x).hbm = s.hbm := rfl
@[simp] theorem State.setFab_hbmPoison (s : State) (p : Nat) (x : Fab) : (s.setFab p x).hbmPoison = s.hbmPoison := rfl
@[simp] theorem State.setFab_wins (s : State) (p : Nat) (x : Fab) : (s.setFab p x).wins = s.wins := rfl
@[simp] theorem State.setFab_ngt (s : State) (p : Nat) (x : Fab) : (s.setFab p x).ngt = s.ngt := rfl
@[simp] theorem State.setFab_clkSetting (s : State) (p : Nat) (x : Fab) : (s.setFab p x).clkSetting = s.clkSetting := rfl
@[simp] theorem State.setFab_clks (s : State) (p : Nat) (x : Fab) : (s.setFab p x).clks = s.clks := rfl
@[simp] theorem State.setFab_mesh (s : State) (p : Nat) (x : Fab) : (s.setFab p x).mesh = s.mesh := rfl
@[simp] theorem State.setFab_meshClaims (s : State) (p : Nat) (x : Fab) : (s.setFab p x).meshClaims = s.meshClaims := rfl
@[simp] theorem State.setFab_links (s : State) (p : Nat) (x : Fab) : (s.setFab p x).links = s.links := rfl
@[simp] theorem State.setFab_svc (s : State) (p : Nat) (x : Fab) : (s.setFab p x).svc = s.svc := rfl
@[simp] theorem State.setFab_top (s : State) (p : Nat) (x : Fab) : (s.setFab p x).top = s.top := rfl
@[simp] theorem State.setFab_sec (s : State) (p : Nat) (x : Fab) : (s.setFab p x).sec = s.sec := rfl
@[simp] theorem State.setFab_stw (s : State) (p : Nat) (x : Fab) : (s.setFab p x).stw = s.stw := rfl
@[simp] theorem State.setFab_capos (s : State) (p : Nat) (x : Fab) : (s.setFab p x).capos = s.capos := rfl
@[simp] theorem State.setFab_prog (s : State) (p : Nat) (x : Fab) : (s.setFab p x).prog = s.prog := rfl
@[simp] theorem State.setFab_reqs (s : State) (p : Nat) (x : Fab) : (s.setFab p x).reqs = s.reqs := rfl
@[simp] theorem State.setFab_reqDone (s : State) (p : Nat) (x : Fab) : (s.setFab p x).reqDone = s.reqDone := rfl
@[simp] theorem State.setFab_enr (s : State) (p : Nat) (x : Fab) : (s.setFab p x).enr = s.enr := rfl
@[simp] theorem State.setFab_ras (s : State) (p : Nat) (x : Fab) : (s.setFab p x).ras = s.ras := rfl
@[simp] theorem State.setFab_pins (s : State) (p : Nat) (x : Fab) : (s.setFab p x).pins = s.pins := rfl
@[simp] theorem State.setFab_cfg (s : State) (p : Nat) (x : Fab) : (s.setFab p x).cfg = s.cfg := rfl
@[simp] theorem State.setFab_draws (s : State) (p : Nat) (x : Fab) : (s.setFab p x).draws = s.draws := rfl
@[simp] theorem State.setFab_pending (s : State) (p : Nat) (x : Fab) : (s.setFab p x).pending = s.pending := rfl

/-! ## setLink -/

@[simp] theorem State.setLink_regs (s : State) (p : Nat) (x : Link) : (s.setLink p x).regs = s.regs := rfl
@[simp] theorem State.setLink_tiles (s : State) (p : Nat) (x : Link) : (s.setLink p x).tiles = s.tiles := rfl
@[simp] theorem State.setLink_mqes (s : State) (p : Nat) (x : Link) : (s.setLink p x).mqes = s.mqes := rfl
@[simp] theorem State.setLink_hbm (s : State) (p : Nat) (x : Link) : (s.setLink p x).hbm = s.hbm := rfl
@[simp] theorem State.setLink_hbmPoison (s : State) (p : Nat) (x : Link) : (s.setLink p x).hbmPoison = s.hbmPoison := rfl
@[simp] theorem State.setLink_wins (s : State) (p : Nat) (x : Link) : (s.setLink p x).wins = s.wins := rfl
@[simp] theorem State.setLink_ngt (s : State) (p : Nat) (x : Link) : (s.setLink p x).ngt = s.ngt := rfl
@[simp] theorem State.setLink_clkSetting (s : State) (p : Nat) (x : Link) : (s.setLink p x).clkSetting = s.clkSetting := rfl
@[simp] theorem State.setLink_clks (s : State) (p : Nat) (x : Link) : (s.setLink p x).clks = s.clks := rfl
@[simp] theorem State.setLink_mesh (s : State) (p : Nat) (x : Link) : (s.setLink p x).mesh = s.mesh := rfl
@[simp] theorem State.setLink_meshClaims (s : State) (p : Nat) (x : Link) : (s.setLink p x).meshClaims = s.meshClaims := rfl
@[simp] theorem State.setLink_fabs (s : State) (p : Nat) (x : Link) : (s.setLink p x).fabs = s.fabs := rfl
@[simp] theorem State.setLink_svc (s : State) (p : Nat) (x : Link) : (s.setLink p x).svc = s.svc := rfl
@[simp] theorem State.setLink_top (s : State) (p : Nat) (x : Link) : (s.setLink p x).top = s.top := rfl
@[simp] theorem State.setLink_sec (s : State) (p : Nat) (x : Link) : (s.setLink p x).sec = s.sec := rfl
@[simp] theorem State.setLink_stw (s : State) (p : Nat) (x : Link) : (s.setLink p x).stw = s.stw := rfl
@[simp] theorem State.setLink_capos (s : State) (p : Nat) (x : Link) : (s.setLink p x).capos = s.capos := rfl
@[simp] theorem State.setLink_prog (s : State) (p : Nat) (x : Link) : (s.setLink p x).prog = s.prog := rfl
@[simp] theorem State.setLink_reqs (s : State) (p : Nat) (x : Link) : (s.setLink p x).reqs = s.reqs := rfl
@[simp] theorem State.setLink_reqDone (s : State) (p : Nat) (x : Link) : (s.setLink p x).reqDone = s.reqDone := rfl
@[simp] theorem State.setLink_enr (s : State) (p : Nat) (x : Link) : (s.setLink p x).enr = s.enr := rfl
@[simp] theorem State.setLink_ras (s : State) (p : Nat) (x : Link) : (s.setLink p x).ras = s.ras := rfl
@[simp] theorem State.setLink_pins (s : State) (p : Nat) (x : Link) : (s.setLink p x).pins = s.pins := rfl
@[simp] theorem State.setLink_cfg (s : State) (p : Nat) (x : Link) : (s.setLink p x).cfg = s.cfg := rfl
@[simp] theorem State.setLink_draws (s : State) (p : Nat) (x : Link) : (s.setLink p x).draws = s.draws := rfl
@[simp] theorem State.setLink_pending (s : State) (p : Nat) (x : Link) : (s.setLink p x).pending = s.pending := rfl

/-! ## setCtx -/

@[simp] theorem State.setCtx_regs (s : State) (n : Nat) (x : Sctx) : (s.setCtx n x).regs = s.regs := rfl
@[simp] theorem State.setCtx_tiles (s : State) (n : Nat) (x : Sctx) : (s.setCtx n x).tiles = s.tiles := rfl
@[simp] theorem State.setCtx_mqes (s : State) (n : Nat) (x : Sctx) : (s.setCtx n x).mqes = s.mqes := rfl
@[simp] theorem State.setCtx_hbm (s : State) (n : Nat) (x : Sctx) : (s.setCtx n x).hbm = s.hbm := rfl
@[simp] theorem State.setCtx_hbmPoison (s : State) (n : Nat) (x : Sctx) : (s.setCtx n x).hbmPoison = s.hbmPoison := rfl
@[simp] theorem State.setCtx_wins (s : State) (n : Nat) (x : Sctx) : (s.setCtx n x).wins = s.wins := rfl
@[simp] theorem State.setCtx_ngt (s : State) (n : Nat) (x : Sctx) : (s.setCtx n x).ngt = s.ngt := rfl
@[simp] theorem State.setCtx_clkSetting (s : State) (n : Nat) (x : Sctx) : (s.setCtx n x).clkSetting = s.clkSetting := rfl
@[simp] theorem State.setCtx_clks (s : State) (n : Nat) (x : Sctx) : (s.setCtx n x).clks = s.clks := rfl
@[simp] theorem State.setCtx_mesh (s : State) (n : Nat) (x : Sctx) : (s.setCtx n x).mesh = s.mesh := rfl
@[simp] theorem State.setCtx_meshClaims (s : State) (n : Nat) (x : Sctx) : (s.setCtx n x).meshClaims = s.meshClaims := rfl
@[simp] theorem State.setCtx_fabs (s : State) (n : Nat) (x : Sctx) : (s.setCtx n x).fabs = s.fabs := rfl
@[simp] theorem State.setCtx_links (s : State) (n : Nat) (x : Sctx) : (s.setCtx n x).links = s.links := rfl
@[simp] theorem State.setCtx_top (s : State) (n : Nat) (x : Sctx) : (s.setCtx n x).top = s.top := rfl
@[simp] theorem State.setCtx_sec (s : State) (n : Nat) (x : Sctx) : (s.setCtx n x).sec = s.sec := rfl
@[simp] theorem State.setCtx_stw (s : State) (n : Nat) (x : Sctx) : (s.setCtx n x).stw = s.stw := rfl
@[simp] theorem State.setCtx_capos (s : State) (n : Nat) (x : Sctx) : (s.setCtx n x).capos = s.capos := rfl
@[simp] theorem State.setCtx_prog (s : State) (n : Nat) (x : Sctx) : (s.setCtx n x).prog = s.prog := rfl
@[simp] theorem State.setCtx_reqs (s : State) (n : Nat) (x : Sctx) : (s.setCtx n x).reqs = s.reqs := rfl
@[simp] theorem State.setCtx_reqDone (s : State) (n : Nat) (x : Sctx) : (s.setCtx n x).reqDone = s.reqDone := rfl
@[simp] theorem State.setCtx_enr (s : State) (n : Nat) (x : Sctx) : (s.setCtx n x).enr = s.enr := rfl
@[simp] theorem State.setCtx_ras (s : State) (n : Nat) (x : Sctx) : (s.setCtx n x).ras = s.ras := rfl
@[simp] theorem State.setCtx_pins (s : State) (n : Nat) (x : Sctx) : (s.setCtx n x).pins = s.pins := rfl
@[simp] theorem State.setCtx_cfg (s : State) (n : Nat) (x : Sctx) : (s.setCtx n x).cfg = s.cfg := rfl
@[simp] theorem State.setCtx_draws (s : State) (n : Nat) (x : Sctx) : (s.setCtx n x).draws = s.draws := rfl
@[simp] theorem State.setCtx_pending (s : State) (n : Nat) (x : Sctx) : (s.setCtx n x).pending = s.pending := rfl

/-! ## setChan -/

@[simp] theorem State.setChan_regs (s : State) (n : Nat) (x : Chan) : (s.setChan n x).regs = s.regs := rfl
@[simp] theorem State.setChan_tiles (s : State) (n : Nat) (x : Chan) : (s.setChan n x).tiles = s.tiles := rfl
@[simp] theorem State.setChan_mqes (s : State) (n : Nat) (x : Chan) : (s.setChan n x).mqes = s.mqes := rfl
@[simp] theorem State.setChan_hbm (s : State) (n : Nat) (x : Chan) : (s.setChan n x).hbm = s.hbm := rfl
@[simp] theorem State.setChan_hbmPoison (s : State) (n : Nat) (x : Chan) : (s.setChan n x).hbmPoison = s.hbmPoison := rfl
@[simp] theorem State.setChan_wins (s : State) (n : Nat) (x : Chan) : (s.setChan n x).wins = s.wins := rfl
@[simp] theorem State.setChan_ngt (s : State) (n : Nat) (x : Chan) : (s.setChan n x).ngt = s.ngt := rfl
@[simp] theorem State.setChan_clkSetting (s : State) (n : Nat) (x : Chan) : (s.setChan n x).clkSetting = s.clkSetting := rfl
@[simp] theorem State.setChan_clks (s : State) (n : Nat) (x : Chan) : (s.setChan n x).clks = s.clks := rfl
@[simp] theorem State.setChan_mesh (s : State) (n : Nat) (x : Chan) : (s.setChan n x).mesh = s.mesh := rfl
@[simp] theorem State.setChan_meshClaims (s : State) (n : Nat) (x : Chan) : (s.setChan n x).meshClaims = s.meshClaims := rfl
@[simp] theorem State.setChan_fabs (s : State) (n : Nat) (x : Chan) : (s.setChan n x).fabs = s.fabs := rfl
@[simp] theorem State.setChan_links (s : State) (n : Nat) (x : Chan) : (s.setChan n x).links = s.links := rfl
@[simp] theorem State.setChan_svc (s : State) (n : Nat) (x : Chan) : (s.setChan n x).svc = s.svc := rfl
@[simp] theorem State.setChan_top (s : State) (n : Nat) (x : Chan) : (s.setChan n x).top = s.top := rfl
@[simp] theorem State.setChan_sec (s : State) (n : Nat) (x : Chan) : (s.setChan n x).sec = s.sec := rfl
@[simp] theorem State.setChan_capos (s : State) (n : Nat) (x : Chan) : (s.setChan n x).capos = s.capos := rfl
@[simp] theorem State.setChan_prog (s : State) (n : Nat) (x : Chan) : (s.setChan n x).prog = s.prog := rfl
@[simp] theorem State.setChan_reqs (s : State) (n : Nat) (x : Chan) : (s.setChan n x).reqs = s.reqs := rfl
@[simp] theorem State.setChan_reqDone (s : State) (n : Nat) (x : Chan) : (s.setChan n x).reqDone = s.reqDone := rfl
@[simp] theorem State.setChan_enr (s : State) (n : Nat) (x : Chan) : (s.setChan n x).enr = s.enr := rfl
@[simp] theorem State.setChan_ras (s : State) (n : Nat) (x : Chan) : (s.setChan n x).ras = s.ras := rfl
@[simp] theorem State.setChan_pins (s : State) (n : Nat) (x : Chan) : (s.setChan n x).pins = s.pins := rfl
@[simp] theorem State.setChan_cfg (s : State) (n : Nat) (x : Chan) : (s.setChan n x).cfg = s.cfg := rfl
@[simp] theorem State.setChan_draws (s : State) (n : Nat) (x : Chan) : (s.setChan n x).draws = s.draws := rfl
@[simp] theorem State.setChan_pending (s : State) (n : Nat) (x : Chan) : (s.setChan n x).pending = s.pending := rfl

/-! ## setCapo -/

@[simp] theorem State.setCapo_regs (s : State) (d : Nat) (x : Capo) : (s.setCapo d x).regs = s.regs := rfl
@[simp] theorem State.setCapo_tiles (s : State) (d : Nat) (x : Capo) : (s.setCapo d x).tiles = s.tiles := rfl
@[simp] theorem State.setCapo_mqes (s : State) (d : Nat) (x : Capo) : (s.setCapo d x).mqes = s.mqes := rfl
@[simp] theorem State.setCapo_hbm (s : State) (d : Nat) (x : Capo) : (s.setCapo d x).hbm = s.hbm := rfl
@[simp] theorem State.setCapo_hbmPoison (s : State) (d : Nat) (x : Capo) : (s.setCapo d x).hbmPoison = s.hbmPoison := rfl
@[simp] theorem State.setCapo_wins (s : State) (d : Nat) (x : Capo) : (s.setCapo d x).wins = s.wins := rfl
@[simp] theorem State.setCapo_ngt (s : State) (d : Nat) (x : Capo) : (s.setCapo d x).ngt = s.ngt := rfl
@[simp] theorem State.setCapo_clkSetting (s : State) (d : Nat) (x : Capo) : (s.setCapo d x).clkSetting = s.clkSetting := rfl
@[simp] theorem State.setCapo_clks (s : State) (d : Nat) (x : Capo) : (s.setCapo d x).clks = s.clks := rfl
@[simp] theorem State.setCapo_mesh (s : State) (d : Nat) (x : Capo) : (s.setCapo d x).mesh = s.mesh := rfl
@[simp] theorem State.setCapo_meshClaims (s : State) (d : Nat) (x : Capo) : (s.setCapo d x).meshClaims = s.meshClaims := rfl
@[simp] theorem State.setCapo_fabs (s : State) (d : Nat) (x : Capo) : (s.setCapo d x).fabs = s.fabs := rfl
@[simp] theorem State.setCapo_links (s : State) (d : Nat) (x : Capo) : (s.setCapo d x).links = s.links := rfl
@[simp] theorem State.setCapo_svc (s : State) (d : Nat) (x : Capo) : (s.setCapo d x).svc = s.svc := rfl
@[simp] theorem State.setCapo_top (s : State) (d : Nat) (x : Capo) : (s.setCapo d x).top = s.top := rfl
@[simp] theorem State.setCapo_sec (s : State) (d : Nat) (x : Capo) : (s.setCapo d x).sec = s.sec := rfl
@[simp] theorem State.setCapo_stw (s : State) (d : Nat) (x : Capo) : (s.setCapo d x).stw = s.stw := rfl
@[simp] theorem State.setCapo_prog (s : State) (d : Nat) (x : Capo) : (s.setCapo d x).prog = s.prog := rfl
@[simp] theorem State.setCapo_reqs (s : State) (d : Nat) (x : Capo) : (s.setCapo d x).reqs = s.reqs := rfl
@[simp] theorem State.setCapo_reqDone (s : State) (d : Nat) (x : Capo) : (s.setCapo d x).reqDone = s.reqDone := rfl
@[simp] theorem State.setCapo_enr (s : State) (d : Nat) (x : Capo) : (s.setCapo d x).enr = s.enr := rfl
@[simp] theorem State.setCapo_ras (s : State) (d : Nat) (x : Capo) : (s.setCapo d x).ras = s.ras := rfl
@[simp] theorem State.setCapo_pins (s : State) (d : Nat) (x : Capo) : (s.setCapo d x).pins = s.pins := rfl
@[simp] theorem State.setCapo_cfg (s : State) (d : Nat) (x : Capo) : (s.setCapo d x).cfg = s.cfg := rfl
@[simp] theorem State.setCapo_draws (s : State) (d : Nat) (x : Capo) : (s.setCapo d x).draws = s.draws := rfl
@[simp] theorem State.setCapo_pending (s : State) (d : Nat) (x : Capo) : (s.setCapo d x).pending = s.pending := rfl

/-! ## setReq -/

@[simp] theorem State.setReq_regs (s : State) (i : Nat) (x : Request) : (s.setReq i x).regs = s.regs := rfl
@[simp] theorem State.setReq_tiles (s : State) (i : Nat) (x : Request) : (s.setReq i x).tiles = s.tiles := rfl
@[simp] theorem State.setReq_mqes (s : State) (i : Nat) (x : Request) : (s.setReq i x).mqes = s.mqes := rfl
@[simp] theorem State.setReq_hbm (s : State) (i : Nat) (x : Request) : (s.setReq i x).hbm = s.hbm := rfl
@[simp] theorem State.setReq_hbmPoison (s : State) (i : Nat) (x : Request) : (s.setReq i x).hbmPoison = s.hbmPoison := rfl
@[simp] theorem State.setReq_wins (s : State) (i : Nat) (x : Request) : (s.setReq i x).wins = s.wins := rfl
@[simp] theorem State.setReq_ngt (s : State) (i : Nat) (x : Request) : (s.setReq i x).ngt = s.ngt := rfl
@[simp] theorem State.setReq_clkSetting (s : State) (i : Nat) (x : Request) : (s.setReq i x).clkSetting = s.clkSetting := rfl
@[simp] theorem State.setReq_clks (s : State) (i : Nat) (x : Request) : (s.setReq i x).clks = s.clks := rfl
@[simp] theorem State.setReq_mesh (s : State) (i : Nat) (x : Request) : (s.setReq i x).mesh = s.mesh := rfl
@[simp] theorem State.setReq_meshClaims (s : State) (i : Nat) (x : Request) : (s.setReq i x).meshClaims = s.meshClaims := rfl
@[simp] theorem State.setReq_fabs (s : State) (i : Nat) (x : Request) : (s.setReq i x).fabs = s.fabs := rfl
@[simp] theorem State.setReq_links (s : State) (i : Nat) (x : Request) : (s.setReq i x).links = s.links := rfl
@[simp] theorem State.setReq_svc (s : State) (i : Nat) (x : Request) : (s.setReq i x).svc = s.svc := rfl
@[simp] theorem State.setReq_top (s : State) (i : Nat) (x : Request) : (s.setReq i x).top = s.top := rfl
@[simp] theorem State.setReq_sec (s : State) (i : Nat) (x : Request) : (s.setReq i x).sec = s.sec := rfl
@[simp] theorem State.setReq_stw (s : State) (i : Nat) (x : Request) : (s.setReq i x).stw = s.stw := rfl
@[simp] theorem State.setReq_capos (s : State) (i : Nat) (x : Request) : (s.setReq i x).capos = s.capos := rfl
@[simp] theorem State.setReq_prog (s : State) (i : Nat) (x : Request) : (s.setReq i x).prog = s.prog := rfl
@[simp] theorem State.setReq_reqDone (s : State) (i : Nat) (x : Request) : (s.setReq i x).reqDone = s.reqDone := rfl
@[simp] theorem State.setReq_enr (s : State) (i : Nat) (x : Request) : (s.setReq i x).enr = s.enr := rfl
@[simp] theorem State.setReq_ras (s : State) (i : Nat) (x : Request) : (s.setReq i x).ras = s.ras := rfl
@[simp] theorem State.setReq_pins (s : State) (i : Nat) (x : Request) : (s.setReq i x).pins = s.pins := rfl
@[simp] theorem State.setReq_cfg (s : State) (i : Nat) (x : Request) : (s.setReq i x).cfg = s.cfg := rfl
@[simp] theorem State.setReq_draws (s : State) (i : Nat) (x : Request) : (s.setReq i x).draws = s.draws := rfl
@[simp] theorem State.setReq_pending (s : State) (i : Nat) (x : Request) : (s.setReq i x).pending = s.pending := rfl

/-! ## setNgt -/

@[simp] theorem State.setNgt_regs (s : State) (x : Ngt) : (s.setNgt x).regs = s.regs := rfl
@[simp] theorem State.setNgt_tiles (s : State) (x : Ngt) : (s.setNgt x).tiles = s.tiles := rfl
@[simp] theorem State.setNgt_mqes (s : State) (x : Ngt) : (s.setNgt x).mqes = s.mqes := rfl
@[simp] theorem State.setNgt_hbm (s : State) (x : Ngt) : (s.setNgt x).hbm = s.hbm := rfl
@[simp] theorem State.setNgt_hbmPoison (s : State) (x : Ngt) : (s.setNgt x).hbmPoison = s.hbmPoison := rfl
@[simp] theorem State.setNgt_wins (s : State) (x : Ngt) : (s.setNgt x).wins = s.wins := rfl
@[simp] theorem State.setNgt_clks (s : State) (x : Ngt) : (s.setNgt x).clks = s.clks := rfl
@[simp] theorem State.setNgt_clkSetting (s : State) (x : Ngt) : (s.setNgt x).clkSetting = s.clkSetting := rfl
@[simp] theorem State.setNgt_mesh (s : State) (x : Ngt) : (s.setNgt x).mesh = s.mesh := rfl
@[simp] theorem State.setNgt_meshClaims (s : State) (x : Ngt) : (s.setNgt x).meshClaims = s.meshClaims := rfl
@[simp] theorem State.setNgt_fabs (s : State) (x : Ngt) : (s.setNgt x).fabs = s.fabs := rfl
@[simp] theorem State.setNgt_links (s : State) (x : Ngt) : (s.setNgt x).links = s.links := rfl
@[simp] theorem State.setNgt_svc (s : State) (x : Ngt) : (s.setNgt x).svc = s.svc := rfl
@[simp] theorem State.setNgt_top (s : State) (x : Ngt) : (s.setNgt x).top = s.top := rfl
@[simp] theorem State.setNgt_sec (s : State) (x : Ngt) : (s.setNgt x).sec = s.sec := rfl
@[simp] theorem State.setNgt_stw (s : State) (x : Ngt) : (s.setNgt x).stw = s.stw := rfl
@[simp] theorem State.setNgt_capos (s : State) (x : Ngt) : (s.setNgt x).capos = s.capos := rfl
@[simp] theorem State.setNgt_prog (s : State) (x : Ngt) : (s.setNgt x).prog = s.prog := rfl
@[simp] theorem State.setNgt_reqs (s : State) (x : Ngt) : (s.setNgt x).reqs = s.reqs := rfl
@[simp] theorem State.setNgt_reqDone (s : State) (x : Ngt) : (s.setNgt x).reqDone = s.reqDone := rfl
@[simp] theorem State.setNgt_enr (s : State) (x : Ngt) : (s.setNgt x).enr = s.enr := rfl
@[simp] theorem State.setNgt_ras (s : State) (x : Ngt) : (s.setNgt x).ras = s.ras := rfl
@[simp] theorem State.setNgt_pins (s : State) (x : Ngt) : (s.setNgt x).pins = s.pins := rfl
@[simp] theorem State.setNgt_cfg (s : State) (x : Ngt) : (s.setNgt x).cfg = s.cfg := rfl
@[simp] theorem State.setNgt_draws (s : State) (x : Ngt) : (s.setNgt x).draws = s.draws := rfl
@[simp] theorem State.setNgt_pending (s : State) (x : Ngt) : (s.setNgt x).pending = s.pending := rfl

/-! ## answered -/

@[simp] theorem State.answered_regs (s : State) (k : AnswerKind) (bs : List Byte) : (s.answered k bs).regs = s.regs := rfl
@[simp] theorem State.answered_tiles (s : State) (k : AnswerKind) (bs : List Byte) : (s.answered k bs).tiles = s.tiles := rfl
@[simp] theorem State.answered_mqes (s : State) (k : AnswerKind) (bs : List Byte) : (s.answered k bs).mqes = s.mqes := rfl
@[simp] theorem State.answered_hbm (s : State) (k : AnswerKind) (bs : List Byte) : (s.answered k bs).hbm = s.hbm := rfl
@[simp] theorem State.answered_hbmPoison (s : State) (k : AnswerKind) (bs : List Byte) : (s.answered k bs).hbmPoison = s.hbmPoison := rfl
@[simp] theorem State.answered_wins (s : State) (k : AnswerKind) (bs : List Byte) : (s.answered k bs).wins = s.wins := rfl
@[simp] theorem State.answered_ngt (s : State) (k : AnswerKind) (bs : List Byte) : (s.answered k bs).ngt = s.ngt := rfl
@[simp] theorem State.answered_clkSetting (s : State) (k : AnswerKind) (bs : List Byte) : (s.answered k bs).clkSetting = s.clkSetting := rfl
@[simp] theorem State.answered_clks (s : State) (k : AnswerKind) (bs : List Byte) : (s.answered k bs).clks = s.clks := rfl
@[simp] theorem State.answered_mesh (s : State) (k : AnswerKind) (bs : List Byte) : (s.answered k bs).mesh = s.mesh := rfl
@[simp] theorem State.answered_meshClaims (s : State) (k : AnswerKind) (bs : List Byte) : (s.answered k bs).meshClaims = s.meshClaims := rfl
@[simp] theorem State.answered_fabs (s : State) (k : AnswerKind) (bs : List Byte) : (s.answered k bs).fabs = s.fabs := rfl
@[simp] theorem State.answered_links (s : State) (k : AnswerKind) (bs : List Byte) : (s.answered k bs).links = s.links := rfl
@[simp] theorem State.answered_svc (s : State) (k : AnswerKind) (bs : List Byte) : (s.answered k bs).svc = s.svc := rfl
@[simp] theorem State.answered_top (s : State) (k : AnswerKind) (bs : List Byte) : (s.answered k bs).top = s.top := rfl
@[simp] theorem State.answered_sec (s : State) (k : AnswerKind) (bs : List Byte) : (s.answered k bs).sec = s.sec := rfl
@[simp] theorem State.answered_capos (s : State) (k : AnswerKind) (bs : List Byte) : (s.answered k bs).capos = s.capos := rfl
@[simp] theorem State.answered_prog (s : State) (k : AnswerKind) (bs : List Byte) : (s.answered k bs).prog = s.prog := rfl
@[simp] theorem State.answered_reqs (s : State) (k : AnswerKind) (bs : List Byte) : (s.answered k bs).reqs = s.reqs := rfl
@[simp] theorem State.answered_reqDone (s : State) (k : AnswerKind) (bs : List Byte) : (s.answered k bs).reqDone = s.reqDone := rfl
@[simp] theorem State.answered_enr (s : State) (k : AnswerKind) (bs : List Byte) : (s.answered k bs).enr = s.enr := rfl
@[simp] theorem State.answered_ras (s : State) (k : AnswerKind) (bs : List Byte) : (s.answered k bs).ras = s.ras := rfl
@[simp] theorem State.answered_pins (s : State) (k : AnswerKind) (bs : List Byte) : (s.answered k bs).pins = s.pins := rfl
@[simp] theorem State.answered_cfg (s : State) (k : AnswerKind) (bs : List Byte) : (s.answered k bs).cfg = s.cfg := rfl
@[simp] theorem State.answered_draws (s : State) (k : AnswerKind) (bs : List Byte) : (s.answered k bs).draws = s.draws := rfl
@[simp] theorem State.answered_pending (s : State) (k : AnswerKind) (bs : List Byte) : (s.answered k bs).pending = s.pending := rfl

/-! ## setPcie -/

@[simp] theorem State.setPcie_regs (s : State) (p : Pcie) : (s.setPcie p).regs = s.regs := rfl
@[simp] theorem State.setPcie_tiles (s : State) (p : Pcie) : (s.setPcie p).tiles = s.tiles := rfl
@[simp] theorem State.setPcie_mqes (s : State) (p : Pcie) : (s.setPcie p).mqes = s.mqes := rfl
@[simp] theorem State.setPcie_hbm (s : State) (p : Pcie) : (s.setPcie p).hbm = s.hbm := rfl
@[simp] theorem State.setPcie_hbmPoison (s : State) (p : Pcie) : (s.setPcie p).hbmPoison = s.hbmPoison := rfl
@[simp] theorem State.setPcie_wins (s : State) (p : Pcie) : (s.setPcie p).wins = s.wins := rfl
@[simp] theorem State.setPcie_ngt (s : State) (p : Pcie) : (s.setPcie p).ngt = s.ngt := rfl
@[simp] theorem State.setPcie_clks (s : State) (p : Pcie) : (s.setPcie p).clks = s.clks := rfl
@[simp] theorem State.setPcie_clkSetting (s : State) (p : Pcie) : (s.setPcie p).clkSetting = s.clkSetting := rfl
@[simp] theorem State.setPcie_mesh (s : State) (p : Pcie) : (s.setPcie p).mesh = s.mesh := rfl
@[simp] theorem State.setPcie_meshClaims (s : State) (p : Pcie) : (s.setPcie p).meshClaims = s.meshClaims := rfl
@[simp] theorem State.setPcie_fabs (s : State) (p : Pcie) : (s.setPcie p).fabs = s.fabs := rfl
@[simp] theorem State.setPcie_links (s : State) (p : Pcie) : (s.setPcie p).links = s.links := rfl
@[simp] theorem State.setPcie_svc (s : State) (p : Pcie) : (s.setPcie p).svc = s.svc := rfl
@[simp] theorem State.setPcie_top (s : State) (p : Pcie) : (s.setPcie p).top = s.top := rfl
@[simp] theorem State.setPcie_sec (s : State) (p : Pcie) : (s.setPcie p).sec = s.sec := rfl
@[simp] theorem State.setPcie_capos (s : State) (p : Pcie) : (s.setPcie p).capos = s.capos := rfl
@[simp] theorem State.setPcie_prog (s : State) (p : Pcie) : (s.setPcie p).prog = s.prog := rfl
@[simp] theorem State.setPcie_reqs (s : State) (p : Pcie) : (s.setPcie p).reqs = s.reqs := rfl
@[simp] theorem State.setPcie_reqDone (s : State) (p : Pcie) : (s.setPcie p).reqDone = s.reqDone := rfl
@[simp] theorem State.setPcie_enr (s : State) (p : Pcie) : (s.setPcie p).enr = s.enr := rfl
@[simp] theorem State.setPcie_ras (s : State) (p : Pcie) : (s.setPcie p).ras = s.ras := rfl
@[simp] theorem State.setPcie_pins (s : State) (p : Pcie) : (s.setPcie p).pins = s.pins := rfl
@[simp] theorem State.setPcie_cfg (s : State) (p : Pcie) : (s.setPcie p).cfg = s.cfg := rfl
@[simp] theorem State.setPcie_draws (s : State) (p : Pcie) : (s.setPcie p).draws = s.draws := rfl
@[simp] theorem State.setPcie_pending (s : State) (p : Pcie) : (s.setPcie p).pending = s.pending := rfl
@[simp] theorem State.setPcie_pcie (s : State) (p : Pcie) : (s.setPcie p).stw.pcie = p := rfl

/-! ## Reads after updates -/

@[simp] theorem State.reg_setReg_same (s : State) (o : Nat) (v : BitVec 64) : (s.setReg o v).reg o = v := by
  unfold State.reg State.setReg
  exact tget_tset_same _ _ _ _

theorem State.reg_setReg_ne (s : State) {o p : Nat} (v : BitVec 64) (h : p ≠ o) : (s.setReg o v).reg p = s.reg p := by
  unfold State.reg State.setReg
  exact tget_tset_apart _ _ _ _ h

theorem State.reg_fset_ne (s : State) {o p : Nat} (f : RField) (v : Nat) (h : p ≠ o) : (s.fset o f v).reg p = s.reg p :=
  s.reg_setReg_ne _ h

theorem State.fget_fset_off (s : State) {o p : Nat} (f g : RField) (v : Nat) (h : p ≠ o) : (s.fset o f v).fget p g = s.fget p g := by
  unfold State.fget
  rw [s.reg_fset_ne f v h]

@[simp] theorem State.tile_setTile_same (s : State) (p : Nat) (t : Tile) : (s.setTile p t).tile p = t := by
  unfold State.tile State.setTile
  exact tget_tset_same _ _ _ _
theorem State.tile_setTile_ne (s : State) {p q : Nat} (t : Tile) (h : q ≠ p) : (s.setTile p t).tile q = s.tile q := by
  unfold State.tile State.setTile
  exact tget_tset_ne _ _ _ h
@[simp] theorem State.mqe_setMqe_same (s : State) (d : Nat) (m : Mqe) : (s.setMqe d m).mqe d = m := by
  unfold State.mqe State.setMqe
  exact tget_tset_same _ _ _ _
theorem State.mqe_setMqe_ne (s : State) {d e : Nat} (m : Mqe) (h : e ≠ d) : (s.setMqe d m).mqe e = s.mqe e := by
  unfold State.mqe State.setMqe
  exact tget_tset_ne _ _ _ h
@[simp] theorem State.clk_setClk_same (s : State) (d : Nat) (c : Clk) : (s.setClk d c).clk d = c := by
  unfold State.clk State.setClk
  exact tget_tset_same _ _ _ _
theorem State.clk_setClk_ne (s : State) {d e : Nat} (c : Clk) (h : e ≠ d) : (s.setClk d c).clk e = s.clk e := by
  unfold State.clk State.setClk
  exact tget_tset_ne _ _ _ h
@[simp] theorem State.fab_setFab_same (s : State) (p : Nat) (f : Fab) : (s.setFab p f).fab p = f := by
  unfold State.fab State.setFab
  exact tget_tset_same _ _ _ _
theorem State.fab_setFab_ne (s : State) {p q : Nat} (f : Fab) (h : q ≠ p) : (s.setFab p f).fab q = s.fab q := by
  unfold State.fab State.setFab
  exact tget_tset_ne _ _ _ h
@[simp] theorem State.link_setLink_same (s : State) (p : Nat) (l : Link) : (s.setLink p l).link p = l := by
  unfold State.link State.setLink
  exact tget_tset_same _ _ _ _
theorem State.link_setLink_ne (s : State) {p q : Nat} (l : Link) (h : q ≠ p) : (s.setLink p l).link q = s.link q := by
  unfold State.link State.setLink
  exact tget_tset_ne _ _ _ h
@[simp] theorem State.ctx_setCtx_same (s : State) (n : Nat) (c : Sctx) : (s.setCtx n c).ctx n = c := by
  unfold State.ctx State.setCtx
  exact tget_tset_same _ _ _ _
theorem State.ctx_setCtx_ne (s : State) {n m : Nat} (c : Sctx) (h : m ≠ n) : (s.setCtx n c).ctx m = s.ctx m := by
  unfold State.ctx State.setCtx
  exact tget_tset_ne _ _ _ h
@[simp] theorem State.chan_setChan_same (s : State) (n : Nat) (c : Chan) : (s.setChan n c).chan n = c := by
  unfold State.chan State.setChan
  exact tget_tset_same _ _ _ _
theorem State.chan_setChan_ne (s : State) {n m : Nat} (c : Chan) (h : m ≠ n) : (s.setChan n c).chan m = s.chan m := by
  unfold State.chan State.setChan
  exact tget_tset_ne _ _ _ h
@[simp] theorem State.capo_setCapo_same (s : State) (d : Nat) (c : Capo) : (s.setCapo d c).capo d = c := by
  unfold State.capo State.setCapo
  exact tget_tset_same _ _ _ _
theorem State.capo_setCapo_ne (s : State) {d e : Nat} (c : Capo) (h : e ≠ d) : (s.setCapo d c).capo e = s.capo e := by
  unfold State.capo State.setCapo
  exact tget_tset_ne _ _ _ h
@[simp] theorem State.req_setReq_same (s : State) (i : Nat) (r : Request) : (s.setReq i r).req i = r := by
  unfold State.req State.setReq
  exact tget_tset_same _ _ _ _
theorem State.req_setReq_ne (s : State) {i j : Nat} (r : Request) (h : j ≠ i) : (s.setReq i r).req j = s.req j := by
  unfold State.req State.setReq
  exact tget_tset_ne _ _ _ h

/-! ## Bit fields -/

theorem putField_lt (w lo len v n : Nat) (hw : w < 2 ^ n) (h : lo + len ≤ n) : putField w lo len v < 2 ^ n := by
  have h1 : w % 2 ^ lo < 2 ^ lo := Nat.mod_lt _ (Nat.two_pow_pos lo)
  have h2 : v % 2 ^ len < 2 ^ len := Nat.mod_lt _ (Nat.two_pow_pos len)
  have h3 : w >>> (lo + len) < 2 ^ (n - (lo + len)) := by
    rw [Nat.shiftRight_eq_div_pow]
    apply Nat.div_lt_of_lt_mul
    rw [← Nat.pow_add]
    simpa [Nat.add_sub_cancel' h] using hw
  have e : 2 ^ n = 2 ^ (n - (lo + len)) * 2 ^ (lo + len) := by rw [← Nat.pow_add, Nat.sub_add_cancel h]
  have e2 : 2 ^ (lo + len) = 2 ^ len * 2 ^ lo := by rw [← Nat.pow_add, Nat.add_comm]
  have h2' : v % 2 ^ len + 1 ≤ 2 ^ len := h2
  have h3' : w >>> (lo + len) + 1 ≤ 2 ^ (n - (lo + len)) := h3
  have a1 : (v % 2 ^ len + 1) * 2 ^ lo ≤ 2 ^ (lo + len) := by rw [e2]; exact Nat.mul_le_mul_right _ h2'
  have a2 : (w >>> (lo + len) + 1) * 2 ^ (lo + len) ≤ 2 ^ n := by rw [e]; exact Nat.mul_le_mul_right _ h3'
  rw [Nat.add_mul] at a1 a2
  unfold putField
  omega

/-- A field reads what was put there, cut to its width. -/
theorem field_putField (w lo len v : Nat) : field (putField w lo len v) lo len = v % 2 ^ len := by
  have h1 : w % 2 ^ lo < 2 ^ lo := Nat.mod_lt _ (Nat.two_pow_pos lo)
  have e2 : 2 ^ (lo + len) = 2 ^ lo * 2 ^ len := Nat.pow_add ..
  unfold field putField
  rw [Nat.shiftRight_eq_div_pow, e2]
  have : w % 2 ^ lo + v % 2 ^ len * 2 ^ lo + w >>> (lo + len) * (2 ^ lo * 2 ^ len) =
      w % 2 ^ lo + (v % 2 ^ len + w >>> (lo + len) * 2 ^ len) * 2 ^ lo := by
    rw [Nat.add_mul, Nat.mul_comm (2 ^ lo) (2 ^ len), Nat.mul_assoc]
    omega
  rw [this, Nat.add_mul_div_right _ _ (Nat.two_pow_pos lo), Nat.div_eq_of_lt h1, Nat.zero_add, Nat.add_mul_mod_self_right,
    Nat.mod_mod]

/-- A field of a register reads what was written to it. -/
theorem State.fget_fset_same (s : State) (o : Nat) (f : RField) (v : Nat) (h : f.lo + f.len ≤ 64) :
    (s.fset o f v).fget o f = v % 2 ^ f.len := by
  unfold State.fget State.fset
  rw [State.reg_setReg_same, BitVec.toNat_ofNat, Nat.mod_eq_of_lt (putField_lt _ _ _ _ _ (BitVec.isLt _) h), field_putField]

/-- Whether two fields lie apart. -/
def RField.apart (f g : RField) : Prop := f.lo + f.len ≤ g.lo ∨ g.lo + g.len ≤ f.lo

theorem field_putField_apart (w lo len v a n : Nat) (h : lo + len ≤ a ∨ a + n ≤ lo) :
    field (putField w lo len v) a n = field w a n := by
  unfold field putField
  apply Nat.eq_of_testBit_eq
  intro i
  simp only [Nat.testBit_mod_two_pow, Nat.testBit_shiftRight]
  by_cases hi : i < n
  · simp only [hi, decide_true, Bool.true_and]
    have e : w % 2 ^ lo + v % 2 ^ len * 2 ^ lo + w >>> (lo + len) * 2 ^ (lo + len) =
        2 ^ (lo + len) * (w >>> (lo + len)) + (2 ^ lo * (v % 2 ^ len) + w % 2 ^ lo) := by
      rw [Nat.mul_comm (w >>> _), Nat.mul_comm (v % _)]
      omega
    have hb : 2 ^ lo * (v % 2 ^ len) + w % 2 ^ lo < 2 ^ (lo + len) := by
      have h1 : w % 2 ^ lo < 2 ^ lo := Nat.mod_lt _ (Nat.two_pow_pos lo)
      have h2 : v % 2 ^ len + 1 ≤ 2 ^ len := Nat.mod_lt _ (Nat.two_pow_pos len)
      have := Nat.mul_le_mul_left (2 ^ lo) h2
      rw [Nat.mul_add, ← Nat.pow_add] at this
      omega
    rw [e]
    rcases h with h | h
    · rw [Nat.testBit_two_pow_mul_add _ hb]
      have : ¬ a + i < lo + len := by omega
      simp only [this, if_false, Nat.testBit_shiftRight]
      congr 1
      omega
    · rw [Nat.testBit_two_pow_mul_add _ hb]
      have : a + i < lo + len := by omega
      simp only [this, if_true]
      rw [Nat.testBit_two_pow_mul_add _ (Nat.mod_lt _ (Nat.two_pow_pos lo))]
      have : a + i < lo := by omega
      simp [this, Nat.testBit_mod_two_pow]
  · simp [hi]

/-- A write to a field leaves a field that lies apart. -/
theorem State.fget_fset_apart (s : State) (o : Nat) (f g : RField) (v : Nat) (hf : f.lo + f.len ≤ 64) (h : f.apart g) :
    (s.fset o f v).fget o g = s.fget o g := by
  unfold State.fget State.fset
  rw [State.reg_setReg_same, BitVec.toNat_ofNat, Nat.mod_eq_of_lt (putField_lt _ _ _ _ _ (BitVec.isLt _) hf),
    field_putField_apart _ _ _ _ _ _ h]

end Sys2Proof.Machine
end

