-- ==== Sys2Proof/Laws/Ops.lean ====
section
/-!
SUPPORT. What the shared operations can do, once for each: records of faults, errors of SRAM words, district clocks, stores to
the local HBM, and the cancellation of queue operations.
-/
namespace Sys2Proof.Machine

/-! ## Fault records (R519 to R521) -/

/-- With room in the queue, recording a fault appends one record with its code and class. -/
theorem State.record_room (s : State) (code cls : Nat) (pl : Place) (detail : Nat)
    (h : s.ras.queue.length < 256 ∧ (s.ras.queue.length < 224 ∨ 2 < cls)) :
    ∃ r : FaultRec, r.code = code ∧ r.cls = cls ∧ r.district = pl.district ∧ r.slot = pl.slot ∧ r.ptile = pl.ptile ∧
      r.ltile = pl.ltile ∧ r.bundle = pl.bundle ∧ r.loss = s.ras.lossNext ∧ r.ngt = hwStamp s.stamp ∧ r.transit = s.transit ∧
      r.detail = detail % 2 ^ 192 ∧
      s.record code cls pl detail = { s with ras := { s.ras with queue := s.ras.queue ++ [r], lossNext := false } } := by
  have hn : ¬(s.ras.queue.length ≥ 256 ∨ (s.ras.queue.length ≥ 224 ∧ cls ≤ 2)) := by omega
  refine ⟨{ code := code, cls := cls, loss := s.ras.lossNext, district := pl.district, slot := pl.slot, ptile := pl.ptile,
            ltile := pl.ltile, bundle := pl.bundle, ngt := hwStamp s.stamp, transit := s.transit, detail := detail % 2 ^ 192 },
    rfl, rfl, rfl, rfl, rfl, rfl, rfl, rfl, rfl, rfl, rfl, ?_⟩
  simp only [State.record, State.recordIn, if_neg hn]

/-- Without room the record is dropped: the dropped count goes up and the next record carries LOSS. -/
theorem State.record_full (s : State) (code cls : Nat) (pl : Place) (detail : Nat)
    (h : 256 ≤ s.ras.queue.length ∨ (224 ≤ s.ras.queue.length ∧ cls ≤ 2)) :
    s.record code cls pl detail =
      { (s.fbump R.rasLogStatus F.rasLogStatus_DROPPED 1) with ras := { s.ras with lossNext := true } } := by
  have hn : s.ras.queue.length ≥ 256 ∨ (s.ras.queue.length ≥ 224 ∧ cls ≤ 2) := by omega
  unfold State.record State.recordIn
  dsimp only
  rw [if_pos hn]

/-- A count that goes up is one word written. -/
theorem State.fbump_set (s : State) (o : Nat) (f : RField) (n : Nat) : ∃ v, s.fbump o f n = s.setReg o v := ⟨_, rfl⟩

/-- Recording a fault changes the registers and the RAS state only. -/
theorem State.record_eq (s : State) (code cls : Nat) (pl : Place) (detail : Nat) :
    ∃ rs ra, s.record code cls pl detail = { s with regs := rs, ras := ra } := by
  by_cases h : s.ras.queue.length < 256 ∧ (s.ras.queue.length < 224 ∨ 2 < cls)
  · obtain ⟨r, -, -, -, -, -, -, -, -, -, -, -, e⟩ := s.record_room code cls pl detail h
    exact ⟨_, _, e⟩
  · rw [s.record_full code cls pl detail (by omega)]
    obtain ⟨v, e⟩ := s.fbump_set R.rasLogStatus F.rasLogStatus_DROPPED 1
    rw [e]
    exact ⟨(s.setReg R.rasLogStatus v).regs, _, rfl⟩

/-- A corrected or deferred fault is recorded and contains nothing. -/
theorem State.raise_mild (s : State) (code cls : Nat) (pl : Place) (detail : Nat) (h : cls ≤ 2) :
    s.raise code cls pl detail = s.record code cls pl detail := by
  unfold State.raise State.contain
  rw [if_neg (by omega), if_neg (by omega), if_neg (by omega)]

/-! ## Errors of SRAM words (R51) -/

/-- A read of words no error has struck changes nothing. -/
theorem State.sramRead_clean (s : State) (arr p lo n : Nat) (h : s.ras.latent.filter (sramWithin · arr p lo n) = []) :
    s.sramRead arr p lo n = s := by
  unfold State.sramRead
  rw [h]
  rfl

/-- A write of whole words changes the errors not yet found only, and none comes in by it. -/
theorem State.sramWritten_eq (s : State) (arr p lo n : Nat) :
    s.sramWritten arr p lo n = { s with ras := { s.ras with latent := (s.sramWritten arr p lo n).ras.latent } } ∧
      ∀ e ∈ (s.sramWritten arr p lo n).ras.latent, e ∈ s.ras.latent :=
  ⟨rfl, fun _ h => (List.mem_filter.mp h).1⟩

/-! ## District clocks (R246 to R248) -/

/-- A clock looked at again from a later instant changes nothing else, and stands at its first cycle from there. -/
theorem State.anchorClk_eq (s : State) (d x : Nat) :
    ∃ c, s.anchorClk d x = s.setClk d c ∧ (c.cyc, c.at_) = s.clkEdge d x := ⟨_, rfl, rfl⟩

/-- The cycle found at or after an instant follows the one it is counted from. -/
theorem edgeFrom_le (len : Nat → Nat → Nat) (x n k t : Nat) : k ≤ (edgeFrom len x n k t).1 ∧ t ≤ (edgeFrom len x n k t).2 := by
  induction n generalizing k t with
  | zero => exact ⟨Nat.le_refl _, Nat.le_refl _⟩
  | succ n ih =>
    unfold edgeFrom
    split
    · exact ⟨Nat.le_refl _, Nat.le_refl _⟩
    · obtain ⟨a, b⟩ := ih (k + 1) (t + len k t)
      exact ⟨by omega, by omega⟩

/-! ## Stores to the local HBM (R207) -/

/-- A list folded with steps that each keep a relation to the start. -/
theorem foldl_keeps {α β : Type} (P : α → Prop) (f : α → β → α) (l : List β) {a : α} (h0 : P a)
    (h : ∀ b x, x ∈ l → P b → P (f b x)) : P (l.foldl f a) := by
  induction l generalizing a with
  | nil => exact h0
  | cons x xs ih =>
    exact ih (h a x (by simp) h0) fun b y hy hb => h b y (by simp [hy]) hb

/-- A store changes HBM, its poison and the draw counter only. -/
theorem State.hbmWrite_eq (s : State) (off : Nat) (bs : List Byte) (bad : Nat → Bool) :
    s.hbmWrite off bs bad = { s with hbm := (s.hbmWrite off bs bad).hbm, hbmPoison := (s.hbmWrite off bs bad).hbmPoison,
                                     draws := (s.hbmWrite off bs bad).draws } := by
  unfold State.hbmWrite
  dsimp only
  refine foldl_keeps (fun z : State => z = { s with hbm := z.hbm, hbmPoison := z.hbmPoison, draws := z.draws }) _ _ rfl ?_
  intro b u _ hb
  split
  · rw [hb]
  · split
    · rw [hb]
    · split
      · unfold State.freeUnit; rw [hb]
      · exact hb

/-- The units of a range hold each of its bytes. -/
theorem unit_of_byte {off len a : Nat} (h : off ≤ a ∧ a < off + len) : a / 64 ∈ unitsOf off len := by
  have hl : len ≠ 0 := by omega
  unfold unitsOf cdiv
  rw [if_neg hl]
  simp only [List.mem_map, List.mem_range]
  exact ⟨a / 64 - off / 64, by omega, by omega⟩

/-- A store leaves every byte outside the units of its range. -/
theorem State.hbmWrite_out (s : State) (off : Nat) (bs : List Byte) (bad : Nat → Bool) {a : Nat}
    (h : a / 64 ∉ unitsOf off bs.length) : Mem.rd (s.hbmWrite off bs bad).hbm a = Mem.rd s.hbm a := by
  unfold State.hbmWrite
  dsimp only
  refine foldl_keeps (fun z : State => Mem.rd z.hbm a = Mem.rd s.hbm a) _ _ ?_ ?_
  · refine Mem.rd_wrBytes_out _ _ _ ?_
    by_cases hc : off ≤ a ∧ a < off + bs.length
    · exact absurd (unit_of_byte hc) h
    · omega
  · intro b u hu hb
    split
    · exact hb
    · split
      · exact hb
      · split
        · unfold State.freeUnit
          dsimp only
          rw [Mem.rd_wrBytes_out, hb]
          have : u ≠ a / 64 := fun hc => h (hc ▸ hu)
          simp only [List.length_map, List.length_range]
          omega
        · exact hb

/-- A store keeps the canonical form of HBM. -/
theorem State.hbmWrite_wf (s : State) (off : Nat) (bs : List Byte) (bad : Nat → Bool) (h : Mem.wf s.hbm = true) :
    Mem.wf (s.hbmWrite off bs bad).hbm = true := by
  unfold State.hbmWrite
  dsimp only
  refine foldl_keeps (fun z : State => Mem.wf z.hbm = true) _ _ (Mem.wf_wrBytes _ _ h) ?_
  intro b u _ hb
  split
  · exact hb
  · split
    · exact hb
    · split
      · exact Mem.wf_wrBytes _ _ hb
      · exact hb

/-- A clean store to units without poison writes its bytes and nothing else. -/
theorem State.hbmWrite_clean (s : State) (off : Nat) (bs : List Byte) (h : s.hbmBad off bs.length = false) :
    s.hbmWrite off bs (fun _ => false) = { s with hbm := Mem.wrBytes s.hbm off bs } := by
  unfold State.hbmWrite
  dsimp only
  refine foldl_keeps (fun z : State => z = { s with hbm := Mem.wrBytes s.hbm off bs }) _ _ rfl ?_
  intro b u hu hb
  have hc : u ∉ s.hbmPoison := by
    unfold State.hbmBad at h
    rw [List.any_eq_false] at h
    simpa using h u hu
  have hd : sdel s.hbmPoison u = s.hbmPoison :=
    List.filter_eq_self.mpr fun x hx => by
      have : x ≠ u := fun e => hc (e ▸ hx)
      simpa using this
  subst hb
  rw [if_neg (by simp)]
  split
  · rw [show ({ s with hbm := Mem.wrBytes s.hbm off bs } : State).hbmPoison = s.hbmPoison from rfl, hd]
  · rw [if_neg (by simpa using hc)]

/-! ## Queue operations cancelled (R204) -/

/-- Cancelling leaves exactly the operations that are not cancelled. -/
theorem State.cancelOps_ops (s : State) (d : Nat) (q : MqeOp → Bool) :
    ((s.cancelOps d q).mqe d).ops = (s.mqe d).ops.filter fun o => !q o := by
  unfold State.cancelOps
  dsimp only
  rw [State.mqe_setMqe_same]

end Sys2Proof.Machine
end

