-- ==== Sys2Proof/Laws/Cmd.lean ====
section
/-!
SUPPORT. What posting a message and answering a command do: the fields of a message read back, and an answer leaves the
channel TO_INIT with them and nothing else changed but its doorbell, the vectors and the journal.
-/
namespace Sys2Proof.Machine

/-! ## Bytes and numbers (R5) -/

@[simp] theorem leBytes_length (n v : Nat) : (leBytes n v).length = n := by
  induction n generalizing v with
  | zero => rfl
  | succ n ih => simp [leBytes, ih]

/-- The bytes of a number spell it, cut to their width. -/
theorem leNat_leBytes (n v : Nat) : leNat (leBytes n v) = v % 2 ^ (8 * n) := by
  induction n generalizing v with
  | zero => simp [leBytes, leNat, Nat.mod_one]
  | succ n ih =>
    have e : 2 ^ (8 * (n + 1)) = 256 * 2 ^ (8 * n) := by
      rw [show 8 * (n + 1) = 8 + 8 * n by omega, Nat.pow_add]
    rw [leBytes, leNat, ih, e, Nat.mod_mul, BitVec.toNat_ofNat]

/-- Part of the bytes written reads back. -/
theorem Mem.rdBytes_part (m : List Host.Cell) (a : Nat) (bs : List Byte) {off n : Nat} (h : off + n ≤ bs.length) :
    Mem.rdBytes (Mem.wrBytes m a bs) (a + off) n = (bs.drop off).take n := by
  induction n generalizing off with
  | zero => simp [Mem.rdBytes]
  | succ n ih =>
    have h1 : off < bs.length := by omega
    rw [Mem.rdBytes, Mem.rd_wrBytes_in m a bs h1, List.drop_eq_getElem_cons h1, List.take_succ_cons,
      show a + off + 1 = a + (off + 1) by omega, ih (by omega)]

/-- A middle part of a list. -/
theorem take_drop_mid {α : Type} (x y z : List α) {o n : Nat} (ho : x.length = o) (hn : y.length = n) :
    (((x ++ y) ++ z).drop o).take n = y := by
  subst ho hn
  rw [List.append_assoc, List.drop_left, List.take_left]

/-- Where a message holds a part of `y`'s length at offset `o`, reading it gives the part. -/
theorem read_part (x y z bs : List Byte) {o n : Nat} (hb : bs = (x ++ y) ++ z) (ho : x.length = o) (hn : y.length = n) :
    Mem.rdBytes (Mem.wrBytes [] 0 bs) o n = y := by
  have h := Mem.rdBytes_part [] 0 bs (off := o) (n := n) (by simp [hb, ho, hn])
  rw [Nat.zero_add] at h
  rw [h, hb, take_drop_mid x y z ho hn]

/-- The fields of a message posted (R455). -/
theorem message_fields (opcode tag flags stamp : Nat) (r : Rep) :
    let a := Mem.wrBytes [] 0 (messageBytes opcode tag flags stamp r)
    Mem.rdNat a 0 2 = r.body.length % 2 ^ 16 ∧ Mem.rdNat a 2 2 = opcode % 2 ^ 16 ∧ Mem.rdNat a 4 2 = r.status % 2 ^ 16 ∧
      Mem.rdNat a 6 1 = (flags + (if r.hw then 4 else 0)) % 2 ^ 8 ∧ Mem.rdNat a 8 8 = tag % 2 ^ 64 ∧
      Mem.rdNat a 16 8 = stamp % 2 ^ 64 ∧ Mem.rdNat a 32 32 = r.args % 2 ^ 256 ∧
      Mem.rdBytes a 64 r.body.length = r.body := by
  intro a
  have part (x y z : List Byte) (o n : Nat) (hb : messageBytes opcode tag flags stamp r = (x ++ y) ++ z) (ho : x.length = o)
      (hn : y.length = n) : Mem.rdBytes a o n = y := read_part x y z _ hb ho hn
  have num (x : List Byte) (z : List Byte) (o n v : Nat) (hb : messageBytes opcode tag flags stamp r = (x ++ leBytes n v) ++ z)
      (ho : x.length = o) : Mem.rdNat a o n = v % 2 ^ (8 * n) := by
    rw [Mem.rdNat, part x (leBytes n v) z o n hb ho (leBytes_length n v), leNat_leBytes]
  refine ⟨num [] _ 0 2 _ (by simp only [messageBytes, List.append_assoc, List.nil_append]; rfl) rfl,
    num (leBytes 2 r.body.length) _ 2 2 _ (by simp only [messageBytes, List.append_assoc]; rfl) (by simp),
    num (leBytes 2 r.body.length ++ leBytes 2 opcode) _ 4 2 _ (by simp only [messageBytes, List.append_assoc]; rfl) (by simp),
    num (leBytes 2 r.body.length ++ leBytes 2 opcode ++ leBytes 2 r.status) _ 6 1 _
      (by simp only [messageBytes, List.append_assoc]; rfl) (by simp),
    num (leBytes 2 r.body.length ++ leBytes 2 opcode ++ leBytes 2 r.status ++ leBytes 1 (flags + (if r.hw then 4 else 0)) ++
      leBytes 1 0) _ 8 8 _ (by simp only [messageBytes, List.append_assoc]; rfl) (by simp),
    num (leBytes 2 r.body.length ++ leBytes 2 opcode ++ leBytes 2 r.status ++ leBytes 1 (flags + (if r.hw then 4 else 0)) ++
      leBytes 1 0 ++ leBytes 8 tag) _ 16 8 _ (by simp only [messageBytes, List.append_assoc]; rfl) (by simp),
    num (leBytes 2 r.body.length ++ leBytes 2 opcode ++ leBytes 2 r.status ++ leBytes 1 (flags + (if r.hw then 4 else 0)) ++
      leBytes 1 0 ++ leBytes 8 tag ++ leBytes 8 stamp ++ leBytes 8 0) _ 32 32 _
      (by simp only [messageBytes, List.append_assoc]; rfl) (by simp),
    part (leBytes 2 r.body.length ++ leBytes 2 opcode ++ leBytes 2 r.status ++ leBytes 1 (flags + (if r.hw then 4 else 0)) ++
      leBytes 1 0 ++ leBytes 8 tag ++ leBytes 8 stamp ++ leBytes 8 0 ++ leBytes 32 r.args) _ [] 64 _
      (by simp only [messageBytes, List.append_nil]) (by simp) rfl⟩

/-! ## Doorbells and answers (R456, R457, R466) -/

/-- Ringing a bit sets it in the channel's doorbell register and may signal a vector; nothing else changes. -/
theorem State.ringBit_eq (s : State) (n b : Nat) :
    ∃ m, s.ringBit n b = { s.setReg (R.dblStatusN n) (s.reg (R.dblStatusN n) ||| BitVec.ofNat 64 (2 ^ b)) with
      stw := { s.stw with msix := m } } := by
  unfold State.ringBit State.signal
  dsimp only
  split
  · exact ⟨_, rfl⟩
  · exact ⟨s.stw.msix, rfl⟩

/-- The ledger finds nothing on a channel whose counts agree (R514, R515). -/
theorem State.chanCheck_sound {s : State} {n : Nat} (h : (s.chan n).broken = none) : s.chanCheck n = s := by
  unfold State.chanCheck
  rw [h, ite_self]

/-- A reply posted on a channel whose request is taken (R456): the message area, TO_INIT, POSTED and the doorbell. -/
theorem State.postReply_eq (s : State) (n opcode tag flags : Nat) (r : Rep) (hs : (s.chan n).st = 1) (hk : (s.chan n).broken = none)
    (hb : r.body.length ≤ 4032) :
    ∃ cs m, tget {} cs n = { s.chan n with area := Mem.wrBytes [] 0 (messageBytes opcode tag flags s.ns r), st := 2, taken := false,
                                           posted := (s.chan n).posted + 1 } ∧
      (∀ k, k ≠ n → tget {} cs k = s.chan k) ∧
      s.postMessage n opcode tag flags r true =
        { s.setReg (R.dblStatusN n) (s.reg (R.dblStatusN n) ||| BitVec.ofNat 64 (2 ^ 0)) with
          stw := { s.stw with chans := cs, msix := m } } := by
  have f0 := (message_fields opcode tag flags s.ns r).1
  unfold State.postMessage
  generalize Mem.wrBytes [] 0 (messageBytes opcode tag flags s.ns r) = a at f0 ⊢
  have hl : ¬({ s.chan n with area := a } : Chan).length > 4032 := by
    unfold Chan.length
    rw [f0]
    have := Nat.mod_le r.body.length (2 ^ 16)
    exact Nat.not_lt.mpr (Nat.le_trans this hb)
  have e : (s.setChan n { s.chan n with area := a }).sideAction n true (if true = true then 4 else 1) =
      ((s.setChan n { s.chan n with area := a }).setChan n
        { s.chan n with area := a, st := 2, taken := false, posted := (s.chan n).posted + 1 }).ringBit n 0 := by
    have em : (s.setChan n { s.chan n with area := a }).sideMove n true (if true = true then 4 else 1) =
        ((s.setChan n { s.chan n with area := a }).setChan n
          { s.chan n with area := a, st := 2, taken := false, posted := (s.chan n).posted + 1 }).ringBit n 0 := by
      unfold State.sideMove
      rw [State.chan_setChan_same]
      rw [if_pos rfl, if_neg (by decide), if_neg (by decide), if_neg (by rintro ⟨-, h, -⟩; cases h),
        if_neg (by rintro ⟨h, -⟩; revert h; decide), if_pos ⟨by decide, rfl, hs⟩, if_neg hl]
    unfold State.sideAction
    rw [em]
    apply State.chanCheck_sound
    obtain ⟨m, er⟩ := ((s.setChan n { s.chan n with area := a }).setChan n
      { s.chan n with area := a, st := 2, taken := false, posted := (s.chan n).posted + 1 }).ringBit_eq n 0
    rw [er]
    have ec : ∀ (z : State) (x : BitVec 64) (v : List (Nat × Machine.Vector)),
        State.chan { z.setReg (R.dblStatusN n) x with stw := { z.stw with msix := v } } n = z.chan n := fun _ _ _ => rfl
    rw [ec, State.chan_setChan_same]
    unfold Chan.broken at hk ⊢
    rw [hs] at hk
    exact hk
  rw [e]
  obtain ⟨m, em⟩ := ((s.setChan n { s.chan n with area := a }).setChan n
    { s.chan n with area := a, st := 2, taken := false, posted := (s.chan n).posted + 1 }).ringBit_eq n 0
  rw [em]
  refine ⟨_, m, ?_, ?_, rfl⟩
  · exact State.chan_setChan_same _ n _
  · intro k hk
    exact (State.chan_setChan_ne _ _ hk).trans (State.chan_setChan_ne s _ hk)

/-- What an answer does: the channel is TO_INIT and carries the message; besides it only its doorbell register, the vectors
and the journal differ. -/
theorem State.answer_replied (s : State) (c : Cmd) (r : Rep) (hs : (s.chan c.ch).st = 1)
    (hk : (s.chan c.ch).broken = none) (hb : r.body.length ≤ 4032) (ho : c.opcode < 2 ^ 16) (ht : c.tag < 2 ^ 64) (hr : r.status < 2 ^ 16) :
    s.replied (s.answer c.ch c.opcode c.tag r) c r.status r.args r.body := by
  obtain ⟨f0, f1, f2, f3, f4, -, f5, f6⟩ := message_fields c.opcode c.tag 1 s.ns r
  obtain ⟨cs, m, h1, h2, e⟩ := s.postReply_eq c.ch c.opcode c.tag 1 r hs hk hb
  rw [Nat.mod_eq_of_lt (Nat.lt_of_le_of_lt hb (by decide))] at f0
  rw [Nat.mod_eq_of_lt ho] at f1
  rw [Nat.mod_eq_of_lt hr] at f2
  rw [Nat.mod_eq_of_lt ht] at f4
  generalize Mem.wrBytes [] 0 (messageBytes c.opcode c.tag 1 s.ns r) = a at *
  have hc : (s.answer c.ch c.opcode c.tag r).chan c.ch =
      { s.chan c.ch with area := a, st := 2, taken := false, posted := (s.chan c.ch).posted + 1 } := by
    unfold State.answer State.chan
    rw [e]
    exact h1
  have hx : ∀ o, (s.answer c.ch c.opcode c.tag r).reg o =
      (s.setReg (R.dblStatusN c.ch) (s.reg (R.dblStatusN c.ch) ||| BitVec.ofNat 64 (2 ^ 0))).reg o := by
    intro o
    unfold State.answer
    rw [e]
    rfl
  unfold State.replied
  dsimp only
  rw [hc]
  refine ⟨rfl, f0, f1, f2, ?_, f4, f5, f6, ?_, ?_, ?_, ?_⟩
  · rw [f3]
    split <;> rfl
  · rw [hx, State.reg_setReg_same]
    simp
  · intro k hk
    unfold State.answer State.chan
    rw [e]
    exact h2 k hk
  · intro o ho'
    rw [hx]
    exact State.reg_setReg_ne s _ ho'
  · unfold State.answer
    rw [e]
    rfl

end Sys2Proof.Machine
end

