-- ==== Sys2Proof/Laws/Tile.lean ====
section
/-!
SUPPORT. What issuing one operation on a tile does, and how the passing of a cycle meets what is in flight.
-/
namespace Sys2Proof.Machine

/-- Time carried to an instant: only the NGT count differs. -/
theorem reach_eq (s : State) (t : Nat) : s.reach t = { s with ngt := { s.ngt with now := (s.reach t).ngt.now } } := by
  unfold State.reach
  split <;> dsimp only <;> split <;> rfl

theorem reach_tiles (s : State) (t : Nat) : (s.reach t).tiles = s.tiles := by
  rw [reach_eq]

theorem reach_tile (s : State) (t p : Nat) : (s.reach t).tile p = s.tile p := by
  unfold State.tile
  rw [reach_tiles]

/-- Only the tile and the time differ after time is carried and the tile is replaced. -/
theorem onlyTile_set (s : State) (p : PTile) (n : Nat) (x : Tile) : s.onlyTile p ((s.reach n).setTile p.val x) := by
  constructor
  · intro q hq
    rw [State.tile_setTile_ne _ _ hq, reach_tile]
  · unfold State.reach
    split <;> dsimp only <;> split <;> rfl

/-- An error of another array or tile lies in no range of this tile's arrays. -/
theorem sramWithin_sound {s : State} {p : PTile} (h : s.sramSound p) {e : SramErr} (he : e ∈ s.ras.latent) {arr lo n : Nat}
    (ha : arr ≤ 3) : sramWithin e arr p.val lo n = false := by
  unfold sramWithin
  by_cases hu : e.unit = p.val
  · have := h e he hu
    have hn : (e.array == arr) = false := by rw [beq_eq_false_iff_ne]; omega
    rw [hn]; rfl
  · have hn : (e.unit == p.val) = false := by rw [beq_eq_false_iff_ne]; exact hu
    rw [hn, Bool.and_false]; rfl

/-- A read of a sound array finds nothing. -/
theorem sramRead_sound {s : State} {p : PTile} (h : s.sramSound p) {arr lo n : Nat} (ha : arr ≤ 3) :
    s.sramRead arr p.val lo n = s := by
  unfold State.sramRead
  rw [List.filter_eq_nil_iff.2 fun e he => by rw [sramWithin_sound h he ha]; simp]
  rfl

/-- A write of a sound array removes no error. -/
theorem sramWritten_sound {s : State} {p : PTile} (h : s.sramSound p) {arr lo n : Nat} (ha : arr ≤ 3) :
    s.sramWritten arr p.val lo n = s := by
  unfold State.sramWritten
  rw [List.filter_eq_self.2 fun e he => by rw [sramWithin_sound h he ha]; simp]

theorem opReads_array {t : Tile} {op : SlotOp} {a lo n : Nat} (h : opReads t op = some (a, lo, n)) : a ≤ 3 := by
  cases op <;> simp only [opReads] at h <;> first
    | (split at h <;> simp only [Option.some.injEq, Prod.mk.injEq, reduceCtorEq] at h <;> omega)
    | (simp only [Option.some.injEq, Prod.mk.injEq, reduceCtorEq] at h <;> omega)

theorem opWrites_array {t : Tile} {op : SlotOp} {a lo n : Nat} (h : opWrites t op = some (a, lo, n)) : a ≤ 3 := by
  cases op <;> simp only [opWrites] at h <;> first
    | (split at h <;> simp only [Option.some.injEq, Prod.mk.injEq, reduceCtorEq] at h <;> omega)
    | (simp only [Option.some.injEq, Prod.mk.injEq, reduceCtorEq] at h <;> omega)

/-- A bundle of a tile whose arrays are sound finds no error. -/
theorem bundleSram_sound {s : State} {p : PTile} (h : s.sramSound p) (ops : List (Slot × SlotOp)) :
    s.bundleSram p.val ops = s := by
  unfold State.bundleSram
  dsimp only
  split
  · rfl
  · refine foldl_keeps (fun z : State => z = s) _ _ rfl ?_
    intro z o _ hz
    subst hz
    cases hr : opReads (z.tile p.val) o.2 with
    | none =>
      cases hw : opWrites (z.tile p.val) o.2 with
      | none => rfl
      | some w => exact sramWritten_sound h (opWrites_array hw)
    | some r =>
      dsimp only
      rw [sramRead_sound h (opReads_array hr)]
      cases hw : opWrites (z.tile p.val) o.2 with
      | none => rfl
      | some w => exact sramWritten_sound h (opWrites_array hw)

theorem issueAll_one (c : TileCtx) (t : Tile) (sl : Slot) (op : SlotOp) (r : Issued) (h : issueOp c t op = .ok r) :
    issueAll c t [(sl, op)] = { tile := r.tile, ops := r.ops, ctl := r.ctl, wait := r.wait, faults := [] } := by
  simp only [issueAll, List.foldl_cons, List.foldl_nil, h, List.nil_append, Bool.false_or]
  split
  · rename_i e
    rw [e]
  · rfl

theorem issueBundle_ok {s : State} {p : PTile} (hs : s.sramSound p) {ops : List (Slot × SlotOp)} {t : Tile} {qs : List MqeOp}
    {ctl : Ctl} {w : Bool}
    (h : issueAll (s.tileCtx p.val) (s.tile p.val) ops = { tile := t, ops := qs, ctl := ctl, wait := w, faults := [] })
    (ho : qs = []) :
    s.issueBundle p.val ops 0 = (s.reach (s.tile p.val).issue.start).setTile p.val (moveOn (s.beat p.val) t ctl w) := by
  have e : s.issueBundle p.val ops 0 =
      (let out := issueAll ((s.bundleSram p.val ops).tileCtx p.val) ((s.bundleSram p.val ops).tile p.val) ops
       match out.faults with
       | [] => (((s.bundleSram p.val ops).reach ((s.bundleSram p.val ops).tile p.val).issue.start).setTile p.val
          (moveOn ((s.bundleSram p.val ops).beat p.val) out.tile out.ctl out.wait)).queueOps (districtOf p.val) out.ops
       | (sl, f) :: fs => ((((s.bundleSram p.val ops).reach ((s.bundleSram p.val ops).tile p.val).issue.start).setTile p.val
          { out.tile with issue := { out.tile.issue with last := ((s.bundleSram p.val ops).tile p.val).issue.pc } }).queueOps
            (districtOf p.val) out.ops).tileFaults p.val ((s.bundleSram p.val ops).tile p.val).issue.pc (slotNo sl) f
            (fs.map Prod.snd)) := rfl
  rw [e, bundleSram_sound hs, h, ho]
  rfl

/-- An operation that issues and passes nothing to the MQE: the tile goes on as its issue directs, all else stands. -/
theorem issueOne_ok {s : State} {p : PTile} {op : SlotOp} {r : Issued} (hc : s.canIssue p)
    (hf : (isMV op && !(s.tile p.val).issue.tp) = true ∨ opFail op = none)
    (hr : issueOp (s.tileCtx p.val) (s.tile p.val) op = .ok r) (ho : r.ops = []) :
    (s.issueOne p.val op).tile p.val = moveOn (s.beat p.val) r.tile r.ctl r.wait ∧ s.onlyTile p (s.issueOne p.val op) := by
  have hg : (if (isMV op && !(s.tile p.val).issue.tp) = true then none else opFail op) = none := by
    rcases hf with h | h
    · rw [if_pos h]
    · rw [h, ite_self]
  have hm : (!s.mayIssue p.val) = false := by rw [hc.1]; rfl
  have e : s.issueOne p.val op =
      (s.reach (s.tile p.val).issue.start).setTile p.val (moveOn (s.beat p.val) r.tile r.ctl r.wait) := by
    unfold State.issueOne
    rw [hm, hc.2.1]
    simp only [Bool.false_eq_true, if_false]
    rw [hg]
    dsimp only
    exact issueBundle_ok hc.2.2 (issueAll_one _ _ _ _ _ hr) ho
  rw [e]
  exact ⟨State.tile_setTile_same _ _ _, onlyTile_set _ _ _ _⟩

/-- A tile that may issue stands before its meridian. -/
theorem canIssue_before {s : State} {p : PTile} (hc : s.canIssue p) : (s.tile p.val).issue.start < (s.beat p.val).stop := by
  have h := hc.1
  unfold State.mayIssue at h
  simp only [Bool.and_eq_true, decide_eq_true_eq] at h
  exact h.1.2

/-- The landings of a list in order. -/
theorem landDue_eq (t : Tile) :
    landDue t = (t.issue.inflight.filter fun f => f.done ≤ t.issue.cycle).foldl (fun s f => land s f.what)
      { t with issue := { t.issue with inflight := t.issue.inflight.filter fun f => f.done > t.issue.cycle } } := rfl

/-- Landing does not look at what is in flight. -/
theorem land_fly (t : Tile) (w : Landing) (fs : List InFlight) :
    land { t with issue := { t.issue with inflight := t.issue.inflight ++ fs } } w =
      { land t w with issue := { (land t w).issue with inflight := (land t w).issue.inflight ++ fs } } := by
  cases w <;> simp only [land] <;> first | rfl | (split <;> rfl)

theorem foldl_land_fly (l : List InFlight) (t : Tile) (fs : List InFlight) :
    l.foldl (fun s f => land s f.what) { t with issue := { t.issue with inflight := t.issue.inflight ++ fs } } =
      { l.foldl (fun s f => land s f.what) t with issue := { (l.foldl (fun s f => land s f.what) t).issue with
        inflight := (l.foldl (fun s f => land s f.what) t).issue.inflight ++ fs } } := by
  induction l generalizing t with
  | nil => rfl
  | cons f l ih => rw [List.foldl_cons, List.foldl_cons, land_fly, ih]

/-- Landing over writes in flight that complete later. -/
theorem landDue_fly (c lat : Nat) (t : Tile) (ws : List Landing) (h : t.issue.cycle < c + lat) :
    landDue (t.fly c lat ws) = (landDue t).fly c lat ws := by
  have hd : (ws.map fun w => ({ issued := c, done := c + lat, what := w } : InFlight)).filter
      (fun f => decide (f.done ≤ t.issue.cycle)) = [] := by
    rw [List.filter_eq_nil_iff]
    intro f hf
    obtain ⟨w, -, rfl⟩ := List.mem_map.1 hf
    simpa using h
  have hk : (ws.map fun w => ({ issued := c, done := c + lat, what := w } : InFlight)).filter
      (fun f => decide (f.done > t.issue.cycle)) = ws.map fun w => { issued := c, done := c + lat, what := w } := by
    rw [List.filter_eq_self]
    intro f hf
    obtain ⟨w, -, rfl⟩ := List.mem_map.1 hf
    simpa using h
  unfold Tile.fly
  rw [landDue_eq, landDue_eq]
  dsimp only
  rw [List.filter_append, List.filter_append, hd, hk, List.append_nil]
  exact foldl_land_fly (t.issue.inflight.filter fun f => f.done ≤ t.issue.cycle)
    { t with issue := { t.issue with inflight := t.issue.inflight.filter fun f => f.done > t.issue.cycle } }
    (ws.map fun w => { issued := c, done := c + lat, what := w })

/-- A cycle passes over a write that completes later. -/
theorem tick_fly (b : Beat) (c lat : Nat) (t : Tile) (ws : List Landing) (h : t.issue.cycle + 1 < c + lat) :
    tick b (t.fly c lat ws) = (tick b t).fly c lat ws := by
  let t' : Tile := { t with
    issue := { t.issue with cycle := t.issue.cycle + 1, start := b.next t }
    fig := { t.fig with tpOff := t.fig.tpOff + b2n (!t.issue.tp && t.issue.reached.isNone),
                        stall := t.fig.stall + b2n (t.issue.status == .qwaitStall) } }
  have e1 : tick b (t.fly c lat ws) = if b.stop ≤ t.issue.start then t.fly c lat ws else
      if b.next t ≤ b.stop then landDue (t'.fly c lat ws) else t'.fly c lat ws := rfl
  have e2 : tick b t = if b.stop ≤ t.issue.start then t else if b.next t ≤ b.stop then landDue t' else t' := rfl
  rw [e1, e2]
  split
  · rfl
  · split
    · exact landDue_fly c lat t' ws h
    · rfl

/-- A write that completes as the next cycle begins lands last. -/
theorem tick_land (b : Beat) (t : Tile) (w : Landing) (hs : t.issue.start < b.stop) (hn : b.next t ≤ b.stop) :
    tick b (t.fly t.issue.cycle 1 [w]) = land (tick b t) w := by
  have e1 : tick b (t.fly t.issue.cycle 1 [w]) = if b.stop ≤ t.issue.start then t.fly t.issue.cycle 1 [w] else
      if b.next t ≤ b.stop then landDue (Tile.fly { t with
        issue := { t.issue with cycle := t.issue.cycle + 1, start := b.next t }
        fig := { t.fig with tpOff := t.fig.tpOff + b2n (!t.issue.tp && t.issue.reached.isNone),
                            stall := t.fig.stall + b2n (t.issue.status == .qwaitStall) } } t.issue.cycle 1 [w])
      else _ := rfl
  have h1 : [({ issued := t.issue.cycle, done := t.issue.cycle + 1, what := w } : InFlight)].filter
      (fun f => decide (f.done ≤ t.issue.cycle + 1)) = [{ issued := t.issue.cycle, done := t.issue.cycle + 1, what := w }] := by
    simp
  have h2 : [({ issued := t.issue.cycle, done := t.issue.cycle + 1, what := w } : InFlight)].filter
      (fun f => decide (f.done > t.issue.cycle + 1)) = [] := by
    simp
  rw [e1, if_neg (by omega), if_pos hn]
  unfold tick Tile.fly
  rw [if_neg (by omega), landDue_eq]
  dsimp only [List.map]
  rw [if_pos hn, landDue_eq]
  dsimp only
  rw [List.filter_append, List.filter_append, h1, h2, List.append_nil, List.foldl_append]
  rfl

/-- One that would complete past the meridian stays in flight. -/
theorem tick_past (b : Beat) (t : Tile) (w : Landing) (hs : t.issue.start < b.stop) (hn : b.stop < b.next t) :
    tick b (t.fly t.issue.cycle 1 [w]) = (tick b t).fly t.issue.cycle 1 [w] := by
  have hb : b.next (t.fly t.issue.cycle 1 [w]) = b.next t := rfl
  have ht : (t.fly t.issue.cycle 1 [w]).issue.start = t.issue.start := rfl
  unfold tick
  rw [hb, ht, if_neg (by omega), if_neg (by omega)]
  dsimp only
  rw [if_neg (by omega), if_neg (by omega)]
  rfl

/-- The tile as the next bundle finds it. -/
def atNext (t : Tile) : Tile :=
  { t with issue := { t.issue with last := t.issue.pc, pc := (afterBundle t.issue.pc t.issue.loops).1,
                                   loops := (afterBundle t.issue.pc t.issue.loops).2 } }

theorem moveOn_seq (b : Beat) (t : Tile) : moveOn b t .seq false = tick b (atNext t) := rfl

/-- Moving on over writes in flight that complete later than the next cycle. -/
theorem moveOn_fly (b : Beat) (c lat : Nat) (t : Tile) (ws : List Landing) (h : t.issue.cycle + 1 < c + lat) :
    moveOn b (t.fly c lat ws) .seq false = (moveOn b t .seq false).fly c lat ws := by
  rw [moveOn_seq, moveOn_seq]
  exact tick_fly b c lat (atNext t) ws h

theorem moveOn_land (b : Beat) (t : Tile) (w : Landing) (hs : t.issue.start < b.stop) :
    moveOn b (t.fly t.issue.cycle 1 [w]) .seq false =
      if b.next t ≤ b.stop then land (moveOn b t .seq false) w else (moveOn b t .seq false).fly t.issue.cycle 1 [w] := by
  rw [moveOn_seq, moveOn_seq]
  split
  · rename_i hn
    exact tick_land b (atNext t) w hs hn
  · rename_i hn
    exact tick_past b (atNext t) w hs (Nat.lt_of_not_le hn)

/-- A write free of conflict goes in flight (R36, R59). -/
theorem launch_ok {t : Tile} {lat : Nat} {w : Landing} (h : t.freeAt lat w) :
    launch t lat w = .ok (t.fly t.issue.cycle lat [w]) := by
  have hs : ∀ f ∈ t.issue.inflight.filter (fun f => target w != none && target f.what == target w),
      f.done < t.issue.cycle + lat := by
    intro f hf
    rw [List.mem_filter, Bool.and_eq_true, bne_iff_ne, beq_iff_eq] at hf
    obtain ⟨hm, h1, h2⟩ := hf
    obtain ⟨d, hd⟩ := Option.ne_none_iff_exists'.1 h1
    exact h d hd f hm (h2.trans hd)
  have h1 : (t.issue.inflight.filter (fun f => target w != none && target f.what == target w)).any
      (fun f => f.done > t.issue.cycle + lat) = false := by
    rw [List.any_eq_false]
    intro f hf
    have := hs f hf
    simp only [decide_eq_true_eq]
    omega
  have h2 : (t.issue.inflight.filter (fun f => target w != none && target f.what == target w)).any
      (fun f => f.done == t.issue.cycle + lat) = false := by
    rw [List.any_eq_false]
    intro f hf
    have := hs f hf
    simp only [beq_iff_eq]
    omega
  unfold launch
  dsimp only
  rw [h1, h2, Bool.and_false]
  rfl

theorem launch_free {t : Tile} {lat : Nat} {w : Landing} (h : target w = none) :
    launch t lat w = .ok (t.fly t.issue.cycle lat [w]) :=
  launch_ok fun d hd => by rw [h] at hd; cases hd

theorem emit_ok {t : Tile} {lat : Nat} {w : Landing} (h : t.freeAt lat w) :
    emit t lat w = .ok { tile := t.fly t.issue.cycle lat [w] } := by
  unfold emit
  rw [launch_ok h]

theorem ready_ok {t : Tile} {ss : List (BitVec 5)} {vs : List (BitVec 6)} {ps : List (BitVec 4)} {k : IssueR}
    (h : t.readable ss vs ps) : ready t ss vs ps k = k := by
  have h1 : ss.any (fun n => inFlightTo t (0, n.toNat)) = false := by
    rw [List.any_eq_false]; intro n hn; rw [h.1 n hn]; simp
  have h2 : vs.any (fun n => inFlightTo t (1, n.toNat)) = false := by
    rw [List.any_eq_false]; intro n hn; rw [h.2.1 n hn]; simp
  have h3 : ps.any (fun n => inFlightTo t (2, n.toNat)) = false := by
    rw [List.any_eq_false]; intro n hn; rw [h.2.2 n hn]; simp
  unfold ready check
  rw [h1, h2, h3]
  rfl

@[simp] theorem check_false (f : TFault) (k : IssueR) : check false f k = k := rfl

/-- An operation whose result lands after one cycle. -/
theorem issueOne_land {s : State} {p : PTile} {op : SlotOp} {w : Landing} (hc : s.canIssue p) (hf : opFail op = none)
    (hr : issueOp (s.tileCtx p.val) (s.tile p.val) op = emit (s.tile p.val) 1 w) (hw : (s.tile p.val).freeAt 1 w) :
    (s.issueOne p.val op).tile p.val = s.lands p w ∧ s.onlyTile p (s.issueOne p.val op) := by
  rw [emit_ok hw] at hr
  have := issueOne_ok hc (.inr hf) hr rfl
  rw [moveOn_land _ _ _ (canIssue_before hc)] at this
  exact this

/-- An operation whose issue leaves the tile as `t1` and puts writes in flight for two cycles or more. -/
theorem issueOne_fly {s : State} {p : PTile} {op : SlotOp} {t1 : Tile} {lat : Nat} {ws : List Landing} (hc : s.canIssue p)
    (hf : opFail op = none) (hl : 2 ≤ lat) (h1 : t1.issue.cycle = (s.tile p.val).issue.cycle)
    (hr : issueOp (s.tileCtx p.val) (s.tile p.val) op = .ok { tile := t1.fly (s.tile p.val).issue.cycle lat ws }) :
    (s.issueOne p.val op).tile p.val = (s.stepOf p t1).fly (s.tile p.val).issue.cycle lat ws ∧
      s.onlyTile p (s.issueOne p.val op) := by
  have := issueOne_ok hc (.inr hf) hr rfl
  rw [moveOn_fly _ _ _ _ _ (by omega)] at this
  exact this

end Sys2Proof.Machine
end

