-- ==== Sys2Proof/Machine/Frames.lean ====
section
/-!
DEFINITION. The frame a port sends in an absolute fret (14, R366 to R373): what the state gives for its flits, framing header, CRC
slots and parity, and the bytes of its lanes. Nothing else of the machine depends on it: it is what the partner receives.
-/
namespace Sys2Proof.Machine

/-! ## The record of training (R402) -/

/-- The discovery record a port sends in training. -/
def State.ownRecord (s : State) (p : Nat) : List Byte :=
  let plan := s.top.active
  let b := leBytes 4 s.coord ++ leBytes 1 p ++ leBytes 1 0 ++ leBytes 1 (b2n s.placed) ++ leBytes 1 0 ++
    leBytes 8 ((plan.map (·.id)).getD 0) ++ leBytes 4 ((plan.map (·.seq)).getD 0) ++ leBytes 4 0 ++ ownIdentity ++ leBytes 4 0
  b ++ leBytes 4 (crcIeee b)

/-! ## Parity of the codewords (R368) -/

/-- The generator polynomial of RS(224, 216), lowest coefficient first: the product of x − α^j, j from 0 to 7. -/
def rsGen : List Nat := (List.range 8).foldl (fun g j => gfAdd (0 :: g) (g.map (gfMul (alpha j)))) [1]

/-- The eight parity symbols of 216 data symbols: the remainder, highest power first, that makes the codeword a multiple of the
generator. -/
def rsParity (data : List Nat) : List Nat :=
  data.foldl (fun r d =>
    let k := Nat.xor d (r.headD 0)
    List.zipWith Nat.xor (r.drop 1 ++ [0]) ((rsGen.take 8).reverse.map (gfMul k))) (List.replicate 8 0)

/-- The bytes of a frame with its parity: parity byte 1,728 + 8p + c is parity symbol p of codeword c. -/
def withParity (bs : List Nat) : List Nat :=
  let ps := (List.range 8).map fun c => rsParity ((List.range 216).map fun i => bs.getD (8 * i + c) 0)
  bs ++ weave 8 ps

/-! ## Flits -/

/-- The flits of a packet: a header flit and what follows it. -/
def Carried.flits : Carried → List (BitVec 512)
  | .vec v =>
    let f := v.header.toNat
    v.header :: (List.range (if VH.void f then 0 else VH.len f)).map fun i => BitVec.ofNat 512 (v.payload.toNat >>> (512 * i))
  | .svc k => k.flit :: (List.range (SH.flits k.flit.toNat - 1)).map fun i => BitVec.ofNat 512 (leAt k.body (64 * i) 64)

/-- Whether a packet's copy on the link is stomped (R318). -/
def Carried.stomped : Carried → Bool
  | .vec v => v.stomped
  | .svc k => k.stomped

/-- The packet a port sent under a sequence number. -/
def Link.sentOf (l : Link) (seq : Nat) : Option Sent := l.sent.find? (·.seq == seq)

/-- The flit a packet puts in position `i` of fret `f`. -/
def Link.wireFlit (l : Link) (f i : Nat) : Option (BitVec 512) :=
  (l.wire.find? fun w => w.fret == f && w.first ≤ i && i < w.first + w.n).bind fun w =>
    (l.sentOf w.seq).bind fun e => e.what.flits[w.skip + (i - w.first)]?

/-- The NAK the frames of fret `f` carry (R376): the port names a frame in the two frets up to that by which the NAK has gone. -/
def Link.nakIn (l : Link) (f : Nat) : Option (Nat × Nat) :=
  (l.naks.find? fun n => f ≤ n.1 && n.1 < f + 2).map fun n => (n.2.1, n.2.2)

/-- The LANE words the drones of fret `f` carry in turn (R385): SUB_REQ until its SUB_ACK arrives, SUB_ACK until the switch fret. -/
def Link.laneWords (l : Link) (f : Nat) : List Nat :=
  l.subs.filterMap fun y => match y.rx, y.switchFret with
    | true, none => some (y.lane + 1 * 2 ^ 5)
    | false, some g => if f < g then some (y.lane + 2 * 2 ^ 5 + g / 256 % 256 * 2 ^ 8) else none
    | _, _ => none

/-- The time-exchange record whose departure stamp falls in fret `f`: t1 of a request, t3 of a response (R226). -/
def State.timeIn (s : State) (p f : Nat) : Option (List Byte) :=
  ((s.ngt.sentRec.find? (·.1 == p)).map (·.2)).bind fun r =>
    if leAt r (if leAt r 0 1 = 2 then 16 else 6) 10 / 2 ^ 18 = f then some r else none

/-- Drone `k` of fret `f` of a port (R373); its time-exchange record rides in the first. -/
def State.droneFlit (s : State) (p f k : Nat) : Nat :=
  let l := s.link p
  let time := if k = 0 then s.timeIn p f else none
  let words := l.laneWords f
  let nak := l.nakIn f
  let flags := 3 + l.gate.code * 2 ^ 2 + b2n time.isSome * 2 ^ 4 + b2n nak.isSome * 2 ^ 5 + b2n l.fresh * 2 ^ 6
  let n := nak.getD (0, 0)
  let low := flags + l.rxNext * 2 ^ 8 + s.ownFloor p * 2 ^ 32 + (n.1 + n.2 * 2 ^ 16) * 2 ^ 56 +
    words.getD (k % words.length) 0 * 2 ^ 80 + leAt (time.getD []) 0 48 * 2 ^ 96
  putField low 480 32 (crcIeee (leBytes 60 low))

/-- Flit `i` of fret `f` of a port: that of a packet, the filler that a scheduled or replay fret without a vector begins with, or a
drone (R303, R369, R372, R380). -/
def State.flitOut (s : State) (p f i : Nat) : Nat :=
  match (s.link p).wireFlit f i with
  | some x => x.toNat
  | none => if i = 0 ∧ !s.isOpen p f then fillerFlit else s.droneFlit p f (i - s.wireUsed p f)

/-! ## Header, CRC slots and lanes -/

/-- The packets that end in fret `f`: slot and packet. -/
def Link.endsIn (l : Link) (f : Nat) : List (Nat × Sent) :=
  l.ended.filterMap fun e => if e.1 = f then (l.sentOf e.2.2).map fun x => (e.2.1, x) else none

/-- END_MAP of fret `f`: the last flit of each packet that ends there. -/
def Link.endMap (l : Link) (f : Nat) : Nat :=
  let last (w : WirePart) : Bool := match l.sentOf w.seq with
    | some x => x.flits == w.skip + w.n
    | none => false
  l.wire.foldl (fun m w => if w.fret == f && last w then m + 2 ^ (w.first + w.n - 1) else m) 0

/-- The framing header of fret `f` (R370). CONT: flit 0 continues a packet. -/
def State.headerOut (s : State) (p f : Nat) : Nat :=
  let l := s.link p
  let cont := l.wire.any fun w => w.fret == f && w.first == 0 && 0 < w.skip
  let n := (l.nakIn f).getD (0, 0)
  let low := l.endMap f + b2n cont * 2 ^ 26 + l.gate.code * 2 ^ 28 + b2n (l.nakIn f).isSome * 2 ^ 30 + l.rxNext * 2 ^ 32 +
    s.ownFloor p * 2 ^ 52 + n.1 * 2 ^ 72 + n.2 * 2 ^ 88
  putField low 112 16 (fcrcOf low)

/-- The CRC slot of a packet: its sequence number, and its LCRC, complemented if the copy is stomped (R371). -/
def crcSlot (x : Sent) : Nat :=
  let c := crcIeee (x.what.flits.flatMap (fun f => leBytes 64 f.toNat) ++ leBytes 4 x.seq)
  x.seq + (if x.what.stomped then 0xFFFFFFFF - c else c) * 2 ^ 32

/-- The 1,792 bytes a port sends in fret `f` while UP (R367). -/
def State.frameOut (s : State) (p f : Nat) : List Nat :=
  let l := s.link p
  let slots := (List.range 6).flatMap fun i => match (l.endsIn f).find? (·.1 == i) with
    | some x => leBytes 8 (crcSlot x.2)
    | none => leBytes 8 0
  withParity ((((List.range 26).flatMap fun i => leBytes 64 (s.flitOut p f i)) ++ leBytes 16 (s.headerOut p f) ++ slots).map (·.toNat))

/-- The bytes the 30 physical lanes of a port bring in fret `f`: the logical lanes of the scrambled frame, and on a parity lane the
exclusive-OR of those it covers, as they stand on their lanes (R366, R368, R383; log 101). -/
def State.lanesOut (s : State) (p f : Nat) : List (List Nat) :=
  let l := s.link p
  let bs := scrambled l.txScr f (s.frameOut p f)
  let lane (i : Nat) : List Nat := (List.range 64).map fun k => bs.getD (28 * k + i) 0
  (List.range 30).map fun n =>
    let x := l.lane false n
    match x.role with
    | .parity => (below 28 fun j => x.logical == 30 || x.logical == 28 + j / 14).foldl (fun a j => List.zipWith Nat.xor a (lane j))
        (List.replicate 64 0)
    | .retired => []
    | _ => lane x.logical

end Sys2Proof.Machine
end

