-- ==== Sys2Proof/Tests/Slice0.lean ====
section
/-!
SUPPORT. Tests: one ill-formed term for each check of well-formedness, slot words of the encoding tables, and for every
statement with hypotheses a concrete state and operands that meet them. Expected words come from 05.
-/
namespace Sys2Proof.Tests

-- One theorem at a time: many kernel evaluations at once take more threads than the memory limit of a compile holds.
set_option Elab.async false
open Sys2Proof Sys2Proof.Machine

/-! ## Well-formedness -/

/-- Each shape check refuses a term without the shape. -/
theorem test_shapes_refused :
    (Instr.frameReceive 0 { lanes := [], at_ := 0 }).wellFormed = false ∧
    (Instr.linkPacketReceive 0 { flits := [], seq := 0, crc := .good, readable := true, slot := 0, at_ := 0 }).wellFormed = false ∧
    (Instr.thermalSample { districts := [], ports := [], steward := 0, hbmStacks := [] }).wellFormed = false ∧
    (Instr.streamSend 0 { op := 4, body := List.replicate 4033 0 }).wellFormed = false ∧
    (Instr.timeExchangeReqReceived 0 [] 0 0).wellFormed = false ∧ (Instr.timeExchangeRspReceived 0 [] 0).wellFormed = false ∧
    (Instr.mbxWinAccess .host 4095 (.rd 2)).wellFormed = false ∧ (Instr.i2cMbxData (.rd 0) true).wellFormed = false ∧
    (Instr.i2cMbxData (.rd 241) true).wellFormed = false ∧ (Instr.coldReset {}).wellFormed = false ∧
    (Instr.warmReset {}).wellFormed = false ∧ (Instr.devResetWarm .host 0 {}).wellFormed = false ∧
    (∀ e ∈ [SramErr.mk 7 0 0 0 0 true, .mk 3 544 0 0 0 true, .mk 4 8 0 0 0 true, .mk 5 32 0 0 0 true, .mk 6 1 0 0 0 true],
      (Instr.sramRowSubstitute e).wellFormed = false ∧ (Instr.sramScrubStep (some e) {}).wellFormed = false ∧
        (Instr.sramScrubStep none { struck := [e] }).wellFormed = false) ∧
    (Instr.rcRegisterRead .host 4 .full).wellFormed = false ∧ (Instr.registerWrite .host 4 .full 0).wellFormed = false := by
  decide +kernel

/-- Shapes at their limits pass. -/
theorem test_shapes_pass :
    (Instr.mbxWinAccess .host 4095 (.rd 1)).wellFormed = true ∧ (Instr.i2cMbxData (.rd 240) true).wellFormed = true ∧
    (Instr.sramRowSubstitute (.mk 0 543 0 0 0 true)).wellFormed = true ∧ (Instr.sramScrubStep none {}).wellFormed = true ∧
    (Instr.rcRegisterRead .host 8 .full).wellFormed = true ∧ (Instr.pcieLinkUp 1 1).wellFormed = true := by decide +kernel

/-- A tile operation no encoding admits is ill formed: an integer VFMA, GATE's predicate bits aside, a VCVT from i8 to i4. -/
theorem test_operands_refused :
    (Instr.vfma 0 { slot := .v0, ty := .i32, z := false, pm := 0, vd := 1, va := 2, vb := 3, vc := 4, u := false }).wellFormed = false ∧
    (Instr.vcvt 0 { slot := .v0, sty := .i8, dty := .i4, pm := 0, vd := 1, va := 2, h := 0, stochastic := false, satf := false,
                    ss := 0 }).wellFormed = false ∧
    (Instr.ldw 0 0 .s48 .bf16 0 0).wellFormed = false ∧ (Instr.add_ 0 1 2 (.imm 3)).wellFormed = true := by decide +kernel

/-! ## Encodings (05) -/

/-- Words written out from R128, R131 to R133 and R136 to R138. -/
theorem test_slot_words :
    decodeSlot .c 0x04221800 = .ok (.alu .add 1 2 (.reg 3)) ∧ decodeSlot .c 0x7C000000 = .ok .tend ∧
    decodeSlot .l 0x8A6000080 = .ok (.ldv 5 6 0x80) ∧ decodeSlot .x 0x8221A0000 = .ok (.send 1 2 3 4) ∧
    decodeSlot .m 0x420280000000 = .ok (.acset 1 (.imm 5)) ∧
    opBits (.alu .add 1 2 (.reg 3)) = 0x04221800 ∧ opBits (.ldv 5 6 0x80) = 0x8A6000080 := by decide +kernel

/-! ## Tiles -/

/-- A tile that runs, at cycle 0 of its block. -/
def running : Tile := { issue := { status := .running } }
/-- The device with one tile and a period. -/
def withTile (t : Tile) : State :=
  ((State.reset.fset R.ngtPeriod F.ngtPeriod_N 16).fset (R.clkStatus 0) F.clkStatus_STATE 0).setTile 0 t

/-- Nothing in flight: every register is readable. -/
theorem idle_readable {t : Tile} (h : t.issue.inflight = []) (ss vs ps) : t.readable ss vs ps := by
  simp [Tile.readable, inFlightTo, h]
/-- Nothing in flight: every write may issue. -/
theorem idle_free {t : Tile} (h : t.issue.inflight = []) (lat w) : t.freeAt lat w := by simp [Tile.freeAt, h]

/-- The device with one running tile may issue on it, and nothing is in flight. -/
theorem running_issues : (withTile running).canIssue 0 ∧ ((withTile running).tile 0).issue.inflight = [] := by
  unfold State.canIssue State.sramSound; decide +kernel

/-- Tile 0 may issue, and no error in an array is still to be found. -/
def starts (s : State) : Bool := s.mayIssue 0 && (s.addressFault 0).isNone && s.ras.latent.isEmpty
/-- Such a device meets canIssue. -/
theorem canIssue_of_starts {s : State} (h : starts s = true) : s.canIssue 0 := by
  simp only [starts, Bool.and_eq_true, Option.isNone_iff_eq_none, List.isEmpty_iff] at h
  exact ⟨h.1.1, h.1.2, fun x hx => by rw [h.2] at hx; cases hx⟩

theorem witness_ScalarResult :
    (withTile running).canIssue 0 ∧ ((withTile running).tile 0).readable [1, 2, 3] [] [] ∧
    ((withTile running).tile 0).freeAt 1 (.sreg 1 {}) :=
  ⟨running_issues.1, idle_readable running_issues.2 _ _ _, idle_free running_issues.2 _ _⟩

/-- A tile inside a loop, with s1 = 0, s2 = 0x1FFF and three more loops open where `n` asks it. -/
def looping (n : Nat) : Tile :=
  { sregs := [(2, { val := 0x1FFF })]
    issue := { status := .running, pc := 5, loops := List.replicate n { start := 0, last := 20, left := 1 } } }

theorem witness_ControlFlow :
    let s := withTile (looping 1)
    let t := s.tile 0
    (starts s = true ∧ t.issue.inflight = []) ∧
    (∀ tgt ∈ [0, 20], ∀ l ∈ t.issue.loops, l.last ≠ t.issue.pc ∧ l.start ≤ tgt ∧ tgt ≤ l.last) ∧
    (rdS t 1).poison = false ∧ (rdS t 1).val = 0 ∧ (rdS t 2).val ≠ 0 ∧
    (∀ r : BitVec 5, (rdS t r).val.toNat ≤ 0x1FFF ∧ (r = 0 → ∀ l ∈ t.issue.loops, l.start ≤ (rdS t r).val.toNat)) ∧
    t.issue.loops.length < 4 ∧ t.issue.pc < (20 : BitVec 13).toNat ∧ (∀ l ∈ t.issue.loops.head?, 20 ≤ l.last) ∧
    ((withTile (looping 3)).tile 0).issue.loops.length = 3 ∧ (rdS t 2).val.toNat % 2 ^ 32 ≠ 0 := by decide +kernel

/-- A tile with s1 at the last KiB of the store. -/
def storing : Tile := { sregs := [(1, { val := 0x1FFC00 })], issue := { status := .running } }

theorem witness_StoreAccess :
    let s := withTile storing
    let t := s.tile 0
    (starts s = true ∧ t.issue.inflight = []) ∧ (rdS t 1).poison = false ∧
    t.issue.ldwUntil ≤ t.issue.cycle ∧
    ((rdS t 1).val + (0 : BitVec 24).signExtend 64).toNat + 1024 = 2 ^ 21 ∧
    ((rdS t 1).val + (0 : BitVec 24).signExtend 64).toNat % 128 = 0 ∧
    (∀ z ∈ [MemSize.b1, .b2, .b4, .b8], ((rdS t 1).val + (0x3F8 : BitVec 22).signExtend 64).toNat + sizeBytes z ≤ 2 ^ 21 ∧
      ((rdS t 1).val + (0x3F8 : BitVec 22).signExtend 64).toNat % sizeBytes z = 0) := by decide +kernel

/-- A tile whose latch 0 holds a dense E4M3 image and latch 1 a 2:4 one. -/
def loaded : Tile :=
  { latches := [(0, { tag := some (.e4m3, .dense) }), (1, { tag := some (.e4m3, .s24) })]
    sregs := [(1, { val := 511 }), (2, { val := BitVec.ofInt 64 (-512) })], issue := { status := .running } }
/-- A dense and a sparse pass on it. -/
def pass (sparse : Bool) : MmaArgs :=
  { set := 0, va := 0, row := 0, sx := 0, w := if sparse then 1 else 0, af := .e4m3, wf := .e4m3,
    sp := if sparse then .s24 else .dense, kq := 0, pm := 0 }
/-- A readout with flags. -/
def readout : AcrdArgs :=
  { set := 0, vd := 1, rf := .fp32, h := 1, stochastic := false, ss := 0, satf := false, clr := true, pf := 1 }

theorem witness_MatrixOperations :
    let s := withTile loaded
    let t := s.tile 0
    (starts s = true ∧ t.issue.inflight = []) ∧
    opFail (.ldw 1 .s24 .e4m3 0 0) = none ∧ (rdS t 0).poison = false ∧ imageBytes .e4m3 .s24 ≤ 2 ^ 21 ∧
    t.issue.ldwUntil ≤ t.issue.cycle ∧ t.issue.tp = true ∧
    opFail (.mma (pass false)) = none ∧ opFail (.mmas (pass true)) = none ∧
    (∀ b : Bool, inFlightTo t (3, (pass b).w.toNat) = false ∧ (rdP t (pass b).pm).poison = false ∧
      (rdW t (pass b).w).tag = some ((pass b).wf, (pass b).sp) ∧ (rdW t (pass b).w).metaLegal = true ∧
      (pass b).row.toNat < rowsPerReg (pass b).af (pass b).sp) ∧
    opFail (.acrd readout) = none ∧ inFlightTo t (4, 0) = false ∧ readout.h.toNat < readParts readout.rf ∧
    opFail (.acset 1 (.reg 1)) = none ∧ opFail (.acset 1 (.imm 511)) = none ∧ (rdS t 1).val.toInt = 511 ∧
    (rdS t 2).val.toInt = -512 := by decide +kernel

/-- Fields of a vector operation on `ty` lanes. -/
def vargs (ty : LaneTy) : VArgs := { slot := .v0, ty := ty, z := false, pm := 0, vd := 1, va := 0, vb := 0, vc := 0, u := false }

theorem witness_VectorOperations :
    let s := withTile running
    let t := s.tile 0
    (starts s = true ∧ t.issue.inflight = []) ∧ t.issue.tp = true ∧ (rdP t 0).poison = false ∧
    (∀ op ∈ [VBinOp.vadd, .vsub, .vmul, .vadds, .vsubs, .vmin, .vmax, .vand, .vor, .vxor, .vshl, .vshr, .vsra],
      opFail (.vbin op (vargs .i32)) = none) ∧
    (∀ op ∈ [VUnOp.vabs, .vneg, .vnot, .vmov, .vexp, .vexp2, .vlog2, .vrcp, .vrsqrt, .vtanh, .vsigm],
      opFail (.vun op (vargs .f32)) = none) ∧
    (∀ op ∈ [SlotOp.vsel (vargs .f32), .vperm (vargs .f32), .vfma (vargs .f32), .vred (vargs .f32) .sum 5, .vbcast (vargs .f32) 1,
      .vcmp .v0 .i8 0 1 0 0 .lt, .vext .v1 .f16 1 0 0, .pbin .pand .v0 1 0 0, .pbin .por .v0 1 0 0, .pbin .pxor .v1 1 0 0,
      .pnot .v0 1 0, .ppop .v0 1 0, .gate 0 1 0 8], opFail op = none) ∧
    (let a : QmxArgs := { slot := .v0, ef := .e4m3, rlLong := false, pm := 0, vd := 1, va := 0, sd := 1, row := 0 }
     opFail (.vqmx a) = none ∧ opFail (.vqmxc a) = none ∧ mxRowOk a = true) := by decide +kernel

/-- A narrowing conversion, to the nearest and stochastically. -/
def convert (st : Bool) : CvtArgs :=
  { slot := .v0, sty := .f32, dty := .bf16, pm := 0, vd := 1, va := 0, h := 1, stochastic := st, satf := false, ss := 0 }

theorem witness_ConvertAndPack :
    let t := (withTile running).tile 0
    (∀ b, opFail (.vcvt (convert b)) = none ∧ (convert b).h.toNat < cvtParts (convert b).sty (convert b).dty) ∧
    opFail (.gpack 1 0 0) = none ∧ (rdS t 0).poison = false ∧ (∀ i, i < 8 → (rdV t 0).poison.getLsbD i = false) := by decide +kernel

theorem witness_VectorIntegerLanes :
    starts (withTile running) = true ∧ ((withTile running).tile 0).issue.tp = true ∧
    (∀ ty ∈ [LaneTy.i32, .i16, .i8], opFail (.vbin .vmin { vargs ty with u := true, z := true }) = none) ∧
    opFail (.vbin .vand (vargs .f16)) = none := by decide +kernel

/-- A tile with TP = 0, a departure for slot 3 of two flits, data in inbox slot 0 and a tag that holds data. -/
def sender (tp : Bool) : Tile :=
  { outbox := [(3, {})], inbox := [(0, { gen := some 0, len := 2 })], tags := [(1, { st := .data }), (2, { st := .outstanding })]
    tables := { out0 := { deps := [{ fret := 20, phase := 0, slot := 3, cond := false, template := 0 }],
                          templates := [BitVec.ofNat 512 (2 * 2 ^ 8)] } }
    issue := { status := .running, tp := tp } }

theorem witness_PredicatedOff :
    let s := withTile (sender false)
    let t := s.tile 0
    (starts s = true ∧ t.issue.inflight = []) ∧ t.issue.tp = false ∧
    (Instr.vadd 0 (vargs .f32)).slotOp = some (0, .vbin .vadd (vargs .f32)) ∧ isMV (.vbin .vadd (vargs .f32)) = true ∧
    (let deps := slotDeps t s.version (s.phaseOf t.issue.transit) 3
     let cur := deps[(tget {} t.outbox 3).released]?.getD (deps.getLastD ⟨0, 0, 0, false, 0⟩)
     deps ≠ [] ∧ 0 + 1 + 1 ≤ hdrLen (depTemplate t s.version cur) ∧ hdrMulticast (depTemplate t s.version cur) = false) := by
  decide +kernel

theorem witness_SendAndReceive :
    let s := withTile (sender true)
    let t := s.tile 0
    (starts s = true ∧ t.issue.inflight = [] ∧ t.issue.tp = true) ∧
    (let deps := slotDeps t s.version (s.phaseOf t.issue.transit) 3
     let head := depTemplate t s.version (deps.getD 0 ⟨0, 0, 0, false, 0⟩)
     (tget {} t.outbox 3).released = 0 ∧ 0 < deps.length ∧ 1 + 1 ≤ hdrLen head ∧ hdrMulticast head = false) ∧
    (let o := tget {} t.inbox 0
     24 + 1 ≤ 25 ∧ o.replayPending = false ∧ (s.tileCtx 0).crossing 0 = false ∧
       o.gen = some ((t.issue.transit + 2 ^ 16 - t.tables.lag.getD 0 0) % 2 ^ 16) ∧ o.ready ≤ cycleInstant t) := by decide +kernel

/-- A device whose program has a segment of the own slot, one of overlay code, and queue 0 of district 0. -/
def queueing : State :=
  let s := withTile { tables := { queueOf := List.replicate 64 0 }, tags := [(1, { st := .data }), (2, { st := .outstanding })],
                      issue := { status := .running } }
  { (s.fset (R.mqeQcfgN 0 0) F.mqeQcfgN_MODE 1).fset (R.mqeQcfgN 0 0) F.mqeQcfgN_DEPTH 2 with
    prog := { segs := [{ kind := 0, access := 3, base := 0, size := 2 ^ 20 }, { kind := 4, access := 3, base := 2 ^ 20, size := 2 ^ 20 }] } }

theorem witness_QueueOperationsIssue :
    let s := queueing
    let t := s.tile 0
    (starts s = true ∧ t.issue.inflight = []) ∧ (rdS t 0).poison = false ∧
    (rdTag t 0).st ≠ .outstanding ∧ (rdTag t 0).st ≠ .data ∧
    (∀ w : Bool, ∀ len ∈ [0, 64 * 16, 2 ^ 20], segOk s.prog.segs false w 0 len = true) ∧
    segOk s.prog.segs true false (2 ^ 20) (16384 * 16) = true ∧
    (let q := t.tables.queueOf.getD 0 0xFF
     q ≠ 0xFF ∧ s.qcfg 0 q = (1, 2, 0) ∧ ((s.mqe 0).ops.filter (·.queue == q)).length < 2) ∧
    2 ^ 20 / 2 ^ 40 = s.ownSlot ∧ tierOf (2 ^ 20) = .board 0 ∧
    s.prog.segs.find? (fun g => g.kind == 4) = some { kind := 4, access := 3, base := 2 ^ 20, size := 2 ^ 20 } := by decide +kernel

theorem witness_QwaitAndQpop :
    let t := queueing.tile 0
    outstandingOf t (BitVec.ofNat 64 (2 ^ 1)) = 0 ∧ outstandingOf t (BitVec.ofNat 64 (2 ^ 2)) ≠ 0 ∧ (rdTag t 1).st = .data := by
  decide +kernel

/-- A tile with a latch load, a pass and a scalar load in flight; one that awaits no tag; one past its TEND. -/
def flying : Tile :=
  { issue := { status := .running, inflight := [{ issued := 0, done := 3, what := .sreg 1 {} },
      { issued := 0, done := 9, what := .latch 0 {} }, { issued := 0, done := 12, what := .acc 0 [] 0 }] } }

theorem witness_TileProgress :
    let t := flying
    t.active = true ∧ (∀ f ∈ t.issue.inflight, 3 ≤ f.done ∧ t.issue.cycle < f.done) ∧ (∃ l ∈ t.issue.inflight, l.what = .latch 0 {}) ∧
    (∃ l ∈ t.issue.inflight, l.what = .acc 0 [] 0) ∧
    (let w : Tile := { issue := { status := .qwaitStall, wait := 1 } }
     w.issue.status = .qwaitStall ∧ outstandingOf w w.issue.wait = 0) ∧
    (let s := withTile { issue := { status := .running, ended := .tend } }
     let t := s.tile 0
     let v := ticks (s.beat 0) (t.issue.cycle - t.issue.cycle) t
     t.issue.status = .running ∧ t.issue.ended = .tend ∧ s.sendPending 0 = false ∧
       t.issue.inflight.foldl (fun c f => max c f.done) (max t.issue.cycle t.issue.tendCycle) = t.issue.cycle ∧
       v.issue.start ≤ s.deadline t ∧ t.issue.cycle ≤ v.issue.cycle) := by decide +kernel

/-- A tile whose bundle 0 holds ADD s1, s2, s3, or nothing legal. -/
def bundled (ok : Bool) : Tile :=
  { imem := [(0, BitVec.ofNat 256 (if ok then 0x8001 + 0x04221800 * 2 ^ 16 else 0x0001))], issue := { status := .running } }

theorem witness_BundleIssue :
    (let s := withTile (bundled true)
     let t := s.tile 0
     let parts := decodeBundle t.issue.tp (tget 0 t.imem t.issue.pc).toNat
     starts s = true ∧ shas t.imemPoison t.issue.pc = false ∧ decodeFails parts = [] ∧
       (issueAll (s.tileCtx 0) { t with fig := { t.fig with noops := t.fig.noops + 0 } } (decodeOps parts)).faults = [] ∧
       (issueAll (s.tileCtx 0) { t with fig := { t.fig with noops := t.fig.noops + 0 } } (decodeOps parts)).ops = []) ∧
    (let s := withTile (bundled false)
     let t := s.tile 0
     decodeFails (decodeBundle t.issue.tp (tget 0 t.imem t.issue.pc).toNat) ≠ [] ∧ s.prog.st = .none ∧ s.ras.queue.length < 256) := by
  decide +kernel

/-- The code an issue ends in; 0 where it succeeds. -/
def failCode (r : IssueR) : Nat := match r with | .error f => f.code | .ok _ => 0

theorem witness_TileFaults :
    let s := withTile running
    starts s = true ∧
    (Instr.ldV 0 1 0 1).slotOp = some (0, .ldv 1 0 1) ∧ opFail (.ldv 1 0 1) = none ∧
    failCode (issueOp (s.tileCtx 0) (s.tile 0) (.ldv 1 0 1)) = 0x0105 ∧ TFault.alignment.cls = 4 ∧
    failCode (issueOp (s.tileCtx 0) (s.tile 0) (.recv 1 0 0 0)) = 0x0116 ∧
    opFail (.recv 1 0 0 0) = none ∧ s.prog.st = .none ∧ s.ras.queue.length < 224 := by decide +kernel

theorem witness_BusyTagFaults :
    let s := queueing
    starts s = true ∧ s.prog.st = .none ∧ s.ras.queue.length < 256 ∧ (rdTag (s.tile 0) 1).st = .data ∧
    (rdTag (s.tile 0) 2).st = .outstanding ∧ (s.tile 0).issue.inflight = [] := by decide +kernel

/-! ## Memory queues, scheduled plane, clocks -/

/-- Several register fields set. -/
def setAll (s : State) (l : List (Nat × RField × Nat)) : State := l.foldl (fun s x => s.fset x.1 x.2.1 x.2.2) s

/-- A vector load of one flit, a vector store of one, both on the own slot, and a load from window 0. -/
def opLoad : MqeOp := { tile := 0, tag := 1, queue := 0, kind := .ldqv 1, addr := 0, len := 64, issued := 0, bundle := 0 }
def opStore : MqeOp := { tile := 0, tag := 2, queue := 1, kind := .stqv 1 5 0, addr := 2 ^ 20, len := 64, issued := 0, bundle := 0 }
def opHost : MqeOp := { tile := 0, tag := 3, queue := 2, kind := .stqv 1 5 0, addr := 2 ^ 44 + 64, len := 64, issued := 0, bundle := 0 }

/-- A device with these three in the MQE of district 0, its HBM ready and host window 0 bound. -/
def completing : State :=
  { setAll .reset ([(R.pciLink, F.pciLink_UP, 1), (R.pciLink, F.pciLink_BME, 1)] ++
      (List.range 8).map fun h => (R.hbmStatus h, F.hbmStatus_STATE, 2)) with
    mqes := [(0, { ops := [opLoad, opStore, opHost] })], wins := [(0, { base := 2 ^ 32, len := 2 ^ 30 })] }

theorem witness_QueueCompletes :
    let s := completing
    (∀ p ∈ [(0, opLoad), (1, opStore)], (s.mqe 0).ops[p.1]? = some p.2 ∧ tierOf p.2.addr = .board s.ownSlot ∧
      behindAnother (s.mqe 0).ops p.1 p.2 = false ∧ s.deadUnits (p.2.addr % 2 ^ 40) p.2.len = []) ∧
    opLoad.kind = .ldqv 1 ∧ opLoad.len ≤ 1024 ∧ opStore.kind.loads = false ∧ s.hbmBad (2 ^ 20) 64 = false ∧
    (storeData (s.tile 0) opStore).1.length = opStore.len ∧ (s.mqe 0).ops[2]? = some opHost ∧
    tierOf opHost.addr = .host 0 64 ∧ s.hostAddr 0 64 64 = some (2 ^ 32 + 64) ∧ ({} : QExt).failed = false ∧
    s.dmaOn = true ∧ s.behindDma 0 opHost = false ∧
    s.fget R.pciLink F.pciLink_UP = 1 ∧ s.fget R.pciLink F.pciLink_BME = 1 := by decide +kernel

theorem witness_HbmAndQueueCommands :
    let s : State := { setAll .reset [(R.hbmScrubCtl 7, F.hbmScrubCtl_PERIOD_H, 24), (R.hbmStatus 7, F.hbmStatus_STATE, 2),
      (R.hbmScrubStatus 7, F.hbmScrubStatus_POSITION, 2 ^ 27 - 1)] with
      prog := { st := .running }
      ras := { hbmErrs := [{ stack := 7, pc := 31, row := 5, ue := true }, { stack := 7, pc := 0, row := 6, ces := [0, 0, 0, 0] }] } }
    s.fget (R.hbmScrubCtl 7) F.hbmScrubCtl_PERIOD_H ≠ 0 ∧ s.fget (R.hbmStatus 7) F.hbmStatus_STATE = 2 ∧
    s.fget (R.hbmScrubStatus 7) F.hbmScrubStatus_POSITION + 1 = 2 ^ 27 ∧ s.running = true ∧ s.ras.hbmRows = [] ∧
    s.rowFails 7 31 5 = true ∧ s.rowFails 7 0 6 = true ∧ s.rowFails 7 0 5 = false ∧
    s.fget (R.hbmRemapN 7 0) F.hbmRemapN_VALID = 0 ∧ (s.fget (R.hbmStatus 7) F.hbmStatus_PC_LOST).testBit 31 = false ∧
    State.reset.prog.st = .none ∧ s.ras.queue.length < 256 ∧ (s.mqe 0).ops = [] ∧
    (let v : Word := 2 ^ 30 + 128 * 2 ^ 16 + 256
     field v.toNat 30 2 = 1 ∧ field v.toNat 16 8 = 128 ∧ field v.toNat 0 9 = 256 ∧ s.depthSum 0 63 256 ≤ 2048 ∧
       s.rateSum 0 63 1 128 ≤ 128) := by decide +kernel

/-- A running program of one phase, meridians of 4,096 ns, and tile 0 past its block with a written slot 3. -/
def departing : State :=
  let s := setAll .reset [(R.ngtPeriod, F.ngtPeriod_N, 16), (R.ngtPeriod, F.ngtPeriod_VALID, 1)]
  { s.setTile 0 { outbox := [(3, { written := true, void := false })]
                  tables := { out0 := { deps := [{ fret := 20, phase := 0, slot := 3, cond := false, template := 0 }],
                                        templates := [BitVec.ofNat 512 (2 * 2 ^ 8)] } }
                  issue := { status := .tendWait, ended := .tend } } with prog := { st := .running } }

/-- A header to unit 0 of the own device whose first hop is port 0, then local: one flit, stamp 0, transit 0. -/
def hdrTo (e0 e1 hop : Nat) : BitVec 512 :=
  BitVec.ofNat 512 (1 * 2 ^ 8 + hop * 2 ^ 16 + e0 * 2 ^ 32 + e1 * 2 ^ 36)
/-- The same vector as a packet of a crossing. -/
def crossing (h : BitVec 512) (stomped : Bool) : CrossPkt :=
  { tag := 0, tile := 0, slot := 0, bundle := 0, header := h, payload := 7, poison := 0, stomped := stomped, gen := 0 }
/-- Port `p` UP and open, its fret map giving every fret to source `src`. -/
def openPort (p src : Nat) (s : State) : State :=
  let s := setAll s [(R.fabCtl p, F.fabCtl_ENABLE, 1), (R.fabCtl p, F.fabCtl_LINK_FRETS, 4), (R.fabMapCount p, F.fabMapCount_COUNT_V0, 1)]
  (s.setReg (R.fabMapV p 0) (BitVec.ofNat 64 (4095 * 2 ^ 20 + 1 * 2 ^ 32 + src * 2 ^ 44))).setLink p
    { st := .up, gate := .opened, partner := .opened }

/-- The tile of `departing` with `template` for its one departure. -/
def leaving (template : Nat) : State :=
  let t := departing.tile 0
  departing.setTile 0 { t with tables := { t.tables with out0 := { t.tables.out0 with templates := [BitVec.ofNat 512 template] } } }

theorem witness_DeparturesAndCrossings :
    (∀ x ∈ [(2 * 2 ^ 8, none), (2 * 2 ^ 8 + 8 * 2 ^ 32, some 0)], let s := leaving x.1
     let t := s.tile 0
     let o := tget {} t.outbox 3
     let deps := slotDeps t s.version (s.phaseOf s.transit) 3
     let cur := deps.getD 0 ⟨0, 0, 0, false, 0⟩
     deps.length = 1 ∧ o.released = 0 ∧ s.releasing 0 = true ∧ t.issue.status ≠ .running ∧ s.ras.latent = [] ∧ o.written = true ∧
       hdrMulticast (depTemplate t s.version cur) = false ∧ t.issue.inflight = [] ∧
       s.stays 0 (s.fillHeader (depTemplate t s.version cur) (o.void || t.issue.voidRest) cur.fret s.transit (s.ltileOf 0) o.poison.toNat) =
         x.2 ∧
       s.meshClaims = [] ∧ (s.clk 0).outFifo.length < 8 ∧ o.void = false) ∧
    (∀ d ∈ [0, 15], ∀ here : Bool,
     let pk := crossing (hdrTo (if here then 8 else 0) 8 0) false
     let s : State := { openPort 0 8 departing with clks := [(d, { outFifo := [pk] })] }
     let rel := (s.clk d).outTick pk.tag + 0
     let v := ((s.setClk d { s.clk d with outFifo := (s.clk d).outFifo.erase pk, lastOut := some rel }).reach (rel <<< 32)).drainCheck
     let f := pk.header.toNat
     let ns := (stampNs v.ns (VH.stamp f)).toNat
     firstTag (s.clk d).outFifo = some pk ∧ rel ≤ pk.tag + s.slipLimit d ∧ s.beyond (rel <<< 32) = false ∧
       (here = false → v.hopOf 8 f = .out 0 ∧ v.headerBad 0 ns f = false ∧
         v.outBar 0 8 (ns / 4 + meshHops d (attach 0) + 6) (VH.epoch f) false = none) ∧
       (here = true → v.hopOf 8 f = .here ∧ v.headerBad 8 ns f = false ∧ s.ptileOf (unitOf (VH.dest f)) = some 0)) ∧
    (let m : MeshVec := { vec := { header := hdrTo 8 0 0 }, dest := .tile 17, stop := 1, fret := 9 }
     let s : State := { departing with mesh := [m] }
     s.mesh.find? (fun m => m.stop == 1 && (match m.dest with
        | .tile p => districtOf p == 1
        | .port _ => false)) = some m ∧ s.beyond (fretStart m.fret) = false ∧ s.meshClaims = [] ∧ (s.clk 1).inFifo.length < 8) ∧
    (∀ b : Bool, let s : State := { departing with clks := [(0, { inFifo := [crossing (hdrTo 8 0 0) b] })] }
     firstTag (s.clk 0).inFifo = some (crossing (hdrTo 8 0 0) b) ∧ s.clkState 0 ≠ clkHalted ∧ s.beyond (s.inEdge 0 0 + 0 <<< 32) = false ∧
       (s.tile 0).issue.status ≠ .running ∧ (crossing (hdrTo 8 0 0) b).stomped = b) := by decide +kernel

theorem witness_VectorsAtPorts :
    (let m : MeshVec := { vec := { header := 0 }, dest := .port 0, stop := 0, fret := 9 }
     m.stop ≠ m.target ∧ meshNext m.stop m.target ≠ m.target ∧
     ({ State.reset with mesh := [m] } : State).meshClaims.contains (0, meshNext 0 m.target, 9) = false ∧
     ({ State.reset with mesh := [m], meshClaims := [(0, 1, 9)] } : State).meshClaims.contains (0, meshNext 0 m.target, 9) = true ∧
     State.reset.prog.st = .none ∧ State.reset.ras.queue.length < 256) ∧
    (∀ p ∈ [(hdrTo 1 8 0, Hop.out 1), (hdrTo 1 8 1, Hop.here)],
     let s := (openPort 1 0 departing).setLink 0 { st := .up, rxVec := [{ vec := { header := p.1 }, at_ := 0 }] }
     let v := (s.drainCheck.setLink 0 { s.link 0 with rxVec := [] }).reach 0
     let f := p.1.toNat
     VH.kind f ≠ 3 ∧ v.headerBad 0 0 f = false ∧ v.hopOf 0 f = p.2 ∧ VH.replay f = false ∧ s.ptileOf (unitOf (VH.dest f)) = some 0 ∧
       v.outBar 1 0 ((v.retime 0 0).1 + v.linkFrets 0 + 12) (VH.epoch f) false = none) ∧
    VH.kind (3 * 2 ^ 2) = 3 ∧
    (let e : Sent := { seq := 5, flits := 2, fret := 3, slot := 0, what := .vec { header := 0 }, replayAt := some 40 }
     let s := (openPort 0 8 departing).setLink 0 { st := .up, gate := .opened, partner := .opened, sent := [e] }
     (s.link 0).sent.find? (fun e => e.isVec && e.replayAt.isSome) = some e ∧ s.portUp 0 = true ∧ s.portOpen 0 = true) ∧
    (let s : State := { openPort 0 8 departing with fabs := [(0, { replayQ := [(40, { header := 0 })] })] }
     (s.fab 0).replayQ = [(40, { header := 0 })] ∧ s.portUp 0 = true ∧ s.portOpen 0 = true) := by decide +kernel

theorem witness_VersionFlipRequests :
    let s := setAll .reset [(R.ngtPeriod, F.ngtPeriod_N, 16), (R.ngtPeriod, F.ngtPeriod_VALID, 1)]
    (s.link 0).st ≠ .disabled ∧ s.valid = true ∧ s.transit + 4 ≤ (4 : BitVec 48).toNat ∧ ¬ s.transit + 4 ≤ (3 : BitVec 48).toNat ∧
    s.drainedNow = true ∧ s.fget R.fabEpoch F.fabEpoch_PENDING = 0 ∧ State.reset.valid = false ∧
    (setAll s [(R.fabEpoch, F.fabEpoch_DRAINED, 0), (R.fabEpoch, F.fabEpoch_AT_TRANSIT, 9)]).drainedNow = false ∧
    (setAll s [(R.fabEpoch, F.fabEpoch_PENDING, 1)]).fget R.fabEpoch F.fabEpoch_PENDING = 1 := by decide +kernel

theorem witness_ClockCommands :
    let s := setAll .reset [(R.clkStatus 31, F.clkStatus_STATE, clkRunning), (R.clkStatus 30, F.clkStatus_STATE, clkHalted)]
    let h : State := { s with clks := [(30, { halt := some (3, 3) }), (29, { tripped := some 0 })] }
    let p := setAll s [(R.clkRetune, F.clkRetune_PENDING, 1), (R.clkRetune, F.clkRetune_SETTING, 30)]
    s.clkState 31 = clkRunning ∧ (s.clk 31).tripped = none ∧ (h.clk 29).tripped = some 0 ∧ s.clkState 31 ≠ clkGated ∧
    (∀ n ∈ [20, 42], n = field (BitVec.ofNat 64 n).toNat 0 6 ∧ (BitVec.ofNat 64 n).getLsbD 14 = false ∧
      s.fget R.clkMinSetting F.clkMinSetting_MIN ≤ n ∧ s.retuneOk n 0 = true) ∧
    (∀ n ∈ [19, 43], s.retuneOk n 0 = false) ∧ s.valid = false ∧ s.ras.queue.length < 224 ∧
    (BitVec.ofNat 64 (2 ^ 14)).getLsbD 14 = true ∧ p.valid = false ∧ p.fget R.clkRetune F.clkRetune_PENDING = 1 ∧
    20 ≤ s.setting ∧ 30 ≤ p.fget R.clkRetune F.clkRetune_SETTING ∧ (s.clk 31).stretch = [] ∧
    (setAll s [(R.clkStatus 31, F.clkStatus_STATE, clkGated)]).clkState 31 = clkGated ∧
    (h.clk 30).halt = some (3, 3) ∧ (∀ e, e < 32 → h.clkState e = clkHalted → (h.clk e).halt = some (3, 3)) := by decide +kernel

/-! ## Links -/

/-- A port that is UP and open. -/
def upLink : Link := { st := .up, gate := .opened, partner := .opened }

/-- The product with zero. -/
theorem gfMul_zero_left (x : Nat) : gfMul 0 x = 0 := by
  unfold gfMul
  generalize List.range 8 = l
  induction l with
  | nil => rfl
  | cons a l ih =>
    rw [List.foldl_cons]
    have h : (if bit x a then Nat.xor (0, 0).1 (0, 0).2 else ((0, 0) : Nat × Nat).1, gfX ((0, 0) : Nat × Nat).2) = (0, 0) := by
      split <;> rfl
    rw [h]
    exact ih

/-- Zeros at the high end do not change a polynomial's value. -/
theorem gfEval_zeros (p : List Nat) (n x : Nat) : gfEval (p ++ List.replicate n 0) x = gfEval p x := by
  unfold gfEval
  rw [List.foldr_append]
  congr 1
  induction n with
  | zero => rfl
  | succ n ih => rw [List.replicate_succ, List.foldr_cons, ih, gfMul_zero_left]; rfl

/-- A codeword's column of a frame whose first 1,664 bytes are zero. -/
theorem column_tail (t : List Nat) (n c : Nat) (hn : n = 1664) (hc : c < 8) :
    ((List.range 224).map fun i => (List.replicate n 0 ++ t).getD (frameByte c i) 0) =
      List.replicate 208 0 ++ (List.range 16).map fun i => t.getD (8 * i + c) 0 := by
  rw [show 224 = 208 + 16 from rfl, List.range_add, List.map_append, List.map_map]
  congr 1
  · rw [List.eq_replicate_iff]
    refine ⟨by rw [List.length_map, List.length_range], fun x hx => ?_⟩
    obtain ⟨i, hi, rfl⟩ := List.mem_map.1 hx
    have := List.mem_range.1 hi
    have hl : frameByte c i < n := by unfold frameByte; omega
    rw [List.getD_append _ _ _ _ (by rw [List.length_replicate]; exact hl), List.getD_replicate _ hl]
  · refine List.map_congr_left fun i _ => ?_
    simp only [Function.comp, frameByte]
    rw [List.getD_append_right _ _ _ _ (by rw [List.length_replicate]; omega), List.length_replicate]
    congr 1
    omega

/-- A frame whose first 1,664 bytes are zero and whose columns have no syndrome is a codeword. -/
theorem fec_tail (t : List Byte) (n : Nat) (hn : n = 1664) (ht : t.length = 128)
    (h : ∀ c, c < 8 → ∀ j, j < 8 → gfEval ((List.range 16).map fun i => (t.map (fun b : Byte => b.toNat)).getD (8 * i + c) 0).reverse (alpha j) = 0) :
    fecDecode (List.replicate n 0 ++ t) = { bytes := List.replicate n 0 ++ t.map (fun b : Byte => b.toNat), fixed := [], good := 0, bad := 0 } := by
  have e : (List.replicate n (0 : Byte) ++ t ++ List.replicate (1792 - (List.replicate n (0 : Byte) ++ t).length) 0#8).map
      (fun b : Byte => b.toNat) = List.replicate n 0 ++ t.map (fun b : Byte => b.toNat) := by
    rw [List.length_append, List.length_replicate, ht, hn, Nat.sub_self, List.replicate_zero, List.append_nil, List.map_append,
      List.map_replicate]
    rfl
  have k : ∀ c, c < 8 → fixCodeword { bytes := List.replicate n 0 ++ t.map (fun b : Byte => b.toNat), fixed := [], good := 0, bad := 0 } c =
      { bytes := List.replicate n 0 ++ t.map (fun b : Byte => b.toNat), fixed := [], good := 0, bad := 0 } := by
    intro c hc
    have r : rsErrors ((List.range 224).map fun i => (List.replicate n 0 ++ t.map (fun b : Byte => b.toNat)).getD (frameByte c i) 0) = some [] := by
      rw [column_tail _ _ _ hn hc]
      unfold rsErrors
      rw [if_pos]
      rw [List.all_map, List.all_eq_true]
      intro j hj
      simp only [Function.comp, List.reverse_append, List.reverse_replicate, gfEval_zeros]
      rw [h c hc j (List.mem_range.1 hj)]
      rfl
    unfold fixCodeword
    dsimp only
    rw [r]
  have g : ∀ l : List Nat, (∀ c ∈ l, c < 8) → l.foldl fixCodeword
      { bytes := List.replicate n 0 ++ t.map (fun b : Byte => b.toNat), fixed := [], good := 0, bad := 0 } =
      { bytes := List.replicate n 0 ++ t.map (fun b : Byte => b.toNat), fixed := [], good := 0, bad := 0 } := by
    intro l
    induction l with
    | nil => intro _; rfl
    | cons c l ih =>
      intro hl
      rw [List.foldl_cons, k c (hl c List.mem_cons_self)]
      exact ih fun x hx => hl x (List.mem_cons_of_mem _ hx)
  unfold fecDecode
  rw [e]
  exact g _ fun c hc => List.mem_range.1 hc

/-- The last 128 bytes of a frame: GATE OPEN, its FCRC, and the parity, worked out from R368 and R370. -/
def goodTail : List Byte :=
  [0, 0, 0, 16, 0, 0, 0, 0, 0, 0, 0, 0, 0, 0, 205, 178] ++ List.replicate 48 0 ++
  [0, 0, 0, 78, 0, 0, 162, 146, 0, 0, 0, 112, 0, 0, 162, 146, 0, 0, 0, 87, 0, 0, 219, 118, 0, 0, 0, 33, 0, 0, 50, 33,
   0, 0, 0, 32, 0, 0, 122, 246, 0, 0, 0, 197, 0, 0, 98, 102, 0, 0, 0, 199, 0, 0, 15, 90, 0, 0, 0, 122, 0, 0, 51, 47]

/-- An UP port with every lane in use and a receive scrambler whose sequence is all zeros. -/
def framed : State :=
  State.reset.setLink 0 { upLink with rxLanes := mapLanes (List.range 30), txLanes := mapLanes (List.range 30) }
/-- The frame of these bytes: byte k of logical lane i is byte 28k + i (R368). -/
def onLanes (bs : List Byte) : Frame :=
  { lanes := (List.range 28).map fun i => (List.range 64).map fun k => bs.getD (28 * k + i) 0, at_ := 0 }
/-- What the port makes of the lanes of a frame. -/
def laneBytes (bs : List Byte) : List Byte := (framed.reach 0).drainCheck.frameBytes 0 (onLanes bs)

/-- Weaving lists of n elements takes them in turn. -/
theorem weave_flat (n : Nat) : ∀ (l : List Nat) (g : Nat → Nat → Nat),
    weave n (l.map fun i => (List.range n).map (g i)) = (List.range n).flatMap fun k => l.map fun i => g i k := by
  induction n with
  | zero => intro l g; rfl
  | succ n ih =>
    intro l g
    have e : (l.map fun i => (List.range (n + 1)).map (g i)).map List.tail = l.map fun i => (List.range n).map fun k => g i (k + 1) := by
      rw [List.map_map]; refine List.map_congr_left fun i _ => ?_
      simp only [Function.comp, List.range_succ_eq_map, List.map_cons, List.tail_cons, List.map_map]; rfl
    have h : (l.map fun i => (List.range (n + 1)).map (g i)).map (·.headD 0) = l.map fun i => g i 0 := by
      rw [List.map_map]; refine List.map_congr_left fun i _ => ?_
      simp only [Function.comp, List.range_succ_eq_map, List.map_cons, List.headD_cons]
    rw [weave, e, h, ih l fun i k => g i (k + 1), List.range_succ_eq_map, List.flatMap_cons, List.flatMap_map]

/-- Taking n times 28 elements in turn takes a list's elements in order. -/
theorem flat_getD (bs : List Nat) (n : Nat) (h : bs.length = 28 * n) :
    ((List.range n).flatMap fun k => (List.range 28).map fun i => bs.getD (28 * k + i) 0) = bs := by
  induction n generalizing bs with
  | zero => exact (List.length_eq_zero_iff.1 (by omega)).symm
  | succ n ih =>
    rw [List.range_succ_eq_map (n := n), List.flatMap_cons, List.flatMap_map]
    conv_rhs => rw [← List.take_append_drop 28 bs]
    congr 1
    · refine List.ext_getElem (by simp; omega) fun i h1 h2 => ?_
      simp only [List.length_map, List.length_range] at h1
      simp [List.getD_eq_getElem?_getD, List.getElem?_eq_getElem (show i < bs.length by omega)]
    · rw [← ih (bs.drop 28) (by simp; omega)]
      refine List.flatMap_congr fun k hk => List.map_congr_left fun i hi => ?_
      have a := List.mem_range.1 hk
      have b := List.mem_range.1 hi
      simp only [List.getD_eq_getElem?_getD, List.getElem?_drop]
      rw [show 28 * (k + 1) + i = 28 + (28 * k + i) by omega]

/-- With every lane in use a logical lane is its physical one. -/
theorem framed_lane (ls : List (List Nat)) (i : Nat) (h : i < 28) : (framed.link 0).laneBytes ls i = ls.getD i [] := by
  have k : ∀ i < 28, ((framed.link 0).withRole true .active).find? (fun n => ((framed.link 0).lane true n).logical == i) = some i := by
    decide +kernel
  unfold Link.laneBytes
  simp only [k i h]

/-- Adding zeros changes no byte. -/
theorem xor_zeros (bs : List Byte) :
    (List.zipWith Nat.xor (bs.map (·.toNat)) (List.replicate bs.length 0)).map (BitVec.ofNat 8) = bs := by
  induction bs with
  | nil => rfl
  | cons b bs ih =>
    rw [List.length_cons, List.replicate_succ, List.map_cons, List.zipWith_cons_cons, List.map_cons, ih]
    congr 1
    exact (congrArg _ (Nat.xor_zero _)).trans (by simp)

/-- A frame on its lanes, under a scrambler of zeros, is read as it is. -/
theorem laneBytes_eq (bs : List Byte) (h : bs.length = 1792) : laneBytes bs = bs := by
  have l : (framed.reach 0).drainCheck.link 0 = framed.link 0 := by decide +kernel
  have z : scrKey (framed.link 0).rxScr ((framed.reach 0).drainCheck.retime 0 0).1 = List.replicate 1792 0 := by decide +kernel
  have w : (List.range 28).map ((framed.link 0).laneBytes ((onLanes bs).lanes.map fun x => x.map (·.toNat))) =
      (List.range 28).map fun i => (List.range 64).map fun k => (bs.map (·.toNat)).getD (28 * k + i) 0 := by
    refine List.map_congr_left fun i hi => ?_
    have hi := List.mem_range.1 hi
    rw [framed_lane _ _ hi, onLanes, List.map_map, List.getD_eq_getElem?_getD, List.getElem?_map, List.getElem?_range hi]
    simp only [Option.map_some, Option.getD_some, Function.comp, List.map_map]
    refine List.map_congr_left fun k _ => ?_
    simp only [Function.comp, List.getD_eq_getElem?_getD, List.getElem?_map]
    cases bs[28 * k + i]? <;> rfl
  unfold laneBytes State.frameBytes scrambled
  dsimp only
  rw [l, show (onLanes bs).at_ = 0 from rfl, z, w, weave_flat 64 (List.range 28) fun i k => (bs.map (·.toNat)).getD (28 * k + i) 0,
    flat_getD (bs.map (·.toNat)) 64 (by rw [List.length_map, h]), ← h]
  exact xor_zeros bs

/-- The frame is a codeword with a good header that opens the gate and carries no packet. -/
theorem witness_LinkReception_frame :
    let c := fecDecode (laneBytes (List.replicate 1664 0 ++ goodTail))
    let h := frameHdr c.bytes
    (onLanes []).training = false ∧ c.fixed = [] ∧ h.ok = true ∧ h.ends ≤ 6 ∧ h.gate = 1 ∧ h.nak = none ∧ h.ack = 0 ∧
      (parseFrame c.bytes h []).pkts = [] ∧ (parseFrame c.bytes h []).drones = [] := by
  rw [laneBytes_eq _ (by decide +kernel), fec_tail _ _ rfl (by decide +kernel) (by decide +kernel)]
  dsimp only
  decide +kernel

/-- A frame of zeros is a codeword whose header fails its check. -/
theorem witness_LinkReception_badFrame :
    let c := fecDecode (laneBytes (List.replicate 1664 0 ++ List.replicate 128 0))
    c.fixed = [] ∧ (frameHdr c.bytes).ok = false := by
  rw [laneBytes_eq _ (by decide +kernel), fec_tail _ _ rfl (by decide +kernel) (by decide +kernel)]
  dsimp only
  decide +kernel
/-- A packet of one header flit of a plane, its HCRC written. -/
def pkt (plane : Nat) (crc : Crc) (seq : BitVec 20) : LinkPkt :=
  { flits := [BitVec.ofNat 512 (sealed (plane + 256))], seq := seq, crc := crc, readable := true, slot := 0, at_ := 0 }

theorem witness_LinkReception :
    let s := State.reset.setLink 0 upLink
    let e : Sent := { seq := 0, flits := 1, fret := 0, slot := 0, what := .svc { flit := 1 } }
    let l : Link := { upLink with txNext := 1, sent := [e], ended := [(0, 0, 0)] }
    let z := State.reset.setLink 0 l
    (s.link 0).st = .up ∧ (s.link 0).gate ≠ .closed ∧ (s.link 0).unreadable < 7 ∧
    (∀ k ∈ [0, 1, 2], hPlane (((pkt k .good 0).flits.headD 0).toNat) = k ∧ hcrcOk ((pkt k .good 0).flits.headD 0).toNat = true) ∧
    hcrcOk (vecOfFlits (pkt 0 .good 0).flits).header.toNat = true ∧
    lnkDist (2 ^ 20 - 1) 0 < 0 ∧ 0 ≤ lnkDist 8191 0 ∧ lnkDist 8191 0 < 8192 ∧ (s.link 0).settled.contains 8191 = false ∧
    (s.link 0).naks = [] ∧
    0 < lnkDist 1 l.txOldest ∧ lnkDist 1 l.txOldest ≤ lnkDist l.txNext l.txOldest ∧ lnkDist l.txNext l.txOldest < lnkDist 2 l.txOldest ∧
    lnkDist 0 l.txOldest ≤ 0 ∧ lnkDist 0 l.txOldest ≤ lnkDist l.txNext l.txOldest ∧ z.ras.queue.length < 224 ∧
    l.ended.find? (fun e => e.1 % 2 ^ 16 == (0 : BitVec 16).toNat && decide (z.nowFret ≤ e.1 + 256)) = some (0, 0, 0) ∧
    l.ended.find? (fun y => y.1 == 0 && y.2.1 == 0) = some (0, 0, 0) ∧ l.sent.find? (fun y => y.seq == 0) = some e ∧
    e.isVec = false ∧ e.nakd = false ∧ e.seq ∉ l.replaySvc ∧ l.partner = .opened ∧ z.buffered 0 ≠ [] ∧
    (let due := l.ackSince + (z.fget (R.lnkAckCtl 0) F.lnkAckCtl_ACK_TIMEOUT_NS) <<< 48
     due ≤ (z.reach due).ngt.now ∧ (z.reach due).buffered 0 ≠ [] ∧ l.expiries + 1 < z.fget (R.lnkAckCtl 0) F.lnkAckCtl_STALL_LIMIT) := by decide +kernel

/-- A link with 28 active lanes and two parity lanes each way. -/
def laned : Link := { upLink with rxLanes := mapLanes (List.range 30), txLanes := mapLanes (List.range 30) }

theorem witness_LanesAndSubstitution :
    let l := laned
    let s := State.reset.setLink 0 l
    let y : LaneSub := { rx := true, lane := 29, switchFret := some 512 }
    l.st = .up ∧ (∀ n ∈ [0, 27, 28, 29], ∀ rx : Bool, (l.lane rx n).role ≠ .failed ∧ (l.lane rx n).role ≠ .retired ∧
      ((l.lane rx n).logical < 28 → (l.cover rx (l.lane rx n).logical).isSome = true) ∧
      ((l.lane rx n).role = .active → (l.cover rx (l.lane rx n).logical).isSome = true)) ∧
    (∀ k, k < 30 → (l.lane true k).role ≠ .failed) ∧ s.ras.queue.length < 224 ∧ l.subs = [] ∧
    fretStart 512 ≤ (s.reach (fretStart 512)).ngt.now ∧ y.lane < 30 := by decide +kernel

theorem witness_PortStates :
    let due := fun (s : State) => 0 + (s.fget (R.lnkDownTime 0) F.lnkDownTime_US * 1000) <<< 48
    let s := State.reset
    let all : TrainData := { rxUsable := List.range 30, txUsable := (List.range 30).drop 2, record := [], fresh := true }
    due s ≤ (s.reach (due s)).ngt.now ∧ s.ngt.now ≤ due s ∧
    s.fget (R.lnkCtl 0) F.lnkCtl_FORCE_DOWN = 0 ∧
    28 ≤ (upLink.usable all true).length ∧ (upLink.usable all false).length = 28 ∧
    (∀ st ∈ [LinkState.up, .recover, .training, .down], ∃ l ∈ [({ upLink with st := st, recoverAt := some 0 } : Link)],
      l.st = st ∧ l.st ≠ .disabled ∧ l.gate ≠ .leaving ∧ l.recoverAt = some 0) ∧
    s.svc.ctx = [] ∧ s.fget (R.lnkCtl 0) F.lnkCtl_QUARANTINE = 0 ∧ s.fget (R.lnkCtl 0) F.lnkCtl_GATE = 0 := by decide +kernel

/-- A queued service packet of one flit from the own device. -/
def queued : SvcHeld := { pkt := { flit := BitVec.ofNat 512 1 }, since := 0, src := 8 }

theorem witness_ServicePacketDeparts :
    let s := { State.reset.setLink 0 upLink with svc := { txq := [(0, [queued])] } }
    let e : Sent := { seq := 0, flits := 1, fret := 0, slot := 0, what := .svc { flit := 1 } }
    let r := { State.reset.setLink 0 { upLink with sent := [e], replaySvc := [0] } with ngt := { now := fretStart 3 } }
    let picks := fun (s : State) (rep : Bool) => match s.pickClass 0 true, s.pickClass 0 false with
      | none, some (.fresh _, _) => !rep
      | none, some (.replay _, _) => rep
      | _, _ => false
    let first := fun (s : State) => max s.nowFret (tget ({} : SvcFig) s.svc.fig 0).lastFret
    s.portUp 0 = true ∧ s.portOpen 0 = true ∧ picks s false = true ∧ picks r true = true ∧
    (first s, first r) = (0, 3) ∧ s.place 0 65536 (Leaving.fresh queued).flits 0 0 = some [(0, 0, (Leaving.fresh queued).flits)] ∧
    r.place 0 65536 1 3 0 = some [(3, 0, 1)] ∧ 0 ≤ (s.reach (fretStart 0)).nowFret ∧ 3 ≤ (r.reach (fretStart 3)).nowFret ∧
    s.svcOccupancy 0 + (Leaving.fresh queued).flits ≤ 6144 ∧ s.occupancy 0 + (Leaving.fresh queued).flits ≤ 8192 := by decide +kernel

/-! ## Time -/

/-- A time-exchange record of `ty` with SEQ `q`, from a LOCKED sender of depth 1. -/
def exchRec (ty q : Nat) : List Byte :=
  leBytes 4 (ty + 2 * 2 ^ 8 + 1 * 2 ^ 16) ++ leBytes 2 q ++ List.replicate 20 0 ++ leBytes 6 65536 ++ List.replicate 8 0 ++
    leBytes 6 65536 ++ leBytes 2 0

theorem witness_TimeExchanges :
    let s := setAll (State.reset.setLink 7 upLink) [(R.ngtRole, F.ngtRole_PARENT_A, 7), (R.ngtServoCtl, F.ngtServoCtl_FREEZE, 1)]
    let x : Exchange := { seq := 9, t1 := 0 }
    let w : State := { s with ngt := { s.ngt with exch := [(7, x)] } }
    s.portUp 7 = true ∧ State.reset.portUp 7 = false ∧ s.exchDue 7 (56000 * 65536) = true ∧ s.exchDue 7 65536 = false ∧
    exchBad (exchRec 1 9) = false ∧ leAt (exchRec 1 9) 0 1 = 1 ∧
    exchBad [] = true ∧ exchBad (exchRec 2 9) = false ∧ leAt (exchRec 2 9) 0 1 = 2 ∧ leAt (exchRec 2 9) 26 6 ≠ 0 ∧
    leAt (exchRec 2 9) 40 6 ≠ 0 ∧ leAt (exchRec 2 9) 4 2 = x.seq ∧
    w.ngt.exch.find? (·.1 == 7) = some (7, x) ∧ s.ngt.exch = [] ∧ (∀ due, w.rspDue 7 = some due → (w.reach 0).ngt.now ≤ due) ∧
    w.rspBad 7 (exchRec 2 9) = false ∧ w.rspBad 7 [] = true ∧
    (let due := (s.openSlot 7 + 32000) <<< 48
     due ≤ (s.reach due).ngt.now) ∧
    State.reset.parentOf false ≠ 7 ∧ State.reset.parentOf true ≠ 7 ∧ s.parentOf false = 7 ∧ s.parentOf true ≠ 7 ∧
    s.masterOf false = false ∧ servesDomain (exchRec 2 9) false = true ∧ leAt (exchRec 2 9) 32 8 = (s.reg R.ngtEpochId).toNat ∧
    s.fget R.ngtServoCtl F.ngtServoCtl_FREEZE = 1 ∧
    (let due := x.t1 <<< 32 + 32000 <<< 48
     due ≤ (s.reach due).ngt.now) := by decide +kernel

/-- Time state `st`, domain A in state `a` with parent port 7, B in state `b`. -/
def timed (st a b : Nat) : State :=
  setAll .reset [(R.ngtStatus, F.ngtStatus_STATE, st), (R.ngtStatus, F.ngtStatus_DOMAIN_A, a), (R.ngtStatus, F.ngtStatus_DOMAIN_B, b),
    (R.ngtRole, F.ngtRole_PARENT_A, 7), (R.ngtRole, F.ngtRole_AUTO_SWITCH, 0)]

theorem witness_TimeStates :
    let s := timed ngtLocked 2 2
    let h : State := { timed ngtHold 1 1 with ngt := { eLast := 2 ^ 40 } }
    let a : State := { setAll h [(R.ngtPeriod, F.ngtPeriod_N, 16), (R.ngtPeriod, F.ngtPeriod_VALID, 1)] with prog := { st := .running } }
    let p := setAll (timed ngtMaster 5 2) [(R.ngtRole, F.ngtRole_MASTER_A, 1), (R.ngtRole, F.ngtRole_PPS_A_USE, 1),
      (R.ngtServoCtl, F.ngtServoCtl_FREEZE, 1)]
    (timed ngtLocked 1 2).domState false ≠ 2 ∧ (∀ b, s.domState b = 2) ∧
    (∀ b, ¬(s.parentOf b < 8 ∧ s.portUp (s.parentOf b) = true)) ∧ s.activeB = false ∧ s.ngtState = ngtLocked ∧
    s.fget R.ngtServoCtl F.ngtServoCtl_FREEZE = 0 ∧ s.masterOf true = false ∧ s.fget R.ngtRole F.ngtRole_AUTO_SWITCH = 0 ∧
    (let m := setAll (timed ngtHold 2 2) [(R.ngtRole, F.ngtRole_MASTER_B, 1)]
     m.domState false = 2 ∧ m.masterOf true = true ∧ m.ngtState ≠ ngtLost ∧ m.ngtState ≠ ngtFree ∧
       m.fget R.ngtServoCtl F.ngtServoCtl_FREEZE = 0 ∧ ¬(m.parentOf false < 8 ∧ m.portUp (m.parentOf false) = true)) ∧
    (timed ngtLocked 2 1).domState true ≠ 2 ∧ s.ngt.switchReq = false ∧ (setAll h [(R.ngtServoCtl, F.ngtServoCtl_FREEZE, 1)]).fget
      R.ngtServoCtl F.ngtServoCtl_FREEZE = 1 ∧
    s.ngtState ≠ ngtHold ∧ h.ngtState = ngtHold ∧
    h.ngt.eLast.natAbs * 1000 > h.fget R.ngtHoldover F.ngtHoldover_BUDGET_PS * 65536 ∧ h.armed = false ∧ a.armed = true ∧
    a.valid = true ∧ a.ngtState = ngtHold ∧ a.ras.queue.length < 224 ∧ State.reset.ngtState = ngtFree ∧ s.ngtState ≠ ngtMaster ∧
    s.ngtState ≠ ngtFree ∧ s.ppsUse false = false ∧ p.ppsUse false = true ∧ p.fget R.ngtServoCtl F.ngtServoCtl_FREEZE = 1 ∧
    p.fget R.ngtPpsCtl F.ngtPpsCtl_EDGE ≠ 1 ∧
    (let k : State := { p with ngt := { p.ngt with ppsA := { since := some 0 } } }
     let due := 0 + (2 * 10 ^ 9) <<< 48
     (k.ngt.pps false).since = some 0 ∧ k.ppsUse false = true ∧ (k.ngt.pps false).lost = false ∧ due ≤ (k.reach due).ngt.now ∧
       (setAll k [(R.ngtRole, F.ngtRole_PPS_A_USE, 0)]).ppsUse false = false ∧ k.ras.queue.length < 224) := by decide +kernel

theorem witness_TriggersCapturesAndPtm :
    let s := setAll (State.reset.setReg (R.ngtTrigNTime 3) 100) [(R.ngtTrigNCtl 3, F.ngtTrigNCtl_MODE, 1),
      (R.ngtCaptNCtl 3, F.ngtCaptNCtl_EDGE, 1), (R.ngtPtmCtl, F.ngtPtmCtl_PERIOD_MS, 5)]
    let late : State := { s with ngt := { s.ngt with now := 101 <<< 48 + 1 } }
    s.trigMode 3 = 1 ∧ (s.trig 3).spent = false ∧ s.ngt.now ≤ (100 + 1) <<< 48 ∧ 100 <<< 48 ≤ (s.reach (100 <<< 48)).ngt.now ∧
    (s.reg (R.ngtTrigNTime 3)).toNat = 100 ∧ (100 + 1) <<< 48 < late.ngt.now ∧ s.ras.queue.length < 224 ∧
    (s.trig 3).pulseEnd = none ∧ s.trigMode 2 ≠ 2 ∧
    (let z := s.setTrig 3 { pulseEnd := some 5 }
     (z.trig 3).pulseEnd = some 5 ∧ 5 ≤ (z.reach 5).ngt.now ∧ (z.trig 3).pend = []) ∧
    (∀ m ∈ [0, 1, 2, 3], let v := BitVec.ofNat 64 (m + 10 * 2 ^ 16 + 11 * 2 ^ 32)
      field v.toNat 0 3 = m ∧ ¬(m = 2 ∧ field v.toNat 32 32 ≤ field v.toNat 16 16) ∧ ¬(m ≠ 0 ∧ field v.toNat 16 16 = 0)) ∧
    (let v := BitVec.ofNat 64 (2 + 10 * 2 ^ 16 + 10 * 2 ^ 32)
     field v.toNat 0 3 = 2 ∧ field v.toNat 32 32 ≤ field v.toNat 16 16) ∧
    (let sel := bit (s.fget (R.ngtCaptNCtl 3) F.ngtCaptNCtl_EDGE)
     sel 0 = true ∧ sel 1 = false) ∧
    (s.capt 3).fifo.length < 16 ∧ 16 ≤ (List.replicate 16 ({ stamp := 0, rising := true, seq := 0 } : CaptEntry)).length ∧
    s.fget R.ngtPtmCtl F.ngtPtmCtl_PERIOD_MS ≠ 0 ∧ s.stw.pcie.ptmOn = false ∧ s.ngt.ptmSent = none ∧
    (let z : State := { s with stw := { s.stw with pcie := { s.stw.pcie with ptmOn := true, mse := true } }
                               ngt := { s.ngt with ptmLast := some 0, ptmSent := some 7, ptmPrev := some (1, 2) } }
     let due := 0 + (5 * 10 ^ 6) <<< 48
     z.stw.pcie.ptmOn = true ∧ z.ngt.ptmLast = some 0 ∧ due ≤ (z.reach due).ngt.now ∧ z.ngt.ptmSent = some 7 ∧
       z.ngt.ptmPrev = some (1, 2) ∧ z.stw.pcie.mse = true) := by decide +kernel

/-! ## Topology, energy, faults -/

/-- A message in the steward's receive queue. -/
def heard (body : List Byte) (s : State) : State :=
  { s with svc := { s.svc with stwRx := [{ unit := 0x400, src := 0x400, stream := 0, seq := 0, body := body }] } }
/-- What firmware takes of a kind satisfies `q`. -/
def takes (s : State) (k : Nat) (q : RxMsg → State → Bool) : Bool :=
  match s.takeKind k with
  | some (m, z) => q m z
  | none => false
/-- A program in state `st` with meridians of 4,096 ns. -/
def programmed (st : ProgState) : State :=
  { setAll .reset [(R.ngtPeriod, F.ngtPeriod_N, 16), (R.ngtPeriod, F.ngtPeriod_VALID, 1)] with
    prog := { st := st, startAt := if st = .starting then 9 else 0, startPend := decide (st = .starting) } }
/-- A body of a detour message of kind `k` for switch transit `s`. -/
def detourMsg (k s : Nat) : List Byte := leBytes 19 k ++ leBytes 6 s ++ List.replicate 7 0
/-- An almanac with a link from port 0 of coordinate 0. -/
def almanac : Almanac :=
  { twisted := false, switchSym := false, id := 1, seq := 1, vcCount := 4, detourLead := 4, controlBoundNs := 0, devices := [], flats := [],
    racks := [], links := [{ end0 := 0, port0 := 0, kind := 0, end1 := 2 ^ 15, port1 := 1, asym := 0, budget0 := 0, budget1 := 0 }] }

/-- A running program with one variant, for the loss of port 0 of this device, and of port 1. -/
def detourable : State :=
  let p := programmed .running
  { p with
    prog := { p.prog with hdr := { p.prog.hdr with variants := 2 },
                          secs := [{ typ := 0x10, inst := 0, variant := 1, count := 1, data := List.replicate 8 0 ++ [9] ++ List.replicate 7 0 },
                                   { typ := 0x10, inst := 0, variant := 2, count := 1, data := [0, 0, 0, 0, 1, 0, 0, 0, 9] ++ List.replicate 7 0 }] }
    top := { active := some { almanac with devices := [{ coord := 0, role := 1, time := 0, parents := 0, identity := [] },
                                                       { coord := 5, role := 1, time := 0, parents := 0, identity := [] }] },
             downs := [(0, 0, 0)] } }

theorem witness_DetourProposal :
    let s : State := { detourable with ngt := { now := 8192 <<< 48 } }
    let a := s.top.active.getD almanac
    let far := (a.farEnd s.coord 0).getD (0, 0)
    let at' := s.transit + a.detourLead
    let new : Detour := { end0 := s.coord, port0 := 0, end1 := far.1, port1 := far.2, variant := 1, tf := 0, s := at',
                          pid := s.prog.hdr.programId % 2 ^ 32, proposer := true }
    let w : State := { s with prog := { s.prog with detour := some { new with s := s.transit + 2, accepts := [s.coord] } } }
    s.valid = true ∧ at' < 2 ^ 48 ∧ s.fabOn 7 = true ∧ s.prog.detour = none ∧
    s.top.downs.find? (fun x => decide (x.2.2 + 2 ≤ s.transit)) = some (0, 0, 0) ∧ s.variantFor s.prog.secs 0 = some 1 ∧
    s.running = true ∧ s.prog.variant ≠ 1 ∧ s.detourBar new = none ∧ s.footprint = [5] ∧
    w.prog.detour = some { new with s := s.transit + 2, accepts := [s.coord] } ∧ s.transit < s.transit + 2 ∧
    (5 ∈ w.footprint ∧ 5 ∉ [s.coord]) ∧ w.detourDrop.detourBar new = none ∧
    (∀ x ∈ ({ detourable with ngt := { now := 0 } } : State).top.downs, detourable.transit < x.2.2 + 2) ∧
    (let v : State := { detourable with prog := { detourable.prog with variant := 1 } }
     takes (heard [8, 1, 4, 0, 0, 0, 0, 0] { v with top := { v.top with active := none } }) 8 (fun m z => z.top.active.isNone &&
       leAt m.body 2 1 == 4 && z.valid) = true ∧ v.secondLink 0 1 = true) := by decide +kernel

theorem witness_TopologyMessages :
    let p := programmed .running
    let d : Detour := { detourOf (detourMsg 5 4) with proposer := true }
    let s : State := { p with top := { deadline := some 9, active := some almanac, downs := [(0, 0, 0)] } }
    let late : State := { s with ngt := { now := 9 } }
    let w : State := { p with prog := { p.prog with detour := some d } }
    let start := programmed .starting
    let armed (b : List Byte) := takes (heard b start) 3 fun m z => !z.top.floods.contains (leAt m.body 1 8, leAt m.body 9 6) &&
      leAt m.body 1 8 == z.prog.hdr.programId && z.prog.startAt == leAt m.body 9 6 && z.prog.startPend && z.prog.st == .starting &&
      decide (z.transit < leAt m.body 9 6) && z.fget R.clkRetune F.clkRetune_PENDING == 0 && decide (z.ras.queue.length < 224)
    (late.reach 9).ngt.now = 9 ∧ (almanac.farEnd s.coord 0).isSome = true ∧ s.matched 0 = false ∧ (s.reach 9).ngt.now = 9 ∧
    p.top.deadline = none ∧ p.prog.detour = none ∧ p.top.downs = [] ∧ State.reset.running = false ∧
    0 + 2 ≤ ({ p with ngt := { now := 8192 <<< 48 } } : State).transit ∧
    takes (heard (detourMsg 4 3) p) 4 (fun m z => z.detourBar (detourOf m.body) == some 1) = true ∧
    takes (heard (detourMsg 4 4) p) 4 (fun m z => (z.detourBar (detourOf m.body)).isNone && z.valid && z.fabOn 0) = true ∧
    (∀ k ∈ [5, 6, 7], takes (heard (detourMsg k 4) w) k (fun m z => z.prog.detour == some d && d.proposer && d.s == leAt m.body 19 6 &&
      d.variant == leAt m.body 11 2 && d.pid == leAt m.body 25 4) = true) ∧
    armed (leBytes 9 3 ++ leBytes 6 9 ++ [0]) = true ∧
    takes (heard (leBytes 9 3 ++ leBytes 7 8) start) 3 (fun m z => !z.top.floods.contains (leAt m.body 1 8, leAt m.body 9 6) &&
      z.prog.startAt != leAt m.body 9 6) = true ∧
    takes (heard (leBytes 9 3 ++ leBytes 7 8) { start with top := { floods := [(0, 8)] } }) 3 (fun m z =>
      z.top.floods.contains (leAt m.body 1 8, leAt m.body 9 6)) = true ∧
    takes (heard [8, 0, 2, 1, 0, 0, 0, 0] p) 8 (fun _ z => z.top.active.isNone) = true ∧
    (∀ b ∈ [0, 1], takes (heard ([0x0B, b] ++ List.replicate 22 0) p) 0x0B (fun m z => leAt m.body 2 8 == z.prog.hdr.programId &&
      z.prog.st == .running && z.valid && z.prog.done.isEmpty && leAt m.body 1 1 == b.toNat) = true) ∧
    (∀ b ∈ [false, true], takes (heard ([0x0B, 0, 1] ++ List.replicate 21 0) { p with prog := { p.prog with flooded := if b then [(1, 0)] else [] } })
      0x0B (fun m z => leAt m.body 2 8 != z.prog.hdr.programId &&
        z.prog.flooded.contains (leAt m.body 2 8, leAt m.body 10 6) == b) = true) := by
  decide +kernel

theorem witness_MeridianStep :
    let s := programmed .running
    let stop : State := { s with prog := { s.prog with stopAt := some 1 } }
    let flip := setAll s [(R.fabEpoch, F.fabEpoch_PENDING, 1), (R.fabEpoch, F.fabEpoch_AT_TRANSIT, 1)]
    let tune := setAll (programmed .none) [(R.clkRetune, F.clkRetune_PENDING, 1), (R.clkRetune, F.clkRetune_AT_TRANSIT, 1)]
    State.reset.nextMeridian = none ∧ s.nextMeridian = some (4096 <<< 48) ∧ s.enr.failed = false ∧ stop.prog.stopAt = some 1 ∧
    1 ≤ stop.transit + 1 ∧ stop.armed = true ∧ flip.fget R.fabEpoch F.fabEpoch_PENDING = 1 ∧
    flip.fget R.fabEpoch F.fabEpoch_AT_TRANSIT ≤ flip.transit + 1 ∧ flip.prog.stopAt = none ∧
    tune.fget R.clkRetune F.clkRetune_PENDING = 1 ∧ tune.fget R.clkRetune F.clkRetune_AT_TRANSIT ≤ tune.transit + 1 ∧
    tune.prog.st = .none ∧ tune.enr.hot = false ∧ tune.nextMeridian = some (4096 <<< 48) := by decide +kernel

/-- Temperatures, all `t`. -/
def temps (t : Int) : Temps :=
  { districts := List.replicate 32 t, ports := List.replicate 8 t, steward := t, hbmStacks := List.replicate 8 t }

theorem witness_EnergyAndTemperature :
    let s := State.reset
    let cool : State := { s.fset R.pwrTherm F.pwrTherm_CAP 20 with enr := { coolSince := some 0 } }
    s.valid = false ∧ s.enr.failed = false ∧ (programmed .running).valid = true ∧ hottest (junctions (temps 20)) < 115 ∧
    (hottest (junctions (temps 20)) : Int) < s.fget R.pwrThermCtl F.pwrThermCtl_LIMIT_C ∧ 115 ≤ hottest (junctions (temps 115)) ∧
    s.pins.thermtrip = false ∧ s.ras.queue.length < 200 ∧ s.enr.coolSince = none ∧
    (let due := 0 + (10 ^ 9) <<< 48
     due ≤ (cool.reach due).ngt.now ∧ ((programmed .running).reach due).ngt.now < due) ∧ cool.enr.capHold = false ∧
    cool.fget R.pwrTherm F.pwrTherm_CAP < 42 := by decide +kernel

theorem witness_PowerFailure :
    let s := State.reset
    let f : State := { s with enr := { failed := true } }
    (10 : Fin 11).val = 10 ∧ (9 : Fin 11).val ≠ 10 ∧ s.enr.readySeen = false ∧
    s.enr.failed = false ∧ s.ras.queue.length < 200 ∧ f.enr.failed = true ∧ f.enr.saved = false ∧
    ({ f with enr := { failed := true, saved := true } } : State).enr.saved = true ∧ (s.link 0).st ≠ .disabled ∧
    ({ s with enr := { readySeen := true } } : State).enr.readySeen = true ∧ s.enr.save.st ≠ 2 ∧
    (∀ k ∈ [0, 1, 2], ({ f with enr := { failed := true, save := { st := k } } } : State).enr.save.st = k) := by decide +kernel

theorem witness_FaultQueueAndRepair :
    let r : FaultRec := { code := 1, cls := 1, loss := false, district := 0, slot := 0, ptile := 0, ltile := 0, bundle := 0, ngt := 0,
                          transit := 0, detail := 0 }
    let s : State := { setAll .reset [(R.devStatus, F.devStatus_STATE, 2)] with ras := { queue := [r] } }
    let q := setAll s [(R.rasCapoDPend 31, F.rasCapoDPend_VALID, 1)]
    let scrub := setAll State.reset [(R.rasScrubCtl, F.rasScrubCtl_PERIOD_S, 60)]
    let e (b : Bool) : SramErr := { array := 0, unit := 543, bank := 0, row := 0, word := 0, bad := b }
    let bad : State := { State.reset with ras := { rows := [{ array := 0, unit := 543, bank := 0, row := 0, ue := true }] } }
    let used : State := { State.reset with ras := { rows := [{ array := 0, unit := 543, bank := 0, row := 0, ue := true, moved := 2 }] } }
    let due : State := { setAll (programmed .none) [(R.rasCtl, F.rasCtl_AUTO_RETIRE, 1)] with ras := { due := [16] } }
    State.reset.ras.due = [] ∧ due.ras.queue = [] ∧ due.ras.due = [16] ∧ due.valid = true ∧
    due.fget R.rasCtl F.rasCtl_AUTO_RETIRE = 1 ∧ due.fget (R.rasCapoDPend 0) F.rasCapoDPend_VALID = 0 ∧
    (match due.retireWhen 0 16 0 with | .ok (some t) => t == 1 | _ => false) = true ∧
    State.reset.ras.queue = [] ∧ s.ras.queue = [r] ∧ s.ras.due = [] ∧ 2 ≤ s.fget R.devStatus F.devStatus_STATE ∧ s.ras.log.length < logSize ∧
    s.fget (R.rasCapoDPend 31) F.rasCapoDPend_VALID = 0 ∧ q.fget (R.rasCapoDPend 31) F.rasCapoDPend_VALID = 1 ∧
    field (16 : Word).toNat 0 5 ≤ 16 ∧ 16 < field (17 : Word).toNat 0 5 ∧
    (setAll scrub [(R.rasScrubCtl, F.rasScrubCtl_PERIOD_S, 0)]).fget R.rasScrubCtl F.rasScrubCtl_PERIOD_S = 0 ∧
    scrub.fget R.rasScrubCtl F.rasScrubCtl_PERIOD_S ≠ 0 ∧ scrub.ras.queue.length < 200 ∧ (e true).bad = true ∧ (e true).array = 0 ∧
    shas (scrub.tile 543).storePoison (sramByte (e true) / 8) = false ∧ (e false).bad = false ∧
    (bad.sramRow (e true)).ue = true ∧ bad.sparesUsed (e true) < 2 ∧ bad.ras.queue.length < 200 ∧ 2 ≤ used.sparesUsed (e true) ∧
    (State.reset.sramRow (e true)).ue = false ∧
    ¬ State.reset.fget R.rasCtl F.rasCtl_CE_ROW_THRESH ≤ (State.reset.sramRow (e true)).ces.length := by decide +kernel

/-! ## Service plane -/

/-- A service header: operation, unit of this device, SRC the steward of this device, one hop taken, next entry `e`. -/
def svcHdr (op unit e rest : Nat) : Nat :=
  (SH.planeOf op).getD 0 + 1 * 2 ^ 8 + op * 2 ^ 16 + e * 2 ^ 36 + unit * 2 ^ 96 + 0x400 * 2 ^ 128 + rest
/-- The packet, its HCRC written. -/
def svcOf (op unit e rest : Nat) (body : List Byte) : SvcPkt := { flit := BitVec.ofNat 512 (sealed (svcHdr op unit e rest)), body := body }
/-- Ports 0 and 1 UP and open, HBM ready, context 0 open both ways with a window of 64, and a route through port 0; a
packet has come in on port 0. -/
def served (pk : List SvcPkt) : State :=
  let s := setAll .reset ([(R.svcSctxNRx 0, F.svcSctxNRx_RX_WINDOW, 64), (R.svcSctxNRxbuf 0, F.svcSctxNRxbuf_LIMIT_64K, 1)] ++
    (List.range 8).map fun h => (R.hbmStatus h, F.hbmStatus_STATE, 2))
  ((s.setLink 0 { upLink with rxSvc := pk }).setLink 1 upLink).setCtx 0 { tx := .opened, window := 64, rxOn := true, granted := 64 }

theorem witness_ServiceStreams :
    let s := served []
    let r : SendReq := { op := 5 }
    let f := (s.reqPkt 0 r).flit.toNat
    let c := s.ctx 0
    let bad := served [svcOf 5 0x400 0 0 []]
    let fwd := served [svcOf 5 0x400 1 0 []]
    let h : SvcHeld := { pkt := svcOf 5 0x400 1 0 [], since := 0, src := 8 }
    let held := { s with svc := { s.svc with txq := [(0, [h])] } }
    let due := h.since + (s.fget R.svcCtl F.svcCtl_MAX_RESIDENCE_US * 1000) <<< 48 + 1
    (SH.planeOf r.op).isSome = true ∧ SH.isRsp f = false ∧ (State.reset.ctx 0).tx = .off ∧ s.resolve (SH.dest f) = some 0 ∧
    c.tx = .opened ∧ c.waiting = [] ∧ c.outstanding + costOf f ≤ c.window ∧ (c.next + 2 ^ 16 - c.base) % 2 ^ 16 < 64 ∧
    s.pickRoute 0 = some (0, 0) ∧ heldFlits (s.outQ 0) (fun g => !SH.isRsp g) + SH.flits f ≤ 65536 ∧
    (let g := (s.reqPkt 0 { op := 0x82 }).flit.toNat
     (SH.planeOf 0x82).isSome = true ∧ SH.isRsp g = true ∧ s.resolve (SH.dest g) = some 0 ∧
       heldFlits (s.outQ 0) SH.isRsp + SH.flits g ≤ 65536) ∧
    64 < ({ c with outstanding := 64 } : Sctx).outstanding + costOf f ∧ ({ c with creditDue := some 5 } : Sctx).creditDue = some 5 ∧
    c.creditDue = none ∧ 5 ≤ (s.reach 5).ngt.now ∧ c.flight = [] ∧ s.svc.awaits = [] ∧
    (let x : InSeq := { seq := 0, cost := 2, owner := .steward, tag := 5 }
     let w := s.setCtx 0 { c with flight := [x] }
     (w.ctx 0).flight ≠ [] ∧ w.svc.awaits = [] ∧
       (w.ctx 0).baseSince + w.streamTimeout ≤ (w.reach ((w.ctx 0).baseSince + w.streamTimeout)).ngt.now) ∧
    (let a : Await := { tag := 5, seq := 0, land := 0, stream := 0, owner := .steward, addr := 0, len := 64, load := true, issued := 0 }
     let w : State := { s with svc := { s.svc with awaits := [a] } }
     w.svc.awaits.filter (fun x => x.stream == 0) = [a] ∧ a.issued + w.streamTimeout ≤ (w.reach (a.issued + w.streamTimeout)).ngt.now) ∧
    (let k : SvcPkt := { svcOf 4 0x400 8 (1 * 2 ^ 240) (List.replicate 64 7) with stomped := true }
     (served [k]).svcMalformed 0 k = false ∧ svcEntry k.flit.toNat = 8 ∧ k.stomped = true) ∧
    s.outQ 0 = [] ∧ held.outQ 0 = [h] ∧
    due ≤ (held.reach due).ngt.now ∧ ((programmed .running).reach (2 ^ 90)).ngt.now < 2 ^ 90 ∧ s.ras.queue.length < 224 ∧
    (s.link 0).rxSvc = [] ∧ bad.svcMalformed 0 (svcOf 5 0x400 0 0 []) = true ∧ fwd.svcMalformed 0 (svcOf 5 0x400 1 0 []) = false ∧
    svcEntry (svcOf 5 0x400 1 0 []).flit.toNat = 1 ∧ fwd.svcTakes 1 = true ∧ (svcOf 5 0x400 1 0 []).flit.toNat % 4 = 1 ∧
    heldFlits (fwd.outQ 1) (fun g => SH.isRsp g == SH.isRsp (svcOf 5 0x400 1 0 []).flit.toNat) + 1 ≤ 65536 ∧
    (∀ b : Bool, (BitVec.ofNat 64 (b2n b * 8 + 64 * 2 ^ 48)).getLsbD 3 = b ∧ field (BitVec.ofNat 64 (b2n b * 8 + 64 * 2 ^ 48)).toNat 48 16 = 64) ∧
    c.held = 0 ∧ c.outstanding = 0 ∧ ({ c with held := 1 } : Sctx).held ≠ 0 ∧
    (let v : Word := BitVec.ofNat 64 (2 ^ 60 + 2 ^ 58)
     v.getLsbD 60 = true ∧ v.getLsbD 58 = true ∧ field v.toNat 32 26 = 0 ∧ s.fget (R.svcCcntN 4095) F.svcCcntN_COUNT ≤ 0 ∧
       0 < (s.fset (R.svcCcntN 4095) F.svcCcntN_COUNT 1).fget (R.svcCcntN 4095) F.svcCcntN_COUNT ∧
       s.ccntBroken 4095 = none ∧ tget 0 s.svc.puts 4095 = s.fget (R.svcCcntN 4095) F.svcCcntN_COUNT ∧
       tget 0 ({ s with svc := { s.svc with puts := [(4095, 1)] } } : State).svc.puts 4095 = 1 ∧ s.prog.st = .none) ∧
    (0 : Word).getLsbD 60 = false := by decide +kernel

/-- What a port takes of an operation satisfies `q`. -/
def taken (s : State) (op : Nat) (q : Nat → List Byte → State → Bool) : Bool :=
  match s.takeOp 0 op with
  | some (pk, z) => q pk.flit.toNat pk.body z
  | none => false
/-- The premises of `State.takes` and `State.answerable` as a test. -/
def accepts (z : State) (f : Nat) : Bool :=
  let c := z.ctx (SH.stream f)
  decide (0 ≤ seqDist (SH.sseq f) c.rxBase) && decide (seqDist (SH.sseq f) c.rxBase < 64) && c.rxMap.all (fun r => r.seq != SH.sseq f) &&
    decide (c.held + costOf f ≤ c.granted) && decide (4 * (((c.rxReleased + costOf f) % 2 ^ 32 + 2 ^ 32 - c.credited) % 2 ^ 32) <
      z.fget (R.svcSctxNRx (SH.stream f)) F.svcSctxNRx_RX_WINDOW) && decide (backRoute f % 16 < 8) && z.svcTakes (backRoute f % 16) &&
    decide (heldFlits (z.outQ (backRoute f % 16)) SH.isRsp + 64 ≤ 65536)

theorem takes_of (z : State) (f : Nat) (h : accepts z f = true) : z.takes f ∧ z.answerable f := by
  simp only [accepts, Bool.and_eq_true, decide_eq_true_eq, List.all_eq_true, bne_iff_ne] at h
  obtain ⟨⟨⟨⟨⟨⟨⟨h1, h2⟩, h3⟩, h4⟩, h5⟩, h6⟩, h7⟩, h8⟩ := h
  exact ⟨⟨h1, h2, h3, h4, h5⟩, h6, h7, h8⟩

/-- Packets of each operation: LOAD of 64 bytes at 0, STORE of a flit at 0, ATOMIC add at 8, PUT of a flit at offset 0, MSG of 4
bytes, and the responses with TAG 5. -/
def load (len : Nat) : SvcPkt := svcOf 1 0x300 8 ((len * 2 ^ 48) * 2 ^ 192) []
def store (addr : Nat) : SvcPkt := svcOf 2 0x300 8 (addr * 2 ^ 192 + 1 * 2 ^ 240) (List.replicate 64 7)
def atomic (addr : Nat) : SvcPkt := svcOf 3 0x300 8 ((addr + 1 * 2 ^ 48 + 5 * 2 ^ 64) * 2 ^ 192) []
def putAt (addr : Nat) : SvcPkt := svcOf 4 0x400 8 (addr * 2 ^ 192 + 1 * 2 ^ 240) (List.replicate 64 7)
def message : SvcPkt := svcOf 5 0x400 8 (4 * 2 ^ 192) []
def responses : List (Nat × SvcPkt) :=
  [(0x81, svcOf 0x81 0x400 8 (1 * 2 ^ 240 + 5 * 2 ^ 352) (List.replicate 64 7)), (0x82, svcOf 0x82 0x400 8 (5 * 2 ^ 192) []),
   (0x83, svcOf 0x83 0x400 8 (5 * 2 ^ 192) [])]

/-- An awaited response with TAG 5 on stream 0. -/
def await (o : Owner) (load : Bool) : Await :=
  { tag := 5, seq := 0, land := 0, stream := 0, owner := o, addr := 0, len := 64, load := load, issued := 0 }
/-- A device that awaits it, with packet `k` at port 0. -/
def awaiting (o : Owner) (load : Bool) (k : SvcPkt) : State :=
  let s := served [k]
  { s with svc := { s.svc with awaits := [await o load] } }
/-- LOAD_DATA with TAG 5 and status `st` to DMA channel 7, and to the MQE of district 0. -/
def dmaRsp (st : Nat) : SvcPkt := svcOf 0x81 0x417 8 (st * 2 ^ 24 + 1 * 2 ^ 240 + 5 * 2 ^ 352) (List.replicate 64 7)
def mqeRsp (st : Nat) : SvcPkt := svcOf 0x81 0x200 8 (st * 2 ^ 24 + 1 * 2 ^ 240 + 5 * 2 ^ 352) (List.replicate 64 7)

theorem witness_RemoteMemory :
    (∀ op ∈ [1, 2, 3, 4, 5, 0x81, 0x82, 0x83, 0x90, 0x91, 0x92, 0x93], ((served []).takeOp 0 op).isNone = true) ∧
    (∀ x ∈ [(1, load 64), (2, store 0), (3, atomic 8)],
      taken ((served [x.2]).setCtx 0 { rxMap := [{ seq := 0, cost := 1, released := true }] }) x.1 (fun f _ z =>
        (z.ctx (SH.stream f)).rxMap.any (·.seq == SH.sseq f)) = true) ∧
    (∀ x ∈ [(64, 0), (1024, 0), (0, 1), (2048, 1)], taken (served [load x.1]) 1 (fun f _ z => accepts z f &&
      z.accessStatus f (field (SH.ctl f) 0 48) (field (SH.ctl f) 48 16) false == x.2) = true) ∧
    (∀ x ∈ [(0, 0), (960, 0), (2 ^ 40, 1)], taken (served [store x.1]) 2 (fun f b z => accepts z f &&
      z.accessStatus f (SH.addr f) (64 * SH.len f) false == x.2 && b.length == 64 * SH.len f) = true) ∧
    (∀ x ∈ [(0, 0), (1016, 0), (4, 4)], taken (served [atomic x.1]) 3 (fun f _ z => accepts z f &&
      z.accessStatus f (field (SH.ctl f) 0 48) 8 true == x.2 && !z.hbmBad (field (SH.ctl f) 0 48) 8 &&
      (atomicNew (field (SH.ctl f) 48 8) 0 (field (SH.ctl f) 64 64) (field (SH.ctl f) 128 64)).isSome) = true) ∧
    (∀ x ∈ [(0, true), (65472, true), (65536, false)], taken (served [putAt x.1]) 4 (fun f b z => accepts z f &&
      unitOf (SH.dest f) == 0x400 && SH.addr f % 64 == 0 && (decide (SH.addr f + 64 * SH.len f ≤ 65536) == x.2) &&
      65536 * z.fget (R.svcSctxNRxbuf (SH.stream f)) F.svcSctxNRxbuf_LIMIT_64K == 65536 && b.length == 64 * SH.len f && !SH.last f &&
      z.fget (R.svcSctxNRxbuf (SH.stream f)) F.svcSctxNRxbuf_BASE == 0 && z.fget (R.svcCcntN (SH.xfer f)) F.svcCcntN_TOTAL_SET == 0 &&
      z.fget (R.svcCcntN (SH.xfer f)) F.svcCcntN_STATE != 2 &&
      tget 0 z.svc.puts (SH.xfer f) == z.fget (R.svcCcntN (SH.xfer f)) F.svcCcntN_COUNT) = true) ∧
    taken (served [message]) 5 (fun f _ z => accepts z f && unitOf (SH.dest f) == 0x400) = true ∧
    (∀ x ∈ responses, taken (served [x.2]) x.1 (fun f _ z => rspUnit (unitOf (SH.dest f)) && z.svc.awaits.isEmpty &&
      (z.awaited f 5).isNone && (if x.1 = 0x81 then SH.tag f else field (SH.ctl f) 0 32) == 5 && SH.status f == 0) = true) ∧
    ((served []).sec.fetches = []) ∧
    (∀ x ∈ responses, ∀ load : Bool, taken (awaiting .steward load x.2) x.1 (fun f _ z => z.awaited f 5 == some (await .steward load)) = true) ∧
    (∀ load : Bool, taken (awaiting (.dma 7) load (dmaRsp 0)) 0x81 (fun f b z => rspUnit (unitOf (SH.dest f)) &&
      z.awaited f 5 == some (await (.dma 7) load) && SH.status f == 0 && b.length == 64) = true) ∧
    taken (awaiting (.dma 7) true (dmaRsp 4)) 0x81 (fun f _ z => (z.awaited f 5).isSome && SH.status f == 4) = true ∧
    (∀ st ∈ [0, 4], taken ({ awaiting (.mqe 0 1) true (mqeRsp st) with mqes := [(0, { ops := [opLoad] })] }) 0x81 (fun f _ z =>
      rspUnit (unitOf (SH.dest f)) && z.awaited f 5 == some (await (.mqe 0 1) true) && (z.findOp 0 1).isSome && SH.status f == st) = true) := by
  decide +kernel

theorem witness_StreamRecovery :
    (served []).svc.closing = [] ∧ (served []).sec.fetches = [] ∧
    (∀ op ∈ [0x90, 0x91, 0x92, 0x93], taken (served [svcOf op 0x400 8 0 []]) op (fun f _ z =>
      z.ctlUnit (unitOf (SH.dest f)) (SH.stream f) &&
      (let c := z.ctx (SH.stream f)
       c.waiting.isEmpty && c.tx == .opened && c.granted == 64 && field (SH.ctl f) 64 64 == 0 && field (SH.ctl f) 32 16 == 0 &&
         c.flight.isEmpty && decide ((field (SH.ctl f) 0 32 + 2 ^ 32 - c.released) % 2 ^ 32 ≤ c.outstanding))) = true) ∧
    taken (served [svcOf 0x92 0x400 8 0 []]) 0x92 (fun f _ z => decide (backRoute f % 16 < 8) && z.svcTakes (backRoute f % 16) &&
      decide (heldFlits (z.outQ (backRoute f % 16)) SH.isRsp + 64 ≤ 65536)) = true ∧
    taken (served [svcOf 0x90 0x400 8 (1 * 2 ^ 192) []]) 0x90 (fun f _ z => decide ((z.ctx (SH.stream f)).outstanding <
      (field (SH.ctl f) 0 32 + 2 ^ 32 - (z.ctx (SH.stream f)).released) % 2 ^ 32) && decide (z.ras.queue.length < 224)) = true ∧
    taken (served [svcOf 0x91 0x400 8 (64 * 2 ^ 224) []]) 0x91 (fun f _ _ => field (SH.ctl f) 32 16 != 0) = true ∧
    taken ((served [svcOf 0x91 0x400 8 0 []]).setCtx 0 {}) 0x91 (fun f _ z => (z.ctx (SH.stream f)).tx == .off) = true ∧
    taken ((served [svcOf 0x92 0x400 8 0 []]).setCtx 0 {}) 0x92 (fun f _ z => (z.ctx (SH.stream f)).granted == 0) = true := by decide +kernel

/-! ## Mailboxes, endpoint, resets -/

/-- Channel 63 bound to HOST as initiator and core 0 as responder, BMC and core 0 on channel 62, the table sealed; channel 63
in state `st` with a message of length `len`. -/
def bound (st len : Nat) (taken : Bool) : State :=
  (((State.reset.setReg (R.mbxBindN 63) (bindWord 1 2 1)).setReg (R.mbxBindN 62) (bindWord 4 2 0)).fset R.mbxSeal F.mbxSeal_SEAL 1).setChan 63
    { st := st, taken := taken, area := Mem.wrBytes [] 0 (leBytes 2 len) }

theorem witness_MailboxChannels :
    let s := bound 0 4032 false
    let w : State := { s with stw := { s.stw with winSel := [(idKey .host, 63), (idKey .stw0, 63)] } }
    let open' := State.reset
    s.sideOf .dbg 63 = none ∧ s.sideOf .host 63 = some false ∧ s.sideOf .stw0 63 = some true ∧ s.mayAct .host = true ∧
    s.mayAct .stw0 = true ∧ (∀ st ∈ [0, 1, 2], ((bound st 4032 false).chan 63).st = st ∧ ((bound st 4032 false).chan 63).length ≤ 4032) ∧
    (∀ st ∈ [0, 1, 2], (({ st := st, sends := b2n (st ≠ 0) } : Chan)).broken = none) ∧ 4032 < ((bound 0 4033 false).chan 63).length ∧ ((bound 1 0 false).chan 63).taken = false ∧ ((bound 1 0 true).chan 63).taken = true ∧
    (∀ o ∈ [4, 15], ∃ v ∈ [(0xFFFFFFFF : BitVec 32)], v.getLsbD (halfBit true o) = true ∧ v.getLsbD (halfBit false o) = true) ∧
    (∀ i ∈ [Ident.host, .stw0], tget 0 w.stw.winSel (idKey i) = 63) ∧ (4095 : BitVec 12).toNat + 1 ≤ 4096 ∧
    isCore .host = false ∧ s.sealed = true ∧ isCore .stw1 = true ∧ open'.sealed = false ∧
    (bindWord 1 2 1).getLsbD 63 = true ∧ bindOk (bindWord 1 2 1).toNat = true ∧ (bindWord 1 4 1).getLsbD 63 = true ∧
    pairOk (field (bindWord 1 4 1).toNat 0 3) (field (bindWord 1 4 1).toNat 8 3) = false ∧
    field (bindWord 1 4 1).toNat 0 3 % 7 ≠ 0 ∧ field (bindWord 1 4 1).toNat 8 3 % 7 ≠ 0 := by decide +kernel

/-- Flat entry 3 names the sender of the message in the queue, which is the initiator of channel 5. -/
def remote (st : Nat) (full : Bool) (initiator : Bool) : State :=
  let s := setAll .reset [(R.svcFlatN 3, F.svcFlatN_VALID, 1), (R.svcFlatN 3, F.svcFlatN_ADDR, 0x400), (R.mbxSeal, F.mbxSeal_SEAL, 1),
    (R.svcCcntN 0, F.svcCcntN_STATE, 2)]
  ((s.setReg (R.mbxBindN 5) ((if initiator then bindWord 6 2 0 else bindWord 2 6 0) + BitVec.ofNat 64 (3 * 2 ^ 16 + 3 * 2 ^ 32))).setChan 5
    { st := st }).setCtx 0 { lastXfer := if full then some 0 else none }

theorem witness_RemoteSides :
    (∀ full : Bool, takes (heard [1, 5, 1, 0] (remote 0 full true)) 1 (fun m z => leAt m.body 1 1 % 64 == 5 && leAt m.body 2 1 % 16 == 1 &&
      z.remoteOf m.src == some (.remote 3) && z.sideOf (.remote 3) 5 == some false && z.sealed && (z.chan 5).st == 0 &&
      (z.ctx m.stream).lastXfer == (if full then some 0 else none) && z.fget (R.svcCcntN 0) F.svcCcntN_STATE == 2) = true) ∧
    takes (heard [1, 5, 8, 0] (remote 1 false false)) 1 (fun m z => leAt m.body 2 1 % 16 == 8 && z.remoteOf m.src == some (.remote 3) &&
      z.sideOf (.remote 3) 5 == some true && (z.chan 5).st == 1) = true ∧
    takes (heard [1, 5, 1, 0] .reset) 1 (fun m z => z.remoteOf m.src == none && !z.sealed) = true ∧
    takes (heard (2 :: List.replicate 11 0) (remote 0 false true)) 2 (fun m z => z.remoteOf m.src == some (.remote 3) &&
      (z.sideOf (.remote 3) 6).isNone) = true ∧
    takes (heard (2 :: List.replicate 11 0) .reset) 2 (fun m z => (z.remoteOf m.src).isNone) = true ∧
    (State.reset.takeKind 1).isNone = true ∧ (State.reset.takeKind 2).isNone = true := by decide +kernel

theorem witness_EndpointAndBmc :
    let s := bound 0 0 false
    let w : Stw := { pcie := { ready := true, mse := true, msixOn := true }, msix := [(63, { pending := true })] }
    let r : State := setAll { State.reset with stw := w } ((List.range 8).map fun h => (R.hbmStatus h, F.hbmStatus_STATE, 2))
    let bad : State := { r with hbmPoison := [r.bar2Base / 64] }
    let b : State := { s with stw := { s.stw with winSel := [(idKey .bmc, 62)] } }
    1 ≤ (5 : BitVec 4).toNat ∧ (5 : BitVec 4).toNat ≤ 5 ∧ (16 : BitVec 6).toNat ∈ [1, 2, 4, 8, 16] ∧ s.stw.pcie.ready = false ∧
    r.stw.pcie.ready = true ∧ (tget {} r.stw.msix 63).pending = true ∧ r.stw.pcie.msixOn = true ∧ s.stw.pcie.msixOn = false ∧
    (s.chan 62).broken = none ∧ 1 < (below 4 (bit (3 : BitVec 8).toNat)).length ∧
    (∀ n ∈ [10, 20], 30 ≤ 20 + field (BitVec.ofNat 32 (n * 256)).toNat 8 6 ∧ 20 + field (BitVec.ofNat 32 (n * 256)).toNat 8 6 ≤ 40) ∧
    s.bar2Ok 0 64 = false ∧ r.bar2Ok 0 64 = true ∧ r.hbmBad (r.bar2Base + 0) 64 = false ∧ bad.bar2Ok 0 64 = true ∧
    bad.hbmBad (bad.bar2Base + 0) 64 = true ∧ bad.ras.queue.length < 224 ∧ (63 : BitVec 8).toNat < 64 ∧ 64 ≤ (64 : BitVec 8).toNat ∧
    b.bmcChan = 62 ∧ b.mayAct .bmc = true ∧ b.sideOf .bmc 62 = some false ∧ b.sideOf .bmc 61 = none ∧ (b.chan 62).st = 0 ∧
    (b.chan 62).length ≤ 4032 ∧ (4095 : BitVec 16).toNat < 4096 ∧ 4096 ≤ (4096 : BitVec 16).toNat ∧
    (s.fset R.devStatus F.devStatus_STATE 4).alert = true ∧ s.alert = false := by decide +kernel

theorem witness_TileAndDistrictResets :
    let s := setAll .reset [(R.clkStatus 31, F.clkStatus_STATE, clkGated), (R.clkStatus 30, F.clkStatus_STATE, clkFailed),
      (R.clkStatus 0, F.clkStatus_STATE, clkRunning), (R.tilCtl 1, F.tilCtl_POWER_GATE, 1)]
    let t := s.setTile 2 { issue := { status := .running } }
    (s.tile 0).issue.status = .idle ∧ (t.tile 2).issue.status = .running ∧ s.fget (R.tilCtl 1) F.tilCtl_POWER_GATE = 1 ∧
    s.clkState (districtOf 1) ≠ clkGated ∧ s.clkState 31 = clkGated ∧ s.clkState 0 ≠ clkGated ∧ s.clkState 0 ≠ clkFailed ∧
    s.clkState 30 = clkFailed ∧ (∀ n ∈ [1, 65536, 11 * 65536], cdiv n 65536 ∈ [1, 2, 3, 4, 5, 6, 7, 8, 9, 10, 11]) ∧
    (s.mqe 0).ops = [] ∧ (s.mqe 31).ops = [] ∧ (s.capo 31).retired ≠ 2 ^ 17 - 1 ∧ bit (s.capo 0).retired 16 = false ∧
    (let f : State := { s with clks := [(0, { failed := true, failedResets := 1 })] }
     (f.clk 0).failed = true ∧ (f.clk 0).failedResets < 2 ∧ f.clkState 0 ≠ clkGated) ∧
    (let r := programmed .running
     let one : State := { r.setTile 0 { issue := { wiped := true } } with prog := { r.prog with secs := [{ typ := 2, inst := 0, variant := 0, count := 0, data := [] }] } }
     r.valid = true ∧ r.running = true ∧ (r.mayRejoin 0 = true ∧ s.mayRejoin 0 = true) ∧
       (blockTiles one.prog.secs).contains (one.ltileOf 0) = true ∧ one.holes = [] ∧ one.mayRejoin 0 = false) ∧
    (∀ b : Bool, s.periodBad 0 (if b then 0 else 1000) = b) ∧
    (s.clk 0).failedResets + b2n (s.clk 0).trial.isSome < 2 ∧ s.running = false ∧
    (s.clk 0).failedResets = 0 ∧ (s.clk 0).failed = false ∧ s.prog.st = .none ∧ s.ras.queue.length < 256 := by decide +kernel

theorem witness_PortAndEndpointResets :
    let s := State.reset.setLink 7 { st := .disabled }
    (s.link 7).st = .disabled ∧ (s.link 0).st ≠ .disabled ∧ (s.link 7).draining = none ∧ (s.link 0).draining = none ∧
    s.fget (R.lnkCtl 7) F.lnkCtl_FORCE_DOWN = 0 ∧ (∀ d, d < 32 → (s.mqe d).ops = []) ∧ s.sec.fetches = [] ∧ s.stw.dma = [] ∧ s.stw.chans = [] ∧
    s.enr.failed = false ∧ ({ s with enr := { failed := true } } : State).enr.failed = true ∧ (bound 0 0 false).sideOf .dbg 63 = none ∧
    (let d := ((State.reset.setReg (R.mbxBindN 9) (bindWord 2 5 0)).setReg (R.mbxBindN 8) (bindWord 5 2 0)).setChan 9 { st := 1 }
     d.sideOf .dbg 8 = some false ∧ (d.chan 8).st = 0 ∧ d.sideOf .dbg 9 = some true ∧ (d.chan 9).st = 1 ∧
       bit (Mem.rdNat (d.chan 9).area 6 1) 1 = false) := by decide +kernel

theorem witness_DeviceResets :
    let s := State.reset
    s.enr.saved = false ∧ s.enr.failed = false ∧ ({ s with enr := { saved := true } } : State).enr.saved = true ∧
    ({ s with enr := { failed := true } } : State).enr.failed = true ∧ (0x5753 : BitVec 16) ≠ 0x5752 ∧
    (0 < 0x1000000 ∧ 0 ≠ R.secBootCtl ∧ 0 ≠ R.secTrustSeq ∧ 0 ≠ R.pwrRailStatus) := by decide +kernel

/-! ## Commands of the mailbox -/

/-- The device in state READY, a request of identity `who` in channel 0, bound to it and core 0. -/
def asking (who opcode args : Nat) (body : List Byte) (s : State) : State :=
  ((s.fset R.devStatus F.devStatus_STATE 3).setReg (R.mbxBindN 0) (bindWord who 2 1)).setChan 0
    { st := 1, sends := 1, area := Mem.wrBytes [] 0 (messageBytes opcode 7 0 0 { status := 0, args := args, body := body }) }
/-- The premises of `State.asked` as a test, for channel 0. -/
def isAsked (s : State) (l : Layout) : Bool :=
  s.serving && s.nextWaiting == some 0 && (s.chan 0).broken.isNone && !(s.cmdAt 0).aborted && (s.cmdAt 0).opcode == l.opcode &&
  ((s.takeRequest 0).firstFail l (s.cmdAt 0)).isNone

theorem asked_of (s : State) (l : Layout) (h : isAsked s l = true) : s.asked 0 l (s.cmdAt 0) (s.takeRequest 0) := by
  simp only [isAsked, Bool.and_eq_true, beq_iff_eq, Bool.not_eq_true', Option.isNone_iff_eq_none] at h
  obtain ⟨⟨⟨⟨⟨h1, h2⟩, hb⟩, h3⟩, h4⟩, h5⟩ := h
  exact ⟨h1, h2, hb, rfl, rfl, h3, h4, h5⟩

/-- A request by layout `l` with `args` and `body` passes the checks in state `s`, and `q` holds of it and the state after TAKE. -/
def asks (l : Layout) (who args : Nat) (body : List Byte) (s : State) (q : Cmd → State → Bool) : Bool :=
  let w := asking who l.opcode args body s
  isAsked w l && q (w.cmdAt 0) (w.takeRequest 0)

/-- What the tests below mean. -/
theorem asks_spec {l : Layout} {who args : Nat} {body : List Byte} {s : State} {q : Cmd → State → Bool}
    (h : asks l who args body s q = true) : ∃ (w : State) (c : Cmd) (z : State), w.asked 0 l c z ∧ q c z = true := by
  simp only [asks, Bool.and_eq_true] at h
  exact ⟨_, _, _, asked_of _ _ h.1, h.2⟩

/-- ARGS of bulk data: mode, address or offset, length. -/
def bulkArgs (mode addr len : Nat) : Nat := argAt 15 1 mode + argAt 16 8 addr + argAt 24 8 len
/-- Room for one command more. -/
def room (z : State) (c : Cmd) : Bool := decide ((z.stw.cmds.filter fun x => x.chan == c.ch).length < 256)
/-- A command in progress. -/
def busyWith (opcode : Nat) (args : List Byte) (s : State) : State :=
  { s with stw := { s.stw with cmds := [{ chan := 1, tag := 1, opcode := opcode, args := args }] } }

theorem witness_BootAndTakeover :
    let s := setAll .reset [(R.pwrRailStatus, F.pwrRailStatus_GOOD, 2047)]
    let retired : State := { s with stw := { coreRetired := [0, 1] } }
    let booted := setAll s [(R.secStatus, F.secStatus_BOOT_STATE, 1), (R.devStatus, F.devStatus_STATE, 2)]
    let pair := setAll booted [(R.devStatus, F.devStatus_STANDBY_OK, 1)]
    s.fget R.devStatus F.devStatus_STATE = 0 ∧ s.fget R.secStatus F.secStatus_BOOT_STATE = 0 ∧ s.enr.failed = false ∧
    s.fget R.pwrRailStatus F.pwrRailStatus_GOOD = 2047 ∧ retired.stw.coreRetired = [0, 1] ∧
    retired.fget R.devStatus F.devStatus_STATE = 0 ∧ s.stw.coreRetired = [] ∧ s.stw.coreFailed = [] ∧
    s.pins.straps.extractLsb' 0 2 = 0 ∧ s.trial = false ∧ s.pins.thermtrip = false ∧ s.imgBar (s.slot false) ≠ none ∧
    booted.fget R.devStatus F.devStatus_STATE = 2 ∧ booted.fget R.secStatus F.secStatus_BOOT_STATE = 1 ∧ booted.sealed = false ∧
    booted.enr.failed = false ∧ booted.ras.contained = false ∧ booted.fget R.devStatus F.devStatus_STANDBY_OK = 0 ∧
    booted.ras.queue.length < 224 ∧ pair.fget R.devStatus F.devStatus_STANDBY_OK = 1 ∧
    (∀ n ∈ [0, 1], asks laySwitchover 1 0 [] (setAll .reset [(R.devStatus, F.devStatus_STANDBY_OK, n)]) (fun _ z =>
      z.fget R.devStatus F.devStatus_STANDBY_OK == n && z.stw.journal.all (·.chan == 0) && decide (z.ras.queue.length < 224)) = true) := by
  decide +kernel

theorem witness_CommandChecks :
    let s := asking 1 0x0102 0 [] .reset
    let shut := setAll s [(R.devStatus, F.devStatus_STATE, 0)]
    let c := s.cmdAt 0
    let other := (asking 1 0x0101 0 [] .reset).cmdAt 0
    let ab := { s with stw := { s.stw with chans := [(0, { st := 1, sends := 1, area := Mem.wrBytes [] 0 (messageBytes 0x0102 7 2 0 { status := 0 }) })] } }
    (s.chan 0).broken = none ∧ (ab.chan 0).broken = none ∧
    asks layAlmanac 4 (bulkArgs 2 0 3) [1, 2] .reset (fun c z => match z.inbound c [] with | .more n _ => n == 2 | _ => false) = true ∧
    asks layAlmanac 4 (bulkArgs 2 1 3) [1, 2] .reset (fun c z => match z.inbound c [] with | .wrong _ => true | _ => false) = true ∧
    asks layDevInfo 1 (argAt 15 1 2 + argAt 16 8 1) [] .reset (fun c z => c.mode == 2 && decide (0 < c.bulkAddr) &&
      (tget noBulk z.stw.bulkOut (0 + 64 * 0x0101)).opcode != c.opcode) = true ∧
    shut.serving = false ∧ State.reset.nextWaiting ≠ some 0 ∧ s.serving = true ∧ s.nextWaiting = some 0 ∧ c.aborted = false ∧
    (ab.cmdAt 0).aborted = true ∧ ab.nextWaiting = some 0 ∧ other.opcode ≠ layDevStatus.opcode ∧ opcodes.contains other.opcode = true ∧
    opcodes.contains ((asking 1 0x0F0F 0 [] .reset).cmdAt 0).opcode = false ∧
    (asking 1 0x0610 0 [] .reset).nextWaiting = some 0 ∧ ((asking 1 0x0610 0 [] .reset).cmdAt 0).opcode = 0x0610 ∧ c.opcode = layDevStatus.opcode ∧
    layDevStatus.by_.contains c.who = true ∧ layDevStatus.lengthOk c = true ∧ layDevStatus.argsOk c = true ∧
    layLogAck.by_.contains ((asking 6 0x0104 0 [] .reset).cmdAt 0).who = false ∧
    layDevStatus.lengthOk ((asking 1 0x0102 0 [1] .reset).cmdAt 0) = false ∧
    layDevStatus.argsOk ((asking 1 0x0102 1 [] .reset).cmdAt 0) = false ∧
    (setAll (asking 1 0x0201 0 [] .reset) [(R.devStatus, F.devStatus_STATE, 4)]).serving = true := by decide +kernel

theorem witness_DeviceCommands :
    let k : Bulk := { opcode := 0x0101, tag := 7, total := 5000, bytes := [], since := 0 }
    let s := State.reset
    let out : State := { s with stw := { s.stw with bulkOut := [(64 * 0x0101, k)] } }
    let run : State := { s with prog := { st := .running } }
    asks layDevInfo 1 0 [] s (fun c _ => c.mode == 0) = true ∧
    asks layDevInfo 1 (argAt 15 1 2) [] s (fun c _ => c.mode == 2 && c.bulkAddr == 0) = true ∧
    asks layDevInfo 1 (argAt 15 1 2 + argAt 16 8 4032) [] out (fun c z => c.mode == 2 && c.bulkAddr == 4032 &&
      tget noBulk z.stw.bulkOut (0 + 64 * 0x0101) == k && k.tag == c.tag && decide (c.bulkAddr < k.total)) = true ∧
    asks layDevStatus 6 0 [] s (fun _ _ => true) = true ∧
    (∀ n ∈ [1, 63], asks layLogRead 5 (argAt 8 1 n) [] s (fun _ _ => true) = true) ∧
    (∀ n ∈ [0, 1], asks layLogAck 4 n [] s (fun c z => c.a 0 8 == n && z.ras.nextIndex == 0) = true) ∧
    asks layTimeRole 1 (3 + argAt 1 1 0xFF) [] s (fun c _ => bit (c.a 0 1) 0 && bit (c.a 0 1) 1) = true ∧
    (∀ n ∈ [0, 1], ∀ p ∈ [(0x0F, s), (0xFF, run)], asks layTimeRole 6 (1 + argAt 1 1 p.1 + argAt 2 1 n + argAt 8 8 n) [] p.2 (fun c z =>
      !(bit (c.a 0 1) 0 && bit (c.a 0 1) 1) && parentOk (c.a 1 1 % 16) && parentOk (c.a 1 1 / 16) && c.a 2 1 == n && c.a 8 8 == n &&
      bit (c.a 0 1) 0 && z.armed == (p.1 == 0xFF)) = true) ∧
    asks layTimeStatus 1 0 [] s (fun _ _ => true) = true ∧
    asks layTrig 1 (3 + argAt 1 1 2 + argAt 4 2 5 + argAt 16 8 5) [] s (fun c _ => c.a 1 1 == 2 && decide (c.a 16 8 ≤ c.a 4 2)) = true ∧
    asks layTrig 1 (3 + argAt 1 1 2 + argAt 4 2 5 + argAt 16 8 6) [] s (fun c z => c.a 1 1 == 2 && decide (c.a 4 2 < c.a 16 8) &&
      (z.trig (c.a 0 1)).pulseEnd.isNone && decide (z.ngt.now ≤ (c.a 8 8) <<< 48)) = true ∧
    (∀ n ∈ [1, 16], asks layCapt 1 (3 + argAt 1 1 n) [] s (fun _ _ => true) = true) := by decide +kernel

/-- The bulk data is complete and is `bs`. -/
def gotten (z : State) (c : Cmd) (host bs : List Byte) : Bool :=
  match z.inbound c host with
  | .whole b => b == bs
  | _ => false

theorem gotBulk_of {z : State} {c : Cmd} {host bs : List Byte} (h : gotten z c host bs = true) : ∃ e, z.gotBulk c host bs e := by
  unfold gotten at h
  split at h
  · rename_i b hb
    exact ⟨_, by rw [hb, eq_of_beq h], rfl⟩
  · cases h

/-- The host's memory may be read. -/
def hosted : State := setAll .reset [(R.pciLink, F.pciLink_UP, 1), (R.pciLink, F.pciLink_BME, 1)]
/-- Port 0 UP with outcome MATCH on a placed, LOCKED device. -/
def openable : State :=
  setAll (State.reset.setLink 0 { upLink with gate := .closed }) [(R.topPortNDisc 0, F.topPortNDisc_OUTCOME, 1),
    (R.topStatus, F.topStatus_COORD_VALID, 1), (R.ngtStatus, F.ngtStatus_STATE, ngtLocked), (R.fabCtl 1, F.fabCtl_ENABLE, 1)]

/-- Port 0 drains since instant 0, meridians of 4,096 ns. -/
def programmedDrain (l : Link) : State := (programmed .none).setLink 0 { l with draining := some 0 }

theorem witness_TopologyCommands :
    let s := State.reset
    let staged : State := { s with top := { staged := some almanac } }
    let drains (l : Link) : State := programmedDrain l
    asks layAlmanac 1 (bulkArgs 1 0 2) [] hosted (fun c z => c.mode == 1 && z.bme && gotten z c [1, 2] [1, 2] && room z c &&
      !z.busyOp 0x0301 (fun _ => true)) = true ∧
    asks layAlmanac 1 (bulkArgs 1 0 2) [] s (fun c z => c.mode == 1 && !z.bme && room z c) = true ∧
    asks layAlmanac 4 (bulkArgs 2 0 2) [1, 2] s (fun c z => c.mode == 2 && tget noBulk z.stw.bulkIn 0 == noBulk && c.bulkAddr == 0 &&
      c.len == c.bulkLen && gotten z c [] [1, 2]) = true ∧
    asks layAlmanac 6 (bulkArgs 2 0 3) [1, 2] s (fun c z => c.mode == 2 && tget noBulk z.stw.bulkIn 0 == noBulk && c.bulkAddr == 0 &&
      decide (c.len < c.bulkLen)) = true ∧
    asks layAlmanac 4 (bulkArgs 2 1 3) [1, 2] s (fun c z => c.mode == 2 && c.bulkAddr != (tget noBulk z.stw.bulkIn 0).bytes.length) = true ∧
    asks layAlmanac 1 (bulkArgs 1 0 2) [] (busyWith 0x0301 [] hosted) (fun c z => gotten z c [1, 2] [1, 2] && room z c &&
      z.busyOp 0x0301 (fun _ => true)) = true ∧
    asks layActivate 4 1 [] s (fun _ z => z.top.staged.isNone) = true ∧
    (∀ b : Bool, asks layActivate 4 1 [] (if b then busyWith 0x0301 [] staged else staged) (fun c z => z.top.staged == some almanac &&
      almanac.seq == c.a 0 4 && z.prog.st == .none && z.busyOp 0x0301 (fun _ => true) == b && almanac.devices.isEmpty) = true) ∧
    asks layActivate 4 2 [] staged (fun c z => z.top.staged == some almanac && almanac.seq != c.a 0 4) = true ∧
    asks layDiscover 5 0 [] s (fun _ _ => true) = true ∧
    asks layPortOpen 1 0xFF [] openable (fun c z => !z.portsHeld (c.a 0 1) && z.prog.variant == 0 && z.outcome 0 == 1 && z.portUp 0 &&
      z.placed && z.ngtState == ngtLocked && (z.link 0).gate != .leaving && z.outcome 1 != 1) = true ∧
    asks layPortOpen 1 1 [] (setAll openable [(R.topStatus, F.topStatus_COORD_VALID, 0)]) (fun _ z => z.outcome 0 == 1 && !z.placed) = true ∧
    (∀ l ∈ [layPortOpen, layPortClose, layPortDrain], asks l 1 1 [] (busyWith 0x0306 [1] s) (fun c z =>
      z.portsHeld (c.a 0 1) && room z c) = true) ∧
    (∀ n ∈ [0, 1], asks layPortClose 1 (2 + argAt 1 1 n) [] openable (fun c z => !z.portsHeld (c.a 0 1) && c.a 1 1 == n &&
      bit (c.a 0 1) 1 && z.mapOn 1) = true) ∧
    asks layPortDrain 6 0xFF [] openable (fun c z => !z.portsHeld (c.a 0 1) && room z c) = true ∧
    (s.link 0).draining = none ∧ ((drains {}).link 0).draining = some 0 ∧
    ((drains {}).reach (0 + (drains {}).streamTimeout)).portEmpty 0 = true ∧
    (let l : Link := { sent := [{ seq := 0, flits := 1, fret := 0, slot := 0, what := .svc { flit := 1 } }] }
     let w := (drains l).reach (0 + (drains l).streamTimeout)
     w.portEmpty 0 = false ∧ w.ngt.now < 0 + (drains l).streamTimeout) := by decide +kernel

/-- The own record of an almanac is found. -/
theorem witness_TopologyCommands_own :
    let d : DevRec := { coord := 0, role := 1, time := 1, parents := 0xFF, identity := ownIdentity }
    ({ almanac with devices := [d] } : Almanac).own = some d := by simp [Almanac.own]

/-- A program in state `st` with one variant. -/
def prog (st : ProgState) (s : State) : State := { s with prog := { st := st, hdr := { variants := 1, periodN := 16 } } }

theorem witness_ProgramCommands :
    let s := State.reset
    let got (z : State) (c : Cmd) : Bool := gotten z c [1, 2] [1, 2] && room z c
    let ld (s : State) (q : Cmd → State → Bool) : Bool := asks layLoad 1 (bulkArgs 1 0 2) [] s fun c z => got z c && q c z
    let failed := setAll hosted [(R.clkStatus 31, F.clkStatus_STATE, clkFailed)]
    let ready (z : State) : Bool := !z.prog.startPend && !z.busyOp 0x0401 (fun _ => true) && !z.busyOp 0x0404 (fun _ => true) &&
      z.prog.detour.isNone && z.prog.st == .armed
    let free (z : State) : Bool := !z.busyOp 0x0404 (fun _ => true) && z.prog.detour.isNone
    ld (busyWith 0x0402 [] hosted) (fun _ z => z.progHeld) = true ∧ ld failed (fun _ z => !z.progHeld && z.anyFailed) = true ∧
    ld (prog .loaded hosted) (fun _ z => !z.progHeld && !z.anyFailed && !z.anyPcLost && z.prog.st != .none) = true ∧
    ld hosted (fun _ z => !z.progHeld && !z.anyFailed && !z.anyPcLost && z.prog.st == .none) = true ∧
    asks layArm 1 0 [] (busyWith 0x0404 [] s) (fun c z => room z c && z.progHeld) = true ∧
    asks layArm 1 0 [] failed (fun c z => room z c && !z.progHeld && z.anyFailed) = true ∧
    (∀ st ∈ [ProgState.none, .loaded], asks layArm 1 0 [] (prog st s) (fun c z => room z c && !z.progHeld && !z.anyFailed &&
      z.prog.st == st) = true) ∧
    asks layStart 6 4 [] (busyWith 0x0404 [] (prog .armed s)) (fun c z => room z c && z.busyOp 0x0404 (fun _ => true)) = true ∧
    asks layStart 6 4 [] s (fun c z => room z c && !z.prog.startPend && z.prog.detour.isNone && z.stw.cmds.isEmpty && z.prog.st == .none) = true ∧
    (∀ t ∈ [3, 4], asks layStart 1 t [] (prog .armed s) (fun c z => room z c && ready z && c.a 0 6 == t && z.ns == 0 &&
      z.top.active.isNone) = true) ∧
    asks layStart 1 4 [] { prog .armed s with top := { active := some { almanac with controlBoundNs := 8193 } } } (fun _ z => ready z &&
      decide (2 * z.progPeriod < (z.top.active.map (·.controlBoundNs)).getD 0)) = true ∧
    (∀ n ∈ [0, 1], asks layStop 1 n [] s (fun c z => room z c && z.prog.st == .none) = true) ∧
    asks layStop 1 0 [] (busyWith 0x0404 [] (prog .armed s)) (fun c z => room z c && z.prog.st != .none &&
      z.busyOp 0x0404 (fun _ => true)) = true ∧
    asks layStop 1 1 [] (programmed .running) (fun c z => room z c && free z && z.prog.st == .running && z.valid) = true ∧
    (∀ st ∈ [ProgState.stopping, .armed, .starting, .loaded, .arming, .loading], asks layStop 6 1 [] (prog st s) (fun c z => room z c &&
      free z && z.prog.st == st) = true) ∧
    asks layProgStatus 5 0 [] s (fun _ _ => true) = true ∧
    asks layDetour 1 0 [] (busyWith 0x0404 [] s) (fun _ z => z.progHeld && z.prog.st == .none) = true ∧
    asks layDetour 1 0 [] s (fun _ z => !z.progHeld && !z.armed && z.prog.st == .none) = true ∧
    (∀ n ∈ [1, 2], asks layDetour 1 n [] (prog .armed s) (fun c z => !z.progHeld && z.armed && z.prog.hdr.variants == 1 && c.a 0 2 == n &&
      z.drainedNow && z.prog.secs.isEmpty) = true) ∧
    asks layDetour 1 1 [] (setAll (prog .armed s) [(R.fabEpoch, F.fabEpoch_DRAINED, 0)]) (fun _ z => !z.progHeld && z.armed &&
      !z.drainedNow) = true ∧
    asks layFlip 1 4 [] (setAll (programmed .running) [(R.fabEpoch, F.fabEpoch_DRAINED, 0)]) (fun _ z => !z.progHeld && z.fabOn 7 &&
      z.drainCheck.fget R.fabEpoch F.fabEpoch_DRAINED == 0) = true ∧
    asks layFlip 1 0 [] (busyWith 0x0404 [] s) (fun _ z => z.progHeld) = true ∧
    (∀ t ∈ [3, 4], ∀ k ∈ [0, 1], asks layFlip 1 (t + argAt 6 1 k) [] (programmed .running) (fun c z => !z.progHeld && z.fabOn 7 &&
      bit (c.a 6 1) 0 == (k == 1) && z.valid && z.transit == 0 && c.a 0 6 == t && z.fget R.fabEpoch F.fabEpoch_PENDING == 0 &&
      z.drainCheck.fget R.fabEpoch F.fabEpoch_DRAINED == 1) = true) := by decide +kernel

/-- A running program with an input and a request queue at 0; contexts `rs`; `bs` in the ring head and the first record. -/
def requests (rs : List (Nat × Request)) (head rec : Nat) : State :=
  let s := programmed .running
  { s with
    prog := { s.prog with
      secs := [{ typ := 0xB, inst := 0, variant := 0, count := 1, data := leBytes 8 0 ++ leBytes 8 1 },
               { typ := 9, inst := 0, variant := 0, count := 1, data := leBytes 4 0 ++ leBytes 28 4 }]
      segs := [{ kind := 0, access := 3, base := 0, size := 2 ^ 23 }]
      posted := (rs.filter (·.2.st == .queued)).length }
    reqs := rs, hbm := Mem.wrBytes (Mem.wrBytes [] (ringHead 0) (leBytes 8 head)) (ringRec 0 0) (leBytes 16 rec) }
/-- A request of context 3, generation 1. -/
def request (st : ReqState) : Request := { st := st, gen := 1 }

theorem witness_RequestCommands :
    let live (z : State) : Bool := z.prog.st == .running && hasInput z.prog.secs && z.reqBase == some 0
    let id := (request .free).id 3
    let hit := requests [(3, request .inFlight)] 1 id
    let ended : Request := { request .inFlight with record := some 0 }
    let done : State := (asking 1 0x0602 0 [] { requests [(3, ended)] 0 0 with ngt := { now := 8192 <<< 48 } })
    asks laySubmit 1 0 [] .reset (fun _ z => z.prog.st == .none) = true ∧
    (∀ n ∈ [0, 240], asks laySubmit 1 0 (List.replicate n 1) (requests [(0, request .queued)] 0 0) (fun _ z => live z && (z.req 1).st == .free &&
      (z.req 0).st != .free && (!z.ledgersOn || (z.reqBroken.isEmpty && decide (z.reqConsumed ≤ z.prog.posted) &&
        decide (z.prog.posted < z.reqConsumed + 16384))) && !z.hbmBad 0 8 && !z.hbmBad (0 + 0x40 + z.prog.posted % 16384 * 256) 256) = true) ∧
    asks layReqStatus 1 id [] .reset (fun c z => (z.named (c.a 0 4)).isNone) = true ∧
    asks layReqStatus 1 id [] hit (fun c z => z.named (c.a 0 4) == some (3, request .inFlight)) = true ∧
    asks layCancel 1 id [] .reset (fun c z => (z.named (c.a 0 4)).isNone) = true ∧
    (∀ st ∈ [ReqState.free, .queued, .inFlight, .cancelling], asks layCancel 1 id [] (requests [(3, request st)] 0 0) (fun c z =>
      z.named (c.a 0 4) == some (3, request st) && z.valid && z.reqBase == some 0 && (!z.ledgersOn || z.reqBroken.isEmpty) &&
      !z.hbmBad (0 + 0x40 + (request st).ring % 16384 * 256) 4) = true) ∧
    State.reset.running = false ∧ hit.running = true ∧ hit.reqBase = some 0 ∧ hit.hbmBad (ringHead 0) 16 = false ∧
    leNat (hit.hbmBytes (ringHead 0) 8) = hit.prog.read + 1 ∧ hit.hbmBad (ringRec 0 0) 16 = false ∧
    hit.named (leAt (hit.hbmBytes (ringRec 0 0) 16) 0 4) = some (3, request .inFlight) ∧ (request .inFlight).record = none ∧
    (request .inFlight).inputT ≤ leAt (hit.hbmBytes (ringRec 0 0) 16) 8 8 ∧
    leNat ((requests [] 0 0).hbmBytes (ringHead 0) 8) = (requests [] 0 0).prog.read ∧
    0 + 16384 < leNat ((requests [] 16385 0).hbmBytes (ringHead 0) 8) ∧ hit.ras.queue.length < 256 ∧
    ({ hit with hbmPoison := [ringHead 0 / 64] } : State).hbmBad (ringHead 0) 8 = true ∧
    hit.runOver (request .inFlight) = false ∧ hit.reqDone = [] ∧
    done.reqs.filter (fun x => x.2.chan == 0 && done.runOver x.2) = [(3, ended)] ∧ done.req 3 = ended ∧ done.holdEnd ended ≤ done.ns ∧
    done.noticeChan 0 = some 16 := by decide +kernel

/-- A table that holds `v` under every number from `k` below `k + n`. -/
theorem tget_full (d v : Request) (n k i : Nat) (h : i < n) :
    tget d ((List.range' k n).map fun j => (j, v)) (k + i) = v := by
  induction n generalizing k i with
  | zero => omega
  | succ n ih =>
    simp only [List.range'_succ, List.map_cons, tget]
    split
    · rfl
    · rename_i hne
      have e : k + i = (k + 1) + (i - 1) := by omega
      rw [e]
      exact ih (k + 1) (i - 1) (by omega)

/-- Every request context can be in use. -/
theorem witness_RequestCommands_full :
    let s := requests ((List.range' 0 16384).map fun j => (j, request .queued)) 0 0
    ∀ i, i < 16384 → (s.req i).st ≠ .free := by
  intro s i hi
  have h : s.req i = request .queued := by
    have := tget_full {} (request .queued) 16384 0 i hi
    rw [Nat.zero_add] at this
    exact this
  rw [h]
  decide

/-! ### Trust and weights -/

/-- Bulk data of any length from the host is complete once it came whole. -/
theorem inbound_host {z : State} {c : Cmd} {host : List Byte} (hm : c.mode = 1) (hb : z.bme = true) (hl : host.length = c.bulkLen) :
    z.inbound c host = .whole host := by
  unfold State.inbound
  rw [if_pos hm, if_pos ⟨hb, hl⟩]

/-- A shard of one chunk in segment 0 of the own device, its leaf list `ls`, and a manifest that holds it under root zero. -/
def shard1 (ls : List (List Byte)) (verified : List Nat) : Shard :=
  { target := 0, tier := 0, segment := 0, bytes := 2 ^ 20, imageOff := 0, leafOff := 0, subroot := [], presOff := 0, presBits := 0,
    leaves := ls, verified := verified }
def manifest1 (x : Shard) : Manifest :=
  { root := List.replicate 32 0, modelId := 1, rackAny := false, signer := [], shards := [x], presence := [], bytes := [], serving := true }
/-- A device that holds it in slot 3, with a LOCAL segment of 4 MiB and a loaded program that declares it WEIGHTS. -/
def weighty (x : Shard) : State :=
  { State.reset with
    sec := { manifests := [(3, manifest1 x)] }
    prog := { st := .loaded, segs := [{ kind := 0, access := 3, base := 0, size := 2 ^ 22 }]
              secs := [{ typ := 9, inst := 0, variant := 0, count := 1, data := leBytes 4 0 ++ leBytes 4 2 ++ leBytes 24 (2 ^ 22) }] } }
/-- A SHARD_FETCH body: root, shard `k`, one source of kind `kind` at `addr`. -/
def fetchBody (k kind addr : Nat) : List Byte := List.replicate 32 0 ++ leBytes 4 k ++ leBytes 4 1 ++ leBytes 8 kind ++ leBytes 8 addr

theorem witness_TrustAndWeightCommands :
    let s := State.reset
    let held := weighty (shard1 [] [0])
    let bulk (l : Layout) (n : Nat) (s : State) (b : Bool) : Bool := asks l 1 (bulkArgs 1 0 n) [] s fun c z =>
      c.mode == 1 && z.bme && c.bulkLen == n && room z c && z.busyOp l.opcode (fun _ => true) == b
    let staged : State := { s with sec := { stage := some true } }
    let lacking (l : Layout) : Bool := asks l 1 (bulkArgs 1 0 (if l.opcode = 0x0501 then 7984 else 2)) [] s fun c z => room z c &&
      !z.busyOp l.opcode (fun _ => true) && (match z.inbound c [] with | .failed => true | _ => false)
    let present : State := { s with sec := { manifests := [(3, { manifest1 { shard1 [] [0] with presBits := 8 } with presence := [1] })] } }
    let pres (n b : Nat) (bs : State → Bool) : Bool := asks layShardStatus 1 (argAt 15 1 1 + argAt 16 8 64 + argAt 24 8 n) (List.replicate 32 0)
      (setAll present [(R.pciLink, F.pciLink_UP, b), (R.pciLink, F.pciLink_BME, b)]) fun c z => c.mode == 1 &&
        (match z.manifestOf (rootOf c) with
          | some (_, m) => (m.shards[c.a 0 4]?).any fun x => decide (c.bulkLen < ((m.presence.drop x.presOff).take (cdiv x.presBits 8)).length) ==
              (n == 0)
          | none => false) && bs z
    let newer := setAll s [(R.secStatus, F.secStatus_RUN_SVN, 1)]
    let trial := setAll s [(R.secBootCtl, F.secBootCtl_TRIAL, 1)]
    let root : List Byte := List.replicate 32 0
    let fuse (z : State) : Bool := decide (z.sec.svnFuse < z.fget R.secStatus F.secStatus_RUN_SVN)
    let fetch (s : State) (k kind : Nat) (q : Shard → Cmd → State → Bool) : Bool := asks layFetch 1 0 (fetchBody k kind 0x7FFF) s fun c z =>
      room z c && leAt c.body 32 4 == k && (match z.manifestOf (c.body.take 32) with
        | some (i, m) => i == 3 && (match m.shards[k]? with
          | some x => q x c z
          | none => false)
        | none => false)
    let legal (x : Shard) (c : Cmd) (z : State) : Bool := z.shardApplies false x && sourcesOk x.tier c.body
    let ready (x : Shard) (z : State) : Bool := z.prog.st == .loaded && z.sec.fetches.isEmpty && (match (segDecls z.prog.secs)[x.segment]? with
      | some d => bit d.flags 1 && decide (d.kind ≤ 1) && decide (x.chunks * 2 ^ 20 ≤ d.size)
      | none => false)
    (∀ p ∈ [(layTrustEnroll, 7984), (layManifest, 2), (layStage, 2)], bulk p.1 p.2 hosted false = true ∧
      bulk p.1 p.2 (busyWith p.1.opcode [] hosted) true = true) ∧
    (∀ l ∈ [layTrustEnroll, layManifest, layStage], lacking l = true) ∧
    pres 0 0 (fun _ => true) = true ∧ pres 1 0 (fun z => !z.bme) = true ∧ pres 1 1 (fun z => z.bme) = true ∧
    (∀ b : Bool, asks layAttest 5 (bulkArgs 2 0 0) root (if b then busyWith 0x0B01 [] s else s) (fun c z => c.mode == 2 && c.bulkAddr == 0 &&
      room z c && z.busyOp 0x0B01 (fun _ => true) == b) = true) ∧
    (∀ b : Bool, asks layCommit 1 0 [] (if b then busyWith 0x0B02 [] s else s) (fun c z => !bit (c.a 0 1) 0 && !bit (c.a 0 1) 1 &&
      z.busyOp 0x0B02 (fun _ => true) == b && z.sec.stage.isNone) = true) ∧
    asks layCommit 4 0 [] staged (fun _ z => z.sec.stage == some true && !z.busyOp 0x0B02 (fun _ => true)) = true ∧
    (∀ b : Bool, ∀ k ∈ [1, 3], asks layCommit 1 k [] (if b then busyWith 0x0B02 [] newer else newer) (fun c z => bit (c.a 0 1) 0 &&
      bit (c.a 0 1) 1 == (k == 3) && z.busyOp 0x0B02 (fun _ => true) == b && fuse z) = true) ∧
    asks layCommit 1 2 [] trial (fun c z => !bit (c.a 0 1) 0 && bit (c.a 0 1) 1 && z.trial && !fuse z) = true ∧
    asks layCommit 1 2 [] newer (fun _ z => !z.trial && fuse z) = true ∧
    newer.trial = false ∧ newer.sec.svnFuse < newer.fget R.secStatus F.secStatus_RUN_SVN ∧ trial.trial = true ∧
    s.fget R.secStatus F.secStatus_RUN_SVN ≤ s.sec.svnFuse ∧
    (∀ k ∈ [0, 1], asks layServe 6 k root s (fun c z => (z.manifestOf (rootOf c)).isNone) = true ∧
      asks layServe 6 k root held (fun c z => z.manifestOf (rootOf c) == some (3, manifest1 (shard1 [] [0]))) = true ∧
      asks layShardStatus 5 k root held (fun c z => c.mode == 0 && z.manifestOf (rootOf c) == some (3, manifest1 (shard1 [] [0])) &&
        ((manifest1 (shard1 [] [0])).shards[c.a 0 4]?).isNone == (k == 1) && z.sec.fetches.isEmpty) = true) ∧
    asks layShardStatus 5 0 root s (fun c z => c.mode == 0 && (z.manifestOf (rootOf c)).isNone) = true ∧
    asks layFetch 1 0 (fetchBody 0 2 0) s (fun c z => room z c && (z.manifestOf (c.body.take 32)).isNone) = true ∧
    fetch held 0 1 (fun x c z => legal x c z && !z.busyOp 0x0502 (fun _ => true) && ready x z) = true ∧
    fetch held 0 2 (fun x c z => legal x c z && !z.busyOp 0x0502 (fun _ => true) && ready x z && x.leaves.isEmpty &&
      (sourcesOf c.body).all (fun y => y.kind != 1) && z.shard 3 0 == some (manifest1 x, x) && decide (z.ras.queue.length < 224)) = true ∧
    fetch (weighty (shard1 [[]] [])) 0 2 (fun x c z => legal x c z && !z.busyOp 0x0502 (fun _ => true) && ready x z &&
      !x.leaves.isEmpty && x.verified.length != x.chunks) = true ∧
    fetch held 0 3 (fun x c z => !legal x c z) = true ∧
    fetch (busyWith 0x0502 [] held) 0 2 (fun x c z => legal x c z && z.busyOp 0x0502 (fun _ => true)) = true ∧
    fetch { held with prog := { held.prog with st := .armed } } 0 2 (fun x c z => legal x c z && !z.busyOp 0x0502 (fun _ => true) &&
      !ready x z) = true ∧
    s.sec.fetches[0]? = none ∧ (s.takeKind 0x0A).isNone = true ∧ (s.takeKind 9).isNone = true := by decide +kernel

/-- A fetch of chunk 0 of that shard from a source of kind `kind`. -/
def fetching (kind : Nat) : Fetch :=
  { slot := 3, shard := 0, sources := [{ kind := kind, addr := 0x7FFF }], out := [{ chunk := 0, src := 0, counter := 0 }], chan := 0, tag := 7 }
/-- The device with that fetch. -/
def fetches (x : Shard) (kind : Nat) (s : State) : State := { s with sec := { s.sec with manifests := [(3, manifest1 x)], fetches := [fetching kind] } }

theorem hbmWrite_clean (s : State) (off : Nat) (bs : List Byte) (h : s.hbmPoison = []) : (s.hbmWrite off bs fun _ => false).hbmPoison = [] := by
  unfold State.hbmWrite
  have g : ∀ (l : List Nat) (z : State), z.hbmPoison = [] → (l.foldl (fun z u =>
      let lo := 64 * u - off
      let hi := min (64 * u + 64 - off) bs.length
      let whole := off ≤ 64 * u && 64 * u + 64 ≤ off + bs.length
      if (List.range (hi - lo)).any (fun _ => false) then { z with hbmPoison := sins z.hbmPoison u }
      else if whole then { z with hbmPoison := sdel z.hbmPoison u }
      else if z.hbmPoison.contains u then z.freeUnit u
      else z) z).hbmPoison = [] := by
    intro l
    induction l with
    | nil => intro z hz; exact hz
    | cons u l ih =>
      intro z hz
      rw [List.foldl_cons]
      refine ih _ ?_
      have e : ∀ n, (List.range n).any (fun _ => false) = false := by intro n; rw [List.any_eq_false]; simp
      dsimp only
      rw [e]
      simp only [Bool.false_eq_true, if_false, hz, List.contains_nil]
      split
      · rfl
      · exact hz
  exact g _ _ h

theorem witness_TrustAndWeightCommands_hash (host : List Byte) (hl : host.length = 2 ^ 20) :
    ∃ x : Shard, x.leaves[0]? = some (leafOf host) ∧
      let s := fetches x 2 (weighty x)
      s.sec.fetches[0]? = some (fetching 2) ∧ (fetching 2).out.find? (·.chunk == 0) = some { chunk := 0, src := 0, counter := 0 } ∧
      s.shard 3 0 = some (manifest1 x, x) ∧ (fetching 2).sources[0]? = some { kind := 2, addr := 0x7FFF } ∧
      s.prog.segs[x.segment]? = some { kind := 0, access := 3, base := 0, size := 2 ^ 22 } ∧ host.length = 2 ^ 20 ∧
      (s.hbmWrite 0 host fun _ => false).hbmBad 0 (2 ^ 20) = false ∧ s.ras.queue.length < 224 := by
  refine ⟨shard1 [leafOf host] [], rfl, rfl, rfl, rfl, rfl, rfl, hl, ?_, (by decide : ([] : List FaultRec).length < 224)⟩
  unfold State.hbmBad
  rw [hbmWrite_clean _ _ _ rfl, List.any_eq_false]
  simp

/-- A chunk of a host segment, one whose memory is poisoned, and one that has no leaf. -/
theorem witness_TrustAndWeightCommands_kinds :
    let g (k : Nat) : Segment := { kind := k, access := 3, base := if k = 3 then 2 ^ 44 else 0, size := 2 ^ 22 }
    let x := shard1 [] []
    let s (k : Nat) (bad : List Nat) : State :=
      { fetches x 0 (weighty x) with prog := { st := .loaded, segs := [g k] }, hbmPoison := bad }
    (∀ k ∈ [0, 3], (s k []).prog.segs[x.segment]? = some (g k)) ∧ (s 0 [0]).hbmBad 0 (2 ^ 20) = true ∧
      (s 0 []).hbmBad 0 (2 ^ 20) = false ∧ x.leaves[0]? = none ∧ (s 0 []).sec.fetches[0]? = some (fetching 0) ∧
      (fetching 0).sources[0]? = some { kind := 0, addr := 0x7FFF } ∧ (s 0 []).shard 3 0 = some (manifest1 x, x) := by decide +kernel

/-- A leaf list that does not match, and a counter complete or not. -/
theorem witness_TrustAndWeightCommands_pending :
    let x := shard1 [[]] []
    let o := R.svcCcntN (Config.fetchCounter.val + 0)
    let s (v : Word) := fetches x 1 ((weighty x).setReg o v)
    (∀ v, (s v).sec.fetches[0]? = some (fetching 1) ∧ (s v).shard 3 0 = some (manifest1 x, x)) ∧ x.leaves[0]? = some [] ∧
      (s 0).fget o F.svcCcntN_STATE ≠ 2 ∧ ∃ v, (s v).fget o F.svcCcntN_STATE = 2 := by
  have h : ∀ v, (fetches (shard1 [[]] []) 1 ((weighty (shard1 [[]] [])).setReg (R.svcCcntN (Config.fetchCounter.val + 0)) v)).reg
      (R.svcCcntN (Config.fetchCounter.val + 0)) = v := fun v => State.reg_setReg_same _ _ _
  refine ⟨fun _ => ⟨rfl, rfl⟩, rfl, ?_, BitVec.ofNat 64 (2 * 2 ^ F.svcCcntN_STATE.lo), ?_⟩
  all_goals simp only [State.fget, h]; decide

theorem witness_TrustAndWeightCommands_messages :
    let x := shard1 [] [0]
    let held := setAll (served []) [(R.svcSctxNCfg 0, F.svcSctxNCfg_PEER, 5)]
    let device (y : Shard) : State := { held with sec := { manifests := [(3, manifest1 y)] }, prog := (weighty y).prog }
    let asked (k : Nat) (root : Nat) : List Byte := leBytes 1 9 ++ leBytes 16 root ++ leBytes 4 0 ++ leBytes 4 k ++ leBytes 2 5 ++ leBytes 5 0
    let chunk (y : Shard) (root : Nat) (q : State → Bool) : Bool := takes (heard (asked 0 root) (device y)) 9 fun m z =>
      (((z.sec.manifests.filter fun e => e.2.root.take 16 == (m.body.drop 1).take 16) == [(3, manifest1 y)]) == (root == 0)) &&
      leAt m.body 17 4 == 0 && leAt m.body 21 4 == 0 && (z.contextTo (deviceOf m.src) (leAt m.body 25 2)) == some 0 && q z
    chunk x 1 (fun _ => true) = true ∧ chunk (shard1 [] []) 0 (fun _ => true) = true ∧
    (∀ b : Bool, takes (heard (asked 0 0) { device x with hbmPoison := if b then [0] else [] }) 9 (fun m z =>
      ((z.sec.manifests.filter fun e => e.2.root.take 16 == (m.body.drop 1).take 16) == [(3, manifest1 x)]) &&
      z.contextTo (deviceOf m.src) (leAt m.body 25 2) == some 0 && (manifest1 x).serving &&
      z.shardApplies false x && x.verified.contains 0 && z.hbmBad 0 (2 ^ 20) == b &&
      z.prog.segs[0]? == some { kind := 0, access := 3, base := 0, size := 2 ^ 22 }) = true) ∧
    (manifest1 x).shards[1]? = none ∧ ({ device x with prog := {} } : State).prog.segs[0]? = none ∧
    takes (heard (leBytes 17 0x0A ++ leBytes 15 0) (fetches x 1 (weighty x))) 0x0A (fun m z => z.sec.fetches == [fetching 1] &&
      leAt m.body 21 4 == 0 && leAt m.body 17 4 == 0 && deviceOf m.src * 2 ^ 15 + 0x7FFF == 0x7FFF &&
      (z.shard 3 0).map (fun x => x.1.root.take 16) == some ((m.body.drop 1).take 16)) = true := by decide +kernel

/-! ### Service commands, completions, register access -/

/-- An armed program whose one phase declares E_WORST = 2^31 microjoules. -/
def hungry : State :=
  { State.reset with prog := { st := .armed, hdr := { periodN := 16 }
                               secs := [{ typ := 0xB, inst := 0, variant := 0, count := 1, data := leBytes 16 (2 ^ 31) }] } }
/-- Arguments of DMA_COPY: source, destination, length, flags. -/
def copyArgs (src dst len fl : Nat) : Nat := src + argAt 8 7 dst + argAt 24 7 len + argAt 31 1 fl

theorem witness_ServiceCommands_copy :
    let s := State.reset
    let inside (c : Cmd) (z : State) : Bool := room z c && !bit (c.a 31 1) 0 && decide (c.a 8 7 < 2 ^ 48) && c.a 8 7 / 2 ^ 40 == z.ownSlot &&
      decide (c.a 8 7 % 2 ^ 40 + c.a 24 7 ≤ 0xFF00000000)
    asks layCopy 1 (copyArgs 0 (2 ^ 40) 1 0) [] s (fun c z => room z c && c.a 8 7 / 2 ^ 40 != z.ownSlot) = true ∧
    asks layCopy 1 (copyArgs 0 0xFEFFFFFFFF 2 0) [] s (fun c z => room z c && decide (0xFF00000000 < c.a 8 7 % 2 ^ 40 + c.a 24 7)) = true ∧
    asks layCopy 1 (copyArgs 0 0 0 4) [] (busyWith 0x0701 (leBytes 32 (copyArgs 0 0 0 4)) s) (fun c z => inside c z && z.stw.cmds.any (fun x =>
      x.opcode == 0x0701 && x.result.isNone && field (leAt x.args 31 1) 1 3 == field (c.a 31 1) 1 3)) = true ∧
    (∀ n ∈ [0, 1], asks layCopy 1 (copyArgs 0 (0xFF00000000 - n) n 12) [] s (fun c z => inside c z && z.stw.cmds.isEmpty && c.a 24 7 == n &&
      field (c.a 31 1) 1 3 == 6) = true) ∧
    asks layScrub 6 (argAt 16 8 (2 ^ 40)) [] s (fun c z => room z c) = true ∧ asks layAudit 4 255 [] s (fun c z => room z c) = true := by
  decide +kernel

theorem witness_ServiceCommands_energy :
    let s := State.reset
    let cold := setAll hungry [(R.pwrTherm, F.pwrTherm_CAP, 0)]
    let run : State := { programmed .running with prog := { st := .running, hdr := { periodN := 16 } } }
    let soon := setAll run [(R.clkRetune, F.clkRetune_PENDING, 1), (R.clkRetune, F.clkRetune_SETTING, 30), (R.clkRetune, F.clkRetune_AT_TRANSIT, 1)]
    let budget (mw at' : Nat) (s : State) (q : Cmd → State → Bool) : Bool := asks layBudget 1 (mw + argAt 8 8 at') [] s fun c z =>
      c.a 0 4 == mw && c.a 8 8 == at' && z.transit == 0 && q c z
    let tune (v : Nat) (s : State) (q : State → Bool) : Bool := asks layRetune 1 (v + argAt 8 8 4) [] s fun c z => c.a 0 1 == v && c.a 8 8 == 4 && q z
    let free (v : Nat) (z : State) : Bool := decide (z.minSetting ≤ v) && !z.haltBars 4
    (∀ mw ∈ [299999, 2200001], budget mw 0 s (fun _ _ => true) = true) ∧ budget 300000 3 s (fun _ _ => true) = true ∧
    (∀ mw ∈ [300000, 2200000], budget mw 0 s (fun _ z => !z.armed) = true) ∧
    budget 300000 4 cold (fun c z => z.armed && z.target (c.a 0 4) == none) = true ∧
    budget 300000 4 (prog .armed s) (fun c z => z.armed && z.target (c.a 0 4) == some 42 && !z.running && !z.valid) = true ∧
    budget 300000 4 run (fun c z => z.armed && z.target (c.a 0 4) == some 42 && z.running && z.retuneOk 42 4) = true ∧
    budget 300000 4 soon (fun c z => z.armed && z.target (c.a 0 4) == some 42 && z.running && z.settingNext == 30 && !z.retuneOk 42 4) = true ∧
    (∀ n ∈ [1, 126], asks layReport 4 (argAt 8 1 n) [] s (fun _ _ => true) = true) ∧
    (∀ v ∈ [19, 43], tune v s (fun _ => true) = true) ∧
    tune 20 (setAll s [(R.clkMinSetting, F.clkMinSetting_MIN, 21)]) (fun z => decide (20 < z.minSetting)) = true ∧
    tune 42 hungry (fun z => free 42 z && z.armed && z.budgets.any (fun b => decide (perTransit b z.progPeriod < z.worstAt 42))) = true ∧
    tune 42 soon (fun z => free 42 z && z.budgets.all (fun b => decide (z.worstAt 42 ≤ perTransit b z.progPeriod)) && !z.retuneOk 42 4) = true ∧
    (∀ v ∈ [20, 42], tune v s (fun z => free v z && !z.armed && z.retuneOk v 4) = true) := by decide +kernel

theorem witness_ServiceCommands_repair :
    let s := State.reset
    let out : State := { s with capos := [(31, { retired := 2 ^ 16 })] }
    let lanes (l : Link) : State := s.setLink 7 l
    let lane (s : State) (n : Nat) (q : Link → State → Bool) : Bool := asks layLaneRetire 1 (7 + argAt 1 1 n) [] s fun c z =>
      room z c && c.a 0 1 == 7 && c.a 1 1 == n && q (z.link 7) z
    let full := setAll s ((List.range 32).map fun n => (R.hbmRemapN 7 n, F.hbmRemapN_VALID, 1))
    let row (s : State) (q : State → Bool) : Bool := asks layRowRepair 6 (7 + argAt 1 1 31 + argAt 4 4 5) [] s fun c z =>
      room z c && c.a 0 1 == 7 && z.ras.hbmRows.isEmpty && q z
    let clear (z : State) : Bool := z.fget (R.hbmRemapN 7 31) F.hbmRemapN_VALID == 0
    asks layRepair 5 0 [] s (fun _ _ => true) = true ∧
    asks layTileRetire 1 543 [] (setAll s [(R.rasCapoDPend 31, F.rasCapoDPend_VALID, 1)]) (fun c z => room z c && c.a 0 2 == 543 &&
      z.fget (R.rasCapoDPend 31) F.rasCapoDPend_VALID == 1) = true ∧
    asks layTileRetire 1 543 [] out (fun c z => room z c && z.fget (R.rasCapoDPend 31) F.rasCapoDPend_VALID == 0 &&
      (match z.retireWhen (districtOf (c.a 0 2)) (c.a 0 2 % 17) (c.a 8 8) with | .error st => st == 0x0300 | .ok _ => false)) = true ∧
    asks layTileRetire 1 543 [] s (fun c z => room z c && z.fget (R.rasCapoDPend 31) F.rasCapoDPend_VALID == 0 &&
      (match z.retireWhen (districtOf (c.a 0 2)) (c.a 0 2 % 17) (c.a 8 8) with | .error _ => false | .ok t => t.isNone)) = true ∧
    lane (busyWith 0x0903 [7] (lanes laned)) 0 (fun _ z => z.portHeld 7) = true ∧
    lane (lanes {}) 29 (fun l z => !z.portHeld 7 && (l.withRole true .parity).isEmpty && l.st != .up) = true ∧
    (∀ n ∈ [0, 29], lane (lanes laned) n (fun l z => !z.portHeld 7 && !(l.withRole true .parity).isEmpty && l.st == .up &&
      (l.lane true n).role != .retired && (decide (28 ≤ (l.lane true n).logical) || (l.cover true (l.lane true n).logical).isSome)) = true) ∧
    row full (fun z => (List.range 32).all fun n => z.fget (R.hbmRemapN 7 n) F.hbmRemapN_VALID == 1) = true ∧
    row (prog .running s) (fun z => clear z && z.running) = true ∧ row s (fun z => clear z && !z.running) = true ∧
    asks layRowRepair 6 (7 + argAt 1 1 31 + argAt 4 4 5) [] { prog .running s with
      ras := { hbmRows := [{ stack := 7, pc := 31, row := 5, entry := some 0, repaired := 0 }] } } (fun c z => room z c && z.running &&
        z.ras.hbmRows.all (fun r => r.stack == c.a 0 1 && r.pc == c.a 1 1 && r.row == c.a 4 4 && r.entry != none)) = true ∧
    (∀ g ∈ [0, 5], asks layTelemetry 5 g [] s (fun c _ => c.a 0 1 == g) = true) ∧
    asks layStream 1 0 [] s (fun c _ => c.a 0 1 == 0) = true ∧
    asks layStream 6 (0x3F + argAt 2 2 1 + argAt 20 4 1023) [] s (fun c _ => c.a 0 1 != 0 && c.a 2 2 != 0) = true := by decide +kernel

/-- The device serves, a command of channel 0 with TAG 7 in progress; channel 0 is HOST's. -/
def completes (c : AsyncCmd) (s : State) : State :=
  let z := (s.fset R.devStatus F.devStatus_STATE 3).setReg (R.mbxBindN 0) (bindWord 1 2 1)
  { z with stw := { z.stw with cmds := [c] } }
/-- One with opcode `o` and result `r`. -/
def inProgress (o : Nat) (r : Option Nat) : AsyncCmd := { chan := 0, tag := 7, opcode := o, args := leBytes 32 0, data := [], result := r }

/-- A firmware image of 7,984 bytes with a good header and SVN 0, padded to `n`. -/
def image (n : Nat) : List Byte := leBytes 4 0x57465A4F ++ leBytes 4 1 ++ leBytes 4 7984 ++ List.replicate (n - 12) 0

/-- An enrolment whose KEY_SEQ is not above TRUST_SEQ. -/
theorem witness_CompletionsAndNotices_enrol :
    let b : List Byte := sha256 (List.replicate 32 1) ++ List.replicate 32 1 ++ List.replicate 32 0 ++ leBytes 4 1 ++ leBytes 4 1 ++ leBytes 8 5 ++
      leBytes 16 0
    (b.take 128 = b ∧ bodyFormed b = true) ∧ keySeq b ≤ (State.reset.setReg R.secTrustSeq 5 |>.reg R.secTrustSeq).toNat := by decide +kernel

theorem witness_CompletionsAndNotices :
    let s := State.reset
    let found (o : Nat) (r : Option Nat) (s : State) (q : State → Bool) : Bool := let w := completes (inProgress o r) s
      w.serving && w.findCmd 0 7 == some (inProgress o r) && w.noticeChan 0 == some 16 && q w
    let x (dir : Bool) : Xfer := { toDevice := dir, host := 0, dev := 0, len := 2, copy := some (0, 7) }
    let ofQueue : State := { s with stw := { dma := [(7, [{ x true with copy := none, op := some (0, 1) }])] } }
    let row (o p l : Nat) : State := completes { inProgress o none with args := leBytes 32 (p + argAt 1 1 l) } s
    let report (m : Nat) : AsyncCmd :=
      { inProgress 0x0B01 none with args := leBytes 32 (argAt 15 1 m + argAt 16 8 64 + argAt 24 8 17344), data := List.replicate 256 0 }
    let sends := (completes (inProgress 0 none) s).setReg (R.mbxBindN 16) (bindWord 2 1 1)
    s.serving = false ∧ found 0x0801 none { s with stw := {} } (fun _ => true) = true ∧
    found 0x0301 (some 0x0400) s (fun _ => true) = true ∧
    (∀ o ∈ [0x0701, 0x0904, 0x0403, 0x0404, 0x0902], found o (some 0) s (fun _ => true) = true) ∧
    (let f : Fetch := { fetching 2 with out := [], ended := some 0 }
     let w := completes (inProgress 0x0503 (some 0)) { s with sec := { manifests := [(3, manifest1 (shard1 [] [0]))], fetches := [f] } }
     w.findCmd 0 7 = some (inProgress 0x0503 (some 0)) ∧ w.sec.fetches.find? (fun g => g.chan == 0 && g.tag == 7) = some f ∧
       w.shard f.slot f.shard = some (manifest1 (shard1 [] [0]), shard1 [] [0])) ∧
    found 0x0501 none s (fun _ => !bodyFormed (([] : List Byte).take 128)) = true ∧
    found 0x0B02 none s (fun w => imgSize [] == 0 && w.imgBar (w.slot w.idleSlot) == some 1 && w.slot w.idleSlot == []) = true ∧
    (∀ n ∈ [7984, 7985], let w := completes { inProgress 0x0B02 none with data := image n } { s with sec := { slotB := image n, svnFuse := 1 } }
     imgFormed (image n) = true ∧ ((imgSize (image n) = (image n).length) ↔ n = 7984) ∧ w.idleSlot = true ∧
       w.imgBar (w.slot true) = some 2) ∧
    (∀ m ∈ [1, 2], let w := completes (report m) hosted
     w.attest = some (report m) ∧ w.findCmd 0 7 = some (report m) ∧ (report m).data.length + 17088 = 17344 ∧ w.bme = true ∧
       w.sideCode 0 false = 1 ∧ leAt (report m).args 15 1 = m ∧ 17344 ≤ leAt (report m).args 24 8) ∧
    (let w : State := { completes (report 1) s with stw := { s.stw with cmds := [{ report 1 with tag := 6 }, report 1] } }
     w.findCmd 0 7 = some (report 1) ∧ w.attest ≠ some (report 1)) ∧
    found 0x0702 none s (fun _ => true) = true ∧ found 0x0A01 none s (fun w => (List.range 8).all fun n => (w.ledgerBroken n).isEmpty) = true ∧
    found 0x0902 none (programmed .none) (fun w => w.valid) = true ∧
    (∀ st ∈ [LinkState.up, .down], let w := (row 0x0903 0 3).setLink 0 { st := st }
     (w.link (leAt (leBytes 32 (0 + argAt 1 1 3)) 0 1)).rxRetired.contains 3 = false ∧ (w.link 0).st = st) ∧
    (tget [] ofQueue.stw.dma 7 = [{ x true with copy := none, op := some (0, 1) }] ∧
      (ofQueue.mqe (districtOf 0)).ops.findIdx? (fun o => o.tile == 0 && o.tag == 1) = none ∧
      (({ ofQueue with mqes := [(0, { ops := [opLoad] })] } : State).mqe (districtOf 0)).ops.findIdx? (fun o => o.tile == 0 && o.tag == 1) =
        some 0) ∧
    (let z := sends.setChan 16 { st := 2, sends := 1 }
     z.sideCode 16 false = z.activeCode ∧ (z.chan 16).st = 2 ∧ (z.chan 16).broken = none ∧ tget [] z.stw.notices 16 = []) ∧
    (sends.chan 16).broken = none := by decide +kernel

theorem witness_CompletionsAndNotices_more :
    let s := State.reset
    let found (o : Nat) (r : Option Nat) (s : State) (q : State → Bool) : Bool := let w := completes (inProgress o r) s
      w.serving && w.findCmd 0 7 == some (inProgress o r) && w.noticeChan 0 == some 16 && q w
    let other := ((completes (inProgress 0x0404 none) s).setReg (R.mbxBindN 0) (bindWord 5 2 1)).setChan 0 { st := 1, sends := 1, taken := true }
    let x (dir : Bool) : Xfer := { toDevice := dir, host := 0, dev := 0, len := 2, copy := some (0, 7) }
    let dma (dir : Bool) (b : Nat) : State := { setAll s ([(R.pciLink, F.pciLink_UP, 1), (R.pciLink, F.pciLink_BME, b)] ++ (List.range 8).map fun h =>
      (R.hbmStatus h, F.hbmStatus_STATE, 2)) with stw := { dma := [(7, [x dir])] } }
    let moves (s : State) : Bool := s.dmaOn && !((unitsOf 0 2).any fun i => s.hbmDead (64 * i)) && !s.hbmBad 0 2 && s.goodPrefix 0 2 == 2
    let note : Notice := { opcode := 1, tag := 1, status := 0, stamp := 0, args := [], body := List.replicate 4032 0 }
    let sends := (completes (inProgress 0 none) s).setReg (R.mbxBindN 16) (bindWord 2 1 1)
    let k : Bulk := { opcode := 0x0101, tag := 7, total := 5000, bytes := [], since := 0 }
    let late (s : State) : State := { s with stw := { s.stw with bulkOut := [(64 * 0x0101, k)] } }
    let stream (size : Nat) : State := { hosted with stw := { streams := [{ chan := 0, groups := 1, period := 1, ring := 0, size := size, flat := 0 }] } }
    (∀ o ∈ [0x0503, 0x0701, 0x0904], found o none s (fun _ => true) = true) ∧
    found 0x0403 none { s with prog := { startPend := true } } (fun w => w.prog.startPend) = true ∧
    found 0x0403 none s (fun w => !w.prog.startPend) = true ∧ found 0x0404 none (prog .running s) (fun w => w.armed) = true ∧
    found 0x0404 none s (fun w => !w.armed) = true ∧ other.noticeChan 0 = none ∧ (other.chan 0).broken = none ∧ (other.chan 0).st = 1 ∧ (other.chan 0).taken = true ∧
    (parseAlmanac []).isNone = true ∧ (parseManifest []).isNone = true ∧ found 0x0301 none s (fun _ => true) = true ∧
    found 0x0502 none s (fun _ => true) = true ∧
    found 0x0402 none s (fun w => (w.guardFails w.prog.hdr w.prog.secs).isEmpty && w.ngtState == ngtFree) = true ∧
    found 0x0903 none (s.setLink 0 { rxRetired := [0] }) (fun w => (w.link 0).rxRetired.contains 0) = true ∧
    tget [] s.stw.dma 7 = [] ∧ (∀ d : Bool, tget [] (dma d 1).stw.dma 7 = [x d] ∧ moves (dma d 1) = true ∧ (dma d 0).dmaOn = false) ∧
    s.sideCode 0 false ≠ s.activeCode ∧ sends.sideCode 16 false = sends.activeCode ∧ sends.serving = true ∧ (sends.chan 16).st = 0 ∧
    note.body.length ≤ 4032 ∧ s.stw.bulkOut = [] ∧ (late s).stw.bulkOut.find? (fun e => e.1 % 64 == 0) = some (64 * 0x0101, k) ∧
    k.since + 10 ^ 10 ≤ ((late s).reach ((k.since + 10 ^ 10) <<< 48)).ns ∧
    ((late (programmed .none)).reach ((k.since + 10 ^ 10) <<< 48)).ns < k.since + 10 ^ 10 ∧
    (stream 0).stw.streams[1]? = none ∧
    (∀ n ∈ [55, 56], (((stream n).stw.streams[0]?).map fun y => (decide (y.nextT ≤ (stream n).transit) && bit y.groups 0 && !bit y.groups 1 &&
      (decide (y.written + (16 + ((stream n).groupBody 0).length) ≤ y.size) == (n == 56)) && (stream n).sideCode y.chan false != 6 &&
      (stream n).bme)) = some true) := by decide +kernel

theorem witness_RegisterAndDiagAccess :
    let s := State.reset
    let r : State := setAll { s with stw := { pcie := { mse := true } } } ((List.range 8).map fun h => (R.hbmStatus h, F.hbmStatus_STATE, 2))
    let isReg : RegPath → Bool := fun p => match p with | .reg _ => true | _ => false
    let isNothing : RegPath → Bool := fun p => match p with | .nothing => true | _ => false
    let isError : RegPath → Bool := fun p => match p with | .error _ => true | _ => false
    let isAbsent : RegPath → Bool := fun p => match p with | .absent => true | _ => false
    let at' (z : State) (a len : Nat) (k : Nat) : Bool := match z.diagAt z.activeCore a len with
      | .nowhere => k == 0
      | .hbm o => k == 1 && !z.hbmBad o len
      | .tile p o => k == 2 && !(List.range len).any fun i => storePois (z.tile p) (o + i)
      | .far none => k == 3
      | .far _ => k == 4
      | _ => false
    isAbsent (s.regPath .bmc 0) = true ∧ isNothing (r.regPath .host 0xFFFFF8) = true ∧ isError (s.regPath .host 0) = true ∧
    isReg (r.regPath .host R.devStatus) = true ∧ isReg (r.regPath .stw0 R.topStatus) = true ∧ isReg (r.regPath .stw1 R.ldgCtl) = true ∧
    0x9000000 ≤ R.topStatus ∧ R.ldgCtl < 0xB000000 ∧ (0x40000 ≤ R.enrBudget ∧ R.enrBudget < 0x50000) ∧ (0x5000000 ≤ R.hbmScrubCtl 7 ∧ R.hbmScrubCtl 7 < 0x6000000) ∧
    (R.devStatus < 0x10000 ∧ R.devStatus ≠ R.devEvent ∧ R.devStatus ≠ R.devReset) ∧
    (∀ o ∈ [R.fabMapV 0 0, R.pwrVfS 0, R.rasLogStatus, R.svcVcWeight, R.svcPortNEvents 0, R.ngtNow, R.enrBudget, R.hbmScrubCtl 7],
      isReg (r.regPath .stw0 o) = true) ∧
    (R.fabMapV 0 0 % 0x10000 ≥ 0x4000 ∧ entryLegal 0 = false ∧ entryLegal (9 * 2 ^ 44 + 2 ^ 32) = false ∧ entryLegal (8 * 2 ^ 44 + 2 ^ 32) = true) ∧
    (prog .armed r).armed = true ∧ F.rasLogStatus_POP.of (2 ^ F.rasLogStatus_POP.lo) = 1 ∧
    (∀ b : Bool, let e : SramErr := { array := 0, unit := 0, bank := 0, row := 0, word := 0, bad := false }
     let w : State := { r with ras := { latent := if b then [e] else [] } }
     asks layDiagRead 5 (0xE00000000000 + sramByte e + argAt 6 2 8) [] w (fun c z => at' z (c.a 0 6) (c.a 6 2) 2 &&
       z.ras.latent.filter (sramWithin · 0 0 (sramByte e) 8) == (if b then [e] else []) && decide (z.ras.queue.length < 224)) = true) ∧
    asks layDiagRead 5 (0xF00000000000 + R.devStatus + argAt 6 2 8) [] r (fun c z => match z.diagAt z.activeCore (c.a 0 6) (c.a 6 2) with
      | .regs l => l == [(R.devStatus, .full)] | _ => false) = true ∧
    asks layDiagWrite 5 (0xF00000000000 + R.ldgCtl) (List.replicate 8 0) r (fun c z => !c.asksReset &&
      match z.diagAt z.activeCore (c.a 0 6) c.len with | .regs l => l == [(R.ldgCtl, .full)] | _ => false) = true ∧
    (∀ p ∈ [(0xFFFFFFFFF000, 0), (0, 1), (2 ^ 40 - 8, 1), (0xE00000000000, 2), (0xE00000000000 + 543 * 0x400000 + 0x200000 - 8, 2), (2 ^ 40, 3)],
      asks layDiagRead 5 (p.1 + argAt 6 2 8) [] r (fun c z => at' z (c.a 0 6) (c.a 6 2) p.2) = true ∧
      asks layDiagWrite 5 p.1 (List.replicate 8 1) r (fun c z => at' z (c.a 0 6) c.len p.2 && !c.asksReset && c.len == 8) = true) ∧
    asks layDiagRead 5 (2 ^ 44 + argAt 6 2 4032) [] { r with wins := [(0, { base := 0, len := 2 ^ 20 })] } (fun c z =>
      at' z (c.a 0 6) (c.a 6 2) 4) = true := by decide +kernel

/-! ### The queue, the bundle and the memories -/

theorem witness_StepTakesFront :
    let s : State := { State.reset with pending := [.faultRecordDrain, .rasLogPop] }
    s.pending = .faultRecordDrain :: [.rasLogPop] := by decide +kernel

theorem witness_StepIdleTicks :
    State.reset.pending = [] ∧ State.reset.nextMeridian = none ∧ 0 ≤ (2 : Int) ^ 48 + State.reset.ngt.y := by decide +kernel

theorem witness_BundleRoundTrip :
    opFail (.alu .add 31 1 (.imm 0xFFFF)) = none ∧ opFail (.vbcast { vargs .f32 with vd := 63 } 31) = none ∧
    opFail (.vred { vargs .f32 with vb := 0 } .sum 5) = none ∧ (vargs .f32).va = 0 ∧ (vargs .f32).vb = 0 := by decide +kernel

theorem witness_MemoriesKeepForm :
    let s : State := { State.reset with hbm := Mem.wrBytes [] 5 [1, 2], pending := [.rasLogPop] }
    s.memWf = true ∧ (match step s with | .next t => t.memWf | _ => false) = true := by decide +kernel

end Sys2Proof.Tests
end

section
/-!
PROOFS. The decode check passes every scalar operation, LDQ and STQ, whatever the operands: the bits that spell one hold its
opcode, and the bits its encoding leaves unused are 0 (R125 to R128, R132).
-/
namespace Sys2Proof.Machine

theorem field_eq (w lo len : Nat) : field w lo len = w / 2 ^ lo % 2 ^ len := by
  rw [field, Nat.shiftRight_eq_div_pow]

theorem testBit_field (w lo len i : Nat) : (field w lo len).testBit i = (decide (i < len) && w.testBit (lo + i)) := by
  rw [field, Nat.testBit_mod_two_pow, Nat.testBit_shiftRight]

/-- An operation whose bits decode passes the decode check. -/
theorem opFail_of_decodes {op o : SlotOp} (h : decodeSlot (slotOf op) (opBits op) = .ok o) : opFail op = none := by
  rw [opFail, h]

/-- The check of unused bits passes where the one run of bits outside `allowed` is 0. -/
theorem must0_of_field_zero {w allowed n lo len : Nat} {k : SlotDecode}
    (hm : 2 ^ n - 1 - allowed % 2 ^ n = (2 ^ len - 1) * 2 ^ lo) (h : field w lo len = 0) : must0 w allowed n k = k := by
  have hz : field w 0 n &&& (2 ^ n - 1 - allowed % 2 ^ n) = 0 := by
    rw [hm, ← Nat.shiftLeft_eq]
    apply Nat.eq_of_testBit_eq
    intro i
    have hb := testBit_field w lo len (i - lo)
    rw [h, Nat.zero_testBit] at hb
    rw [Nat.testBit_and, testBit_field, Nat.testBit_shiftLeft, Nat.testBit_two_pow_sub_one, Nat.zero_testBit, Nat.zero_add]
    by_cases hi : lo ≤ i
    · rw [Nat.add_sub_cancel' hi] at hb
      rw [Bool.and_assoc, Bool.and_left_comm (w.testBit i), Bool.and_comm (w.testBit i), ← hb, Bool.and_false, Bool.and_false]
    · simp [hi]
  rw [must0, hz]
  rfl

/-- An operation passes the decode check where decode only asks that the bits outside `allowed` are 0, and they are. -/
theorem opFail_of_unused {op o : SlotOp} {allowed n lo len : Nat}
    (hd : decodeSlot (slotOf op) (opBits op) = must0 (opBits op) allowed n (.ok o))
    (hm : 2 ^ n - 1 - allowed % 2 ^ n = (2 ^ len - 1) * 2 ^ lo) (h : field (opBits op) lo len = 0) : opFail op = none :=
  opFail_of_decodes (hd.trans (must0_of_field_zero hm h))

/-! ## The C slot -/

theorem aluCode_lt (op : AluOp) : aluCode op < 0x20 := by cases op <;> decide

theorem aluOf_aluCode (op : AluOp) : aluOf (aluCode op) = some op := by cases op <;> rfl

theorem aluOf_aluCode_imm (op : AluOp) : aluOf (aluCode op + 0x20) = none := by cases op <;> rfl

section
variable {w : Nat}

theorem decodeC_alu_reg {op : AluOp} (h : field w 26 6 = aluCode op) :
    decodeC w = must0 w (ones 25 11) 26 (.ok (.alu op (fbv w 21 5) (fbv w 16 5) (.reg (fbv w 11 5)))) := by
  simp only [decodeC, h, aluOf_aluCode]

theorem decodeC_alu_imm {op : AluOp} (h : field w 26 6 = aluCode op + 0x20) :
    decodeC w = .ok (.alu op (fbv w 21 5) (fbv w 16 5) (.imm (fbv w 0 16))) := by
  simp only [decodeC, h, aluOf_aluCode_imm, ge_iff_le, Nat.le_add_left, if_true, Nat.add_sub_cancel, aluOf_aluCode]

theorem decodeC_movi (h : field w 26 6 = 0x13) :
    decodeC w = must0 w (ones 25 21 + ones 19 0) 26 (.ok (.movi (fbv w 21 5) (fbv w 0 20))) := by
  unfold decodeC; rw [h]; rfl

theorem decodeC_movk (h : field w 26 6 = 0x14) :
    decodeC w = must0 w (ones 25 21 + ones 17 0) 26 (.ok (.movk (fbv w 21 5) (fbv w 16 2) (fbv w 0 16))) := by
  unfold decodeC; rw [h]; rfl

theorem decodeC_rdt (h : field w 26 6 = 0x15) : decodeC w = must0 w (ones 25 21) 26 (.ok (.rdt (fbv w 21 5))) := by
  unfold decodeC; rw [h]; rfl

theorem decodeC_rdl (h : field w 26 6 = 0x16) : decodeC w = must0 w (ones 25 21) 26 (.ok (.rdl (fbv w 21 5))) := by
  unfold decodeC; rw [h]; rfl

end

theorem opFail_alu (op : AluOp) (sd sa : BitVec 5) (b : Src2) : opFail (.alu op sd sa b) = none := by
  have hop := aluCode_lt op
  cases b with
  | reg sb =>
    have hc : field (opBits (.alu op sd sa (.reg sb))) 26 6 = aluCode op := by simp only [opBits, at_, field_eq]; omega
    have h0 : field (opBits (.alu op sd sa (.reg sb))) 0 11 = 0 := by simp only [opBits, at_, field_eq]; omega
    exact opFail_of_unused (decodeC_alu_reg hc) rfl h0
  | imm i =>
    have hc : field (opBits (.alu op sd sa (.imm i))) 26 6 = aluCode op + 0x20 := by
      simp only [opBits, at_, field_eq]; omega
    exact opFail_of_decodes (decodeC_alu_imm hc)

theorem opFail_movi (sd : BitVec 5) (imm : BitVec 20) : opFail (.movi sd imm) = none := by
  have hc : field (opBits (.movi sd imm)) 26 6 = 0x13 := by simp only [opBits, at_, field_eq]; omega
  have h0 : field (opBits (.movi sd imm)) 20 1 = 0 := by simp only [opBits, at_, field_eq]; omega
  exact opFail_of_unused (decodeC_movi hc) rfl h0

theorem opFail_movk (sd : BitVec 5) (h : BitVec 2) (imm : BitVec 16) : opFail (.movk sd h imm) = none := by
  have hc : field (opBits (.movk sd h imm)) 26 6 = 0x14 := by simp only [opBits, at_, field_eq]; omega
  have h0 : field (opBits (.movk sd h imm)) 18 3 = 0 := by simp only [opBits, at_, field_eq]; omega
  exact opFail_of_unused (decodeC_movk hc) rfl h0

theorem opFail_rdt (sd : BitVec 5) : opFail (.rdt sd) = none := by
  have hc : field (opBits (.rdt sd)) 26 6 = 0x15 := by simp only [opBits, at_, field_eq]; omega
  have h0 : field (opBits (.rdt sd)) 0 21 = 0 := by simp only [opBits, at_, field_eq]; omega
  exact opFail_of_unused (decodeC_rdt hc) rfl h0

theorem opFail_rdl (sd : BitVec 5) : opFail (.rdl sd) = none := by
  have hc : field (opBits (.rdl sd)) 26 6 = 0x16 := by simp only [opBits, at_, field_eq]; omega
  have h0 : field (opBits (.rdl sd)) 0 21 = 0 := by simp only [opBits, at_, field_eq]; omega
  exact opFail_of_unused (decodeC_rdl hc) rfl h0

/-! ## LDQ and STQ -/

section
variable {w : Nat}

theorem decodeX_ldqv (h : field w 35 5 = 3) :
    decodeX w = .ok (.ldqv (fbv w 29 6) (fbv w 24 5) (fbv w 19 5) (fbv w 0 19)) := by
  unfold decodeX; rw [h]; rfl

theorem decodeX_ldqt (h : field w 35 5 = 4) :
    decodeX w = must0 w (ones 34 14) 35 (.ok (.ldqt (fbv w 29 6) (fbv w 24 5) (fbv w 19 5) (fbv w 14 5))) := by
  unfold decodeX; rw [h]; rfl

theorem decodeX_ldqi (h : field w 35 5 = 5) :
    decodeX w = must0 w (ones 34 15) 35 (.ok (.ldqi (fbv w 29 6) (fbv w 25 4) (fbv w 20 5) (fbv w 15 5))) := by
  unfold decodeX; rw [h]; rfl

theorem decodeX_stqv (h : field w 35 5 = 6) :
    decodeX w = .ok (.stqv (fbv w 29 6) (fbv w 23 6) (fbv w 18 5) (fbv w 13 5) (fbv w 0 13)) := by
  unfold decodeX; rw [h]; rfl

theorem decodeX_stqt (h : field w 35 5 = 7) :
    decodeX w = must0 w (ones 34 14) 35 (.ok (.stqt (fbv w 29 6) (fbv w 24 5) (fbv w 19 5) (fbv w 14 5))) := by
  unfold decodeX; rw [h]; rfl

end

theorem opFail_ldqv (tag : BitVec 6) (ss n : BitVec 5) (imm : BitVec 19) : opFail (.ldqv tag ss n imm) = none := by
  have hc : field (opBits (.ldqv tag ss n imm)) 35 5 = 3 := by simp only [opBits, at_, field_eq]; omega
  exact opFail_of_decodes (decodeX_ldqv hc)

theorem opFail_ldqt (tag : BitVec 6) (st sm sl : BitVec 5) : opFail (.ldqt tag st sm sl) = none := by
  have hc : field (opBits (.ldqt tag st sm sl)) 35 5 = 4 := by simp only [opBits, at_, field_eq]; omega
  have h0 : field (opBits (.ldqt tag st sm sl)) 0 14 = 0 := by simp only [opBits, at_, field_eq]; omega
  exact opFail_of_unused (decodeX_ldqt hc) rfl h0

theorem opFail_ldqi (tag : BitVec 6) (first : BitVec 4) (cnt so : BitVec 5) : opFail (.ldqi tag first cnt so) = none := by
  have hc : field (opBits (.ldqi tag first cnt so)) 35 5 = 5 := by simp only [opBits, at_, field_eq]; omega
  have h0 : field (opBits (.ldqi tag first cnt so)) 0 15 = 0 := by simp only [opBits, at_, field_eq]; omega
  exact opFail_of_unused (decodeX_ldqi hc) rfl h0

theorem opFail_stqv (tag vs : BitVec 6) (ss n : BitVec 5) (imm : BitVec 13) : opFail (.stqv tag vs ss n imm) = none := by
  have hc : field (opBits (.stqv tag vs ss n imm)) 35 5 = 6 := by simp only [opBits, at_, field_eq]; omega
  exact opFail_of_decodes (decodeX_stqv hc)

theorem opFail_stqt (tag : BitVec 6) (st sm sl : BitVec 5) : opFail (.stqt tag st sm sl) = none := by
  have hc : field (opBits (.stqt tag st sm sl)) 35 5 = 7 := by simp only [opBits, at_, field_eq]; omega
  have h0 : field (opBits (.stqt tag st sm sl)) 0 14 = 0 := by simp only [opBits, at_, field_eq]; omega
  exact opFail_of_unused (decodeX_stqt hc) rfl h0

end Sys2Proof.Machine
end

section
/-!
PROOFS. The scalar operations (R113): the value lands in sd as the next cycle begins.
-/
namespace Sys2Proof.Machine

theorem testBit_putField (w lo len v i : Nat) :
    (putField w lo len v).testBit i = if lo ≤ i ∧ i < lo + len then v.testBit (i - lo) else w.testBit i := by
  have hv : v % 2 ^ len < 2 ^ len := Nat.mod_lt _ (Nat.two_pow_pos len)
  have e : putField w lo len v = 2 ^ lo * (2 ^ len * (w >>> (lo + len)) + v % 2 ^ len) + w % 2 ^ lo := by
    rw [putField, Nat.mul_add, ← Nat.mul_assoc, ← Nat.pow_add, Nat.mul_comm (w >>> _), Nat.mul_comm (v % _)]
    omega
  rw [e, Nat.testBit_two_pow_mul_add _ (Nat.mod_lt _ (Nat.two_pow_pos lo)), Nat.testBit_two_pow_mul_add _ hv,
    Nat.testBit_mod_two_pow, Nat.testBit_mod_two_pow, Nat.testBit_shiftRight]
  rcases Nat.lt_or_ge i lo with h1 | h1
  · simp [h1]
  · rcases Nat.lt_or_ge i (lo + len) with h2 | h2
    · have h3 : i - lo < len := by omega
      simp [h1, h2, h3, Nat.not_lt.2 h1]
    · have h3 : ¬ i - lo < len := by omega
      have h4 : lo + len + (i - lo - len) = i := by omega
      simp [h3, h4, Nat.not_lt.2 h1, Nat.not_lt.2 h2]

/-- The bits of a word with one of its 16-bit parts replaced (MOVK). -/
theorem getLsbD_putField_part (w : Word) (h : BitVec 2) (imm : BitVec 16) (i : Nat) :
    (BitVec.ofNat 64 (putField w.toNat (16 * h.toNat) 16 imm.toNat)).getLsbD i =
      if 16 * h.toNat ≤ i ∧ i < 16 * h.toNat + 16 then imm.getLsbD (i - 16 * h.toNat) else w.getLsbD i := by
  rw [BitVec.getLsbD_ofNat, testBit_putField, BitVec.testBit_toNat, BitVec.testBit_toNat]
  rcases Nat.lt_or_ge i 64 with hi | hi
  · rw [decide_eq_true hi, Bool.true_and]
  · have hn : ¬ (16 * h.toNat ≤ i ∧ i < 16 * h.toNat + 16) := by have := h.isLt; omega
    rw [if_neg hn, BitVec.getLsbD_of_ge w i hi, Bool.and_false]

theorem rdS_land_sreg (t : Tile) (sd : BitVec 5) (v : SReg) :
    rdS (land t (.sreg sd.toNat v)) sd = if sd = 0 then {} else v := by
  unfold rdS
  split
  · rfl
  · next hn =>
    have h : ¬ sd.toNat = 0 := fun h => hn (BitVec.eq_of_toNat_eq h)
    rw [land, if_neg h]
    exact tget_tset_same _ _ _ _

/-- A command leaves `v` for register sd: there as the next cycle begins, where that is no later than the meridian, else in
flight; only the tile and the time differ. -/
def State.givesScalar (s : State) (p : PTile) (sd : BitVec 5) (c : Instr) (v : SReg) : Prop :=
  Ends c s fun u =>
    ((s.beat p.val).next (s.tile p.val) ≤ (s.beat p.val).stop → rdS (u.tile p.val) sd = (if sd = 0 then {} else v)) ∧
    u.tile p.val = s.lands p (.sreg sd.toNat v) ∧ s.onlyTile p u

section
variable {s : State} {p : PTile} {sd : BitVec 5} {c : Instr}

/-- An operation whose issue is one write of sd after one cycle. -/
theorem givesScalar_of_emit {op : SlotOp} {v : SReg} (hc : s.canIssue p) (hw : (s.tile p.val).freeAt 1 (.sreg sd.toNat {}))
    (he : exec c s = .next (s.issueOne p.val op)) (hf : opFail op = none)
    (hr : issueOp (s.tileCtx p.val) (s.tile p.val) op = emit (s.tile p.val) 1 (.sreg sd.toNat v)) :
    s.givesScalar p sd c v := by
  obtain ⟨ht, ho⟩ := issueOne_land hc hf hr hw
  refine ⟨_, he, fun hn => ?_, ht, ho⟩
  rw [ht, State.lands, if_pos hn]
  exact rdS_land_sreg _ _ _

theorem alu_givesScalar {sa : BitVec 5} {b : Src2} (hc : s.canIssue p) (hs : (s.tile p.val).readable (sa :: Src2regs b) [] [])
    (hw : (s.tile p.val).freeAt 1 (.sreg sd.toNat {})) (op : AluOp) (he : exec c s = .next (s.issueOne p.val (.alu op sd sa b))) :
    s.givesScalar p sd c
      { val := aluResult op (rdS (s.tile p.val) sa).val (src2Val (s.tile p.val) b).val
        poison := (rdS (s.tile p.val) sa).poison || (src2Val (s.tile p.val) b).poison } :=
  givesScalar_of_emit hc hw he (opFail_alu op sd sa b) (ready_ok hs)

theorem movk_givesScalar (hc : s.canIssue p) (hs : (s.tile p.val).readable [sd] [] [])
    (hw : (s.tile p.val).freeAt 1 (.sreg sd.toNat {})) (h : BitVec 2) (imm : BitVec 16) :
    s.givesScalar p sd (.movk p sd h imm) { rdS (s.tile p.val) sd with
      val := BitVec.ofNat 64 (putField (rdS (s.tile p.val) sd).val.toNat (16 * h.toNat) 16 imm.toNat) } :=
  givesScalar_of_emit hc hw rfl (opFail_movk sd h imm) (ready_ok hs)

end

theorem aluResult_mulhs (a b : Word) : aluResult .mulhs a b = BitVec.ofInt 64 (a.toInt * b.toInt / 2 ^ 64) := by
  simp [aluResult]

/-- Settles O9: each operation issues as one write of sd after one cycle, and that write lands. -/
theorem scalarResult : Obligations.ScalarResult := by
  unfold Obligations.ScalarResult
  constructor
  · intro s p sd sa b hc t hs hw x y gives
    have alu (c : Instr) := alu_givesScalar (c := c) hc hs hw
    have mulhs := alu (.mulhs p sd sa b) .mulhs rfl
    rw [aluResult_mulhs] at mulhs
    exact ⟨alu _ .add rfl, alu _ .sub rfl, alu _ .mul rfl, mulhs, alu _ .mulhu rfl, alu _ .and rfl, alu _ .or rfl,
      alu _ .xor rfl, alu _ .shl rfl, alu _ .shr rfl, alu _ .sra rfl, alu _ .min rfl, alu _ .max rfl, alu _ .minu rfl,
      alu _ .maxu rfl, alu _ .seq rfl, alu _ .slt rfl, alu _ .sltu rfl⟩
  · intro s p sd hc t hw gives
    refine ⟨fun imm => ?_, fun hs h imm => ?_, ?_, ?_⟩
    · exact givesScalar_of_emit hc hw rfl (opFail_movi sd imm) rfl
    · exact ⟨_, movk_givesScalar hc hs hw h imm, rfl, getLsbD_putField_part _ h imm⟩
    · exact givesScalar_of_emit hc hw rfl (opFail_rdt sd) rfl
    · exact givesScalar_of_emit hc hw rfl (opFail_rdl sd) rfl

end Sys2Proof.Machine
end

section
/-!
PROOFS. Program-fatal faults at issue (R60, R112, R520): what the record and its containment leave of the tile, of the MQEs
and of the fault queue.
-/
namespace Sys2Proof.Machine

/-! ## Everything in flight lands -/

theorem land_tags (t : Tile) (w : Landing) : (land t w).tags = t.tags := by
  cases w <;> simp only [land] <;> split <;> rfl

theorem land_status (t : Tile) (w : Landing) : (land t w).issue.status = t.issue.status := by
  cases w <;> simp only [land] <;> split <;> rfl

theorem landDue_tags (t : Tile) : (landDue t).tags = t.tags := by
  rw [landDue_eq]
  exact foldl_keeps (fun z : Tile => z.tags = t.tags) _ _ rfl fun z f _ hz => (land_tags z f.what).trans hz

theorem landDue_status (t : Tile) : (landDue t).issue.status = t.issue.status := by
  rw [landDue_eq]
  exact foldl_keeps (fun z : Tile => z.issue.status = t.issue.status) _ _ rfl fun z f _ hz => (land_status z f.what).trans hz

theorem landAll_tags (t : Tile) : (landAll t).tags = t.tags := landDue_tags _

theorem landAll_status (t : Tile) : (landAll t).issue.status = t.issue.status := landDue_status _

/-! ## Containment of a program-fatal fault (R520, R522) -/

/-- Only what the re-run of requests and the stop of a program write differs: HBM, the program, the requests and the steward. -/
def State.programOnly (s u : State) : Prop :=
  u = { s with hbm := u.hbm, hbmPoison := u.hbmPoison, draws := u.draws, prog := u.prog, reqs := u.reqs,
               reqDone := u.reqDone, stw := u.stw }

theorem State.programOnly.refl (s : State) : s.programOnly s := rfl

theorem State.programOnly.trans {s u w : State} (h1 : s.programOnly u) (h2 : u.programOnly w) : s.programOnly w :=
  Eq.trans h2 (by rw [h1])

theorem State.programOnly.tile {s u : State} (h : s.programOnly u) (p : Nat) : u.tile p = s.tile p := by rw [h]; rfl

theorem State.programOnly.mqe {s u : State} (h : s.programOnly u) (d : Nat) : u.mqe d = s.mqe d := by rw [h]; rfl

theorem State.programOnly.ras {s u : State} (h : s.programOnly u) : u.ras = s.ras := by rw [h]

theorem State.programOnly.valid {s u : State} (h : s.programOnly u) : u.valid = s.valid := by rw [h]; rfl

theorem hbmPut_programOnly (s : State) (off : Nat) (bs : List Byte) : s.programOnly (s.hbmPut off bs) := by
  unfold State.hbmPut State.programOnly
  rw [s.hbmWrite_eq off bs]

theorem setReq_programOnly (s : State) (i : Nat) (r : Request) : s.programOnly (s.setReq i r) := rfl

theorem endReq_programOnly (s : State) (i st l ps : Nat) : s.programOnly (s.endReq i st l ps) := rfl

theorem postEntry_programOnly (s : State) (i : Nat) : s.programOnly (s.postEntry i) := by
  unfold State.postEntry
  split
  · exact .refl s
  · exact ((hbmPut_programOnly s _ _).trans (hbmPut_programOnly _ _ _)).trans rfl

theorem repost_programOnly (s : State) (t : Nat) : s.programOnly (s.repost t) := by
  unfold State.repost
  refine foldl_keeps s.programOnly _ _ (.refl s) fun z e _ hz => ?_
  dsimp only
  split
  · exact hz.trans (endReq_programOnly z _ _ _ _)
  · split
    · exact hz.trans (endReq_programOnly z _ _ _ _)
    · exact hz.trans ((setReq_programOnly z _ _).trans (postEntry_programOnly _ _))

theorem noteFailed_programOnly (s : State) (t code : Nat) : s.programOnly (s.noteFailed t code) := rfl

theorem floodFailed_programOnly (s : State) (t code : Nat) (stop : Bool) : s.programOnly (s.floodFailed t code stop) := by
  unfold State.floodFailed State.forwardFailed
  split
  · exact .refl s
  · rfl

theorem markFailed_programOnly (s : State) (t code : Nat) (stop : Bool) : s.programOnly (s.markFailed t code stop) := by
  unfold State.markFailed
  split
  · exact ((noteFailed_programOnly s t code).trans (repost_programOnly _ t)).trans (floodFailed_programOnly _ _ _ _)
  · exact .refl s

/-- With no program loaded no transit fails. -/
theorem markFailed_none {s : State} (h : s.prog.st = .none) (t code : Nat) (stop : Bool) : s.markFailed t code stop = s := by
  unfold State.markFailed State.mayFail
  rw [h]
  rfl

/-- A stop that is not at once is scheduled: only the program's own state differs. -/
theorem stopFrom_programOnly {s : State} (h : s.stopsLater) (t status : Nat) : s.programOnly (s.stopFrom t status) := by
  unfold State.stopFrom
  split
  · exact .refl s
  · exact .refl s
  · exact .refl s
  · next hn _ _ =>
    have hv : s.valid = true := h.resolve_right hn
    rw [hv]
    rfl

theorem contain_programOnly {s : State} (h : s.stopsLater) (code t : Nat) : s.programOnly (s.contain code 4 t) := by
  have hm := markFailed_programOnly s t code true
  have hl : (s.markFailed t code true).stopsLater := by
    rcases h with hv | hn
    · exact .inl (hm.valid.trans hv)
    · rw [markFailed_none hn]; exact .inr hn
  exact hm.trans (stopFrom_programOnly hl _ _)

/-! ## TIL_FAULT_SUMMARY and TIL_FAULT_EXTRA (R60) -/

/-- Only registers differ. -/
def State.regsOnly (s u : State) : Prop := ∃ rs, u = { s with regs := rs }

theorem State.regsOnly.trans {s u w : State} (h1 : s.regsOnly u) (h2 : u.regsOnly w) : s.regsOnly w := by
  obtain ⟨rs, rfl⟩ := h1
  exact h2

theorem State.regsOnly.tile {s u : State} (h : s.regsOnly u) (p : Nat) : u.tile p = s.tile p := by
  obtain ⟨rs, rfl⟩ := h; rfl

theorem State.regsOnly.mqe {s u : State} (h : s.regsOnly u) (d : Nat) : u.mqe d = s.mqe d := by
  obtain ⟨rs, rfl⟩ := h; rfl

theorem State.regsOnly.ras {s u : State} (h : s.regsOnly u) : u.ras = s.ras := by
  obtain ⟨rs, rfl⟩ := h; rfl

theorem State.regsOnly.prog {s u : State} (h : s.regsOnly u) : u.prog = s.prog := by
  obtain ⟨rs, rfl⟩ := h; rfl

theorem fset_regsOnly (s : State) (o : Nat) (g : RField) (v : Nat) : s.regsOnly (s.fset o g v) := ⟨_, rfl⟩

section
variable (s : State) (p slot bundle t : Nat) (f : TFault) (n : Nat)

/-- A recorded fault writes registers and nothing else of the device. -/
theorem summary_regsOnly : s.regsOnly (s.summary p slot bundle t f n) :=
  (((((fset_regsOnly s _ _ _).trans (fset_regsOnly _ _ _ _)).trans (fset_regsOnly _ _ _ _)).trans
    (fset_regsOnly _ _ _ _)).trans (fset_regsOnly _ _ _ _)).trans (fset_regsOnly _ _ _ _)

theorem State.reg_fbump_ne {o q : Nat} (g : RField) (h : q ≠ o) : (s.fbump o g n).reg q = s.reg q := by
  obtain ⟨v, e⟩ := s.fbump_set o g n
  rw [e, s.reg_setReg_ne v h]

/-- TIL_FAULT_SUMMARY and TIL_FAULT_EXTRA of the tile are the registers a recorded fault writes. -/
theorem summary_reg {q : Nat} (h1 : q ≠ R.tilFaultSummary p) (h2 : q ≠ R.tilFaultExtra p) :
    (s.summary p slot bundle t f n).reg q = s.reg q := by
  simp only [State.summary, State.reg_fbump_ne _ _ _ h2, State.reg_fset_ne _ _ _ h1]

theorem summary_valid : (s.summary p slot bundle t f n).valid = s.valid := by
  have h1 : R.ngtPeriod ≠ R.tilFaultSummary p := by unfold R.ngtPeriod R.tilFaultSummary; omega
  have h2 : R.ngtPeriod ≠ R.tilFaultExtra p := by unfold R.ngtPeriod R.tilFaultExtra; omega
  rw [State.valid, State.fget, summary_reg s p slot bundle t f n h1 h2]
  rfl

end

/-! ## The record of a fault of a cycle -/

/-- With room in the queue, the record of a program-fatal fault joins it. -/
theorem recordIn_room {s : State} (t code : Nat) (pl : Place) (detail : Nat) (h : s.ras.queue.length < 256) :
    ∃ r : FaultRec, r.code = code ∧ r.cls = 4 ∧ r.ptile = pl.ptile ∧ r.slot = pl.slot ∧ r.bundle = pl.bundle ∧
      s.recordIn t code 4 pl detail = { s with ras := { s.ras with queue := s.ras.queue ++ [r], lossNext := false } } := by
  have hn : ¬(s.ras.queue.length ≥ 256 ∨ (s.ras.queue.length ≥ 224 ∧ 4 ≤ 2)) := by omega
  refine ⟨{ code := code, cls := 4, loss := s.ras.lossNext, district := pl.district, slot := pl.slot, ptile := pl.ptile,
            ltile := pl.ltile, bundle := pl.bundle, ngt := hwStamp s.stamp, transit := t, detail := detail % 2 ^ 192 },
    rfl, rfl, rfl, rfl, rfl, ?_⟩
  unfold State.recordIn
  dsimp only
  rw [if_neg hn]

/-- A program-fatal fault that ends nothing at once, recorded and contained: tiles and MQEs stand, one record joins the queue. -/
theorem recordIn_contain {s : State} (t code : Nat) (pl : Place) (detail : Nat) (hl : s.stopsLater)
    (hq : s.ras.queue.length < 256) :
    (∀ p, ((s.recordIn t code 4 pl detail).contain code 4 t).tile p = s.tile p) ∧
      (∀ d, ((s.recordIn t code 4 pl detail).contain code 4 t).mqe d = s.mqe d) ∧
      ∃ r : FaultRec, r.code = code ∧ r.cls = 4 ∧ r.ptile = pl.ptile ∧ r.slot = pl.slot ∧ r.bundle = pl.bundle ∧
        ((s.recordIn t code 4 pl detail).contain code 4 t).ras.queue = s.ras.queue ++ [r] := by
  obtain ⟨r, hcode, hcls, hptile, hslot, hbundle, e⟩ := recordIn_room t code pl detail hq
  have hl' : (s.recordIn t code 4 pl detail).stopsLater := by rw [e]; exact hl
  have hc := contain_programOnly hl' code t
  refine ⟨fun p => (hc.tile p).trans ?_, fun d => (hc.mqe d).trans ?_, r, hcode, hcls, hptile, hslot, hbundle, ?_⟩
  · rw [e]; rfl
  · rw [e]; rfl
  · rw [hc.ras, e]

/-- The record, the containment and the tile's own state after a program-fatal fault that ends nothing at once (R60, R274). -/
theorem tileFaults_fatal {s : State} {f : TFault} (p bundle slot : Nat) (hf : f.cls = 4) (hl : s.stopsLater)
    (hq : s.ras.queue.length < 256) :
    (s.tileFaults p bundle slot f []).tile p =
        landAll { s.tile p with issue := { (s.tile p).issue with status := .faulted } } ∧
      (∀ d, (s.tileFaults p bundle slot f []).mqe d = s.mqe d) ∧
      ∃ r : FaultRec, r.code = f.code ∧ r.cls = 4 ∧ r.ptile = p ∧ r.slot = slot ∧ r.bundle = bundle ∧
        (s.tileFaults p bundle slot f []).ras.queue = s.ras.queue ++ [r] := by
  let t := s.tile p
  let s0 := s.setTile p (landAll { t with issue := { t.issue with status := .faulted } })
  let s1 := s0.summary p slot bundle t.issue.transit f 0
  have e : s.tileFaults p bundle slot f [] =
      (s1.recordIn t.issue.transit f.code 4 (s1.tilePlace p slot bundle) f.detail).contain f.code 4 t.issue.transit := by
    unfold State.tileFaults
    dsimp only [List.foldl_nil, List.length_nil]
    rw [hf]
    rfl
  have h1 : s0.regsOnly s1 := summary_regsOnly s0 p slot bundle t.issue.transit f 0
  have hl1 : s1.stopsLater := by
    rcases hl with h | h
    · exact .inl ((summary_valid s0 p slot bundle t.issue.transit f 0).trans h)
    · exact .inr ((congrArg Prog.st h1.prog).trans h)
  have hq1 : s1.ras.queue.length < 256 := by rw [h1.ras]; exact hq
  obtain ⟨htile, hmqe, r, hcode, hcls, hptile, hslot, hbundle, hqueue⟩ :=
    recordIn_contain t.issue.transit f.code (s1.tilePlace p slot bundle) f.detail hl1 hq1
  rw [e]
  refine ⟨?_, fun d => ?_, r, hcode, hcls, hptile, hslot, hbundle, ?_⟩
  · rw [htile, h1.tile]
    exact State.tile_setTile_same s p _
  · rw [hmqe, h1.mqe]
    rfl
  · rw [hqueue, h1.ras]
    rfl

/-! ## Issue of one operation that faults -/

theorem issueAll_one_fault {c : TileCtx} {t : Tile} {op : SlotOp} {f : TFault} (sl : Slot) (h : issueOp c t op = .error f) :
    issueAll c t [(sl, op)] = { tile := t, faults := [(sl, f)] } := by
  simp only [issueAll, List.foldl_cons, List.foldl_nil, h, List.nil_append]

/-- An operation that passes the checks before issue and the decode check issues as a bundle of its own. -/
theorem issueOne_eq_issueBundle {s : State} {p : PTile} {op : SlotOp} (hc : s.canIssue p) (hf : opFail op = none) :
    s.issueOne p.val op = s.issueBundle p.val [(slotOf op, op)] 0 := by
  obtain ⟨hmay, haddr, -⟩ := hc
  have hm : (!s.mayIssue p.val) = false := by rw [hmay]; rfl
  unfold State.issueOne
  rw [hm, haddr, hf, ite_self]
  rfl

/-- An operation that faults does not execute: the tile meets the fault at its bundle address. -/
theorem issueOne_fault {s : State} {p : PTile} {op : SlotOp} {f : TFault} (hc : s.canIssue p) (hf : opFail op = none)
    (hr : issueOp (s.tileCtx p.val) (s.tile p.val) op = .error f) :
    s.issueOne p.val op =
      ((s.reach (s.tile p.val).issue.start).setTile p.val
        { s.tile p.val with issue := { (s.tile p.val).issue with last := (s.tile p.val).issue.pc } }).tileFaults p.val
          (s.tile p.val).issue.pc (slotNo (slotOf op)) f [] := by
  rw [issueOne_eq_issueBundle hc hf]
  obtain ⟨-, -, hsound⟩ := hc
  unfold State.issueBundle
  rw [bundleSram_sound hsound]
  dsimp only [Nat.add_zero]
  rw [issueAll_one_fault _ hr]
  rfl

/-- A program-fatal fault of one operation alone in its bundle. -/
theorem issueOne_fatal {s : State} {p : PTile} {op : SlotOp} {f : TFault} (hc : s.canIssue p) (hf : opFail op = none)
    (hr : issueOp (s.tileCtx p.val) (s.tile p.val) op = .error f) (h4 : f.cls = 4) (hl : s.stopsLater)
    (hq : s.ras.queue.length < 256) :
    (s.issueOne p.val op).tile p.val = landAll { s.tile p.val with issue := { (s.tile p.val).issue with
        last := (s.tile p.val).issue.pc, status := .faulted } } ∧
      (∀ d, (s.issueOne p.val op).mqe d = s.mqe d) ∧
      ∃ r : FaultRec, r.code = f.code ∧ r.cls = 4 ∧ r.ptile = p.val ∧ r.slot = slotNo (slotOf op) ∧
        r.bundle = (s.tile p.val).issue.pc ∧ (s.issueOne p.val op).ras.queue = s.ras.queue ++ [r] := by
  let z := (s.reach (s.tile p.val).issue.start).setTile p.val
    { s.tile p.val with issue := { (s.tile p.val).issue with last := (s.tile p.val).issue.pc } }
  obtain ⟨-, hz⟩ : s.onlyTile p z := onlyTile_set _ _ _ _
  have hlz : z.stopsLater := by rw [hz]; exact hl
  have hqz : z.ras.queue.length < 256 := by rw [hz]; exact hq
  obtain ⟨htile, hmqe, r, hcode, hcls, hptile, hslot, hbundle, hqueue⟩ :=
    tileFaults_fatal p.val (s.tile p.val).issue.pc (slotNo (slotOf op)) h4 hlz hqz
  rw [issueOne_fault hc hf hr]
  refine ⟨?_, fun d => ?_, r, hcode, hcls, hptile, hslot, hbundle, ?_⟩
  · rw [htile, State.tile_setTile_same]
  · rw [hmqe d, hz]
    rfl
  · rw [hqueue, hz]

/-! ## LDQ and STQ on a busy tag (R112) -/

/-- Check 2 of R552: a tag in use is not written. -/
theorem queueHead_busy {t : Tile} {tag : BitVec 6} {ss : List (BitVec 5)} {vs : List (BitVec 6)} {k : IssueR}
    (hr : t.readable ss vs []) (hb : (rdTag t tag).st = .outstanding ∨ (rdTag t tag).st = .data) :
    queueHead t tag ss vs k = .error .hazardWrite := by
  have h : ((rdTag t tag).st == .outstanding || (rdTag t tag).st == .data) = true := by
    simpa only [Bool.or_eq_true, beq_iff_eq] using hb
  rw [queueHead, ready_ok hr, h]
  rfl

/-- An operation that meets HAZARD_WRITE leaves every tag and the MQE as they were, and the tile FAULTED. -/
theorem hazardWrite_refuses {s : State} {p : PTile} {c : Instr} {op : SlotOp} (tag : BitVec 6) (hc : s.canIssue p)
    (hl : s.stopsLater) (hq : s.ras.queue.length < 256) (he : exec c s = .next (s.issueOne p.val op)) (hf : opFail op = none)
    (hr : issueOp (s.tileCtx p.val) (s.tile p.val) op = .error .hazardWrite) :
    Ends c s fun u => rdTag (u.tile p.val) tag = rdTag (s.tile p.val) tag ∧ (u.tile p.val).issue.status = .faulted ∧
      u.mqe (districtOf p.val) = s.mqe (districtOf p.val) ∧
      ∃ r : FaultRec, u.ras.queue = s.ras.queue ++ [r] ∧ r.code = 0x0102 ∧ r.cls = 4 ∧ r.ptile = p.val := by
  obtain ⟨htile, hmqe, r, hcode, hcls, hptile, -, -, hqueue⟩ := issueOne_fatal hc hf hr rfl hl hq
  refine ⟨_, he, ?_, ?_, hmqe _, r, hqueue, hcode, hcls, hptile⟩
  · rw [htile, rdTag, landAll_tags]
    rfl
  · rw [htile, landAll_status]

/-- Settles O23: check 2 of R552 stops each of the five operations. -/
theorem busyTagFaults : Obligations.BusyTagFaults := by
  unfold Obligations.BusyTagFaults
  intro s p tag hc hl hq t hb refuses
  have refuse (c : Instr) {op : SlotOp} := hazardWrite_refuses (c := c) (op := op) tag hc hl hq
  refine ⟨fun ss n imm hr => ?_, fun st sm sl hr => ?_, fun first cnt so hr => ?_, fun vs ss n imm hr => ?_,
    fun st sm sl hr => ?_⟩
  · exact refuse _ rfl (opFail_ldqv tag ss n imm) (queueHead_busy hr hb)
  · exact refuse _ rfl (opFail_ldqt tag st sm sl) (queueHead_busy hr hb)
  · exact refuse _ rfl (opFail_ldqi tag first cnt so) (queueHead_busy hr hb)
  · exact refuse _ rfl (opFail_stqv tag vs ss n imm) (queueHead_busy hr hb)
  · exact refuse _ rfl (opFail_stqt tag st sm sl) (queueHead_busy hr hb)

end Sys2Proof.Machine
end
